-- ==== Sys2Proof/Word.lean ====
section
/-! DEFINITION. The word types of the model and their plainest arithmetic (spec/00_scope.md R10 to R13). -/

namespace Sys2Proof

/-- One byte of data: eight bits, bit 0 least significant (R10). -/
abbrev Byte := BitVec 8

/-- A binary32 bit pattern (02_spiral_numbers.md R55 to R72). -/
abbrev F32 := BitVec 32

/-- A byte made from a number, keeping its low eight bits. -/
def byte (n : Nat) : Byte := BitVec.ofNat 8 n

/-- The little-endian number that a list of bytes spells (R13, structures in device memory). -/
def leNat : List Byte → Nat
  | [] => 0
  | b :: bs => b.toNat + 256 * leNat bs

/-- The big-endian number that a list of bytes spells (R13, packets). -/
def beNat (bs : List Byte) : Nat := leNat bs.reverse

/-- `n` as `k` little-endian bytes (R13). -/
def toLe : Nat → Nat → List Byte
  | 0, _ => []
  | k + 1, n => byte n :: toLe k (n / 256)

/-- `n` as `k` big-endian bytes (R13). -/
def toBe (k n : Nat) : List Byte := (toLe k n).reverse

/-- Bits [hi:lo] of a number (R11). -/
def bits (n hi lo : Nat) : Nat := n / 2 ^ lo % 2 ^ (hi + 1 - lo)

/-- One bit of a number (R11). -/
def bit (n i : Nat) : Bool := n / 2 ^ i % 2 == 1

/-- The signed reading of a two's-complement field of `w` bits. -/
def signed (w n : Nat) : Int := if n < 2 ^ (w - 1) then (n : Int) else (n : Int) - (2 : Int) ^ w

/-- Division rounded up. -/
def cdiv (a b : Nat) : Nat := (a + b - 1) / b

/-- Bytes `[off, off + len)` of a list, padded with zero bytes where the list ends. -/
def slice (bs : List Byte) (off len : Nat) : List Byte :=
  let t := (bs.drop off).take len
  t ++ List.replicate (len - t.length) 0

/-- A natural number as 0 or 1. -/
def b2n (b : Bool) : Nat := if b then 1 else 0

/-! ### Sorted association lists

Plain data for anything sparse: keys strictly rising, no entry equal to the value an unlisted key has. -/

/-- The value at key `k`, or `d` where nothing is listed. -/
def SMap.get {α : Type} (d : α) : List (Nat × α) → Nat → α
  | [], _ => d
  | (k', v) :: m, k => if k = k' then v else SMap.get d m k

/-- Insert or replace the entry at `k`, keeping the keys rising. -/
def SMap.insert {α : Type} : List (Nat × α) → Nat → α → List (Nat × α)
  | [], k, v => [(k, v)]
  | (k', v') :: m, k, v =>
    if k < k' then (k, v) :: (k', v') :: m
    else if k = k' then (k, v) :: m
    else (k', v') :: SMap.insert m k v

/-- Remove the entry at `k`, if one is listed. -/
def SMap.erase {α : Type} : List (Nat × α) → Nat → List (Nat × α)
  | [], _ => []
  | (k', v') :: m, k => if k = k' then SMap.erase m k else (k', v') :: SMap.erase m k

/-- Write `v` at `k`; writing what an unlisted key reads as removes the entry. -/
def SMap.put {α : Type} [DecidableEq α] (d : α) (m : List (Nat × α)) (k : Nat) (v : α) : List (Nat × α) :=
  if v = d then SMap.erase m k else SMap.insert m k v

/-- The keys of a map rise strictly from above `lo`, and no entry holds the default value. -/
def SMap.wfFrom {α : Type} [DecidableEq α] (d : α) : Option Nat → List (Nat × α) → Bool
  | _, [] => true
  | lo, (k, v) :: m =>
    (match lo with
      | none => true
      | some l => decide (l < k)) && decide (v ≠ d) && SMap.wfFrom d (some k) m

/-- The canonical form of a sorted association list. -/
def SMap.wf {α : Type} [DecidableEq α] (d : α) (m : List (Nat × α)) : Bool := SMap.wfFrom d none m

end Sys2Proof
end

