-- ==== Sys2Proof/Syntax.lean ====
section
/-! DEFINITION. The commands of the block: one constructor per row of spec/opcode_table.json, with the operands that come
from outside (a request's packet, a sensor's line, a link's packet, an upset, a pin). -/

namespace Sys2Proof

/-- The authentication trailer of a signed request (Table 15.2). -/
structure Trailer where
  keySlot : Nat
  reserved : Nat
  counter : Nat
  signature : List Byte
  deriving DecidableEq, Repr

/-- A host request as it arrives: its port and source, the header fields of Table 13.2 that the sender fills, the payload bytes
and the trailer. `dst` and `dstUdp` are the address and UDP port that it is sent to, `vlan` the VLAN of its frame, `pn` the MACsec
packet number of its frame (R393 to R395). `waits` says that firmware still serves an earlier request when it arrives (R402).
Addresses are IPv6 or IPv4-mapped ones. -/
structure Req where
  port : Nat
  addr : Nat
  udp : Nat
  reqId : Nat
  role : Nat
  flags : Nat
  status : Nat
  reserved15 : Nat
  epoch : Nat
  deadline : Nat
  reserved30 : Nat
  authLen : Nat
  trailer : Trailer
  payload : List Byte
  dst : Nat := 0
  dstUdp : Nat := 0xBAC2
  vlan : Option Nat := none
  pn : Nat := 0
  waits : Bool := false
  deriving DecidableEq, Repr

/-- An environment upset: symbol `symbol` (0 to 35) of the stored word at byte address `word` is changed by `flip`
(R233, R234). -/
structure Upset where
  word : Nat
  symbol : Nat
  flip : Byte
  deriving DecidableEq, Repr

/-- A master blocked on a slot tag (R254, Table 8.6). -/
inductive Waiter where
  | operand
  | drain
  | waitFull
  | stream (tile context : Nat)
  | reply
  | intake (context : Nat)
  | crosswind (port : Nat)
  deriving DecidableEq, Repr

/-- A CSI-2 packet header: receiver, virtual channel, data type, and the outcome of the header check: 0 good, 1 corrected,
2 uncorrectable (Tables 12.4, 12.7). -/
structure CsiHeader where
  receiver : Nat
  vc : Nat
  dt : Nat
  check : Nat
  deriving DecidableEq, Repr

/-- A CSI-2 long packet: its components in packet order, whether its CRC holds, and whether the receiver's buffer
overflowed, so that the rest of the line was lost (R370, R377, R378). -/
structure CsiLine where
  components : List Nat
  crcGood : Bool
  overflow : Bool
  deriving DecidableEq, Repr

/-- A frame on an Ethernet intake port (R379 to R382): `udp` is the destination port of a UDP datagram. -/
structure EthFrame where
  port : Nat
  destination : Nat
  multicast : Bool
  vlan : Option Nat
  etherType : Nat
  udp : Option Nat
  fragment : Bool
  goodChecks : Bool
  overflow : Bool
  bytes : Nat
  payload : List Byte
  deriving DecidableEq, Repr

/-- One word on a Crosswind link: its tag byte and 32 data bytes. -/
structure XwWord where
  tag : Byte
  data : List Byte
  deriving DecidableEq, Repr

/-- A Crosswind packet as it reaches the receiver (Table 14.3): what the FEC decoder found, the words as the receiver's cipher opens
them, and the GCM tag in its trailer. -/
structure XwPacket where
  port : Nat
  flags : Nat
  src : Nat
  dst : Nat
  jobNo : Nat
  link : Nat
  slot : Nat
  tile : Nat
  wordOffset : Nat
  count : Nat
  reserved : Nat
  seq : Nat
  groupEpoch : Nat
  words : List XwWord
  /-- Codewords that the receiver's decoder corrected (R428, Table 14.8). -/
  corrected : Nat
  /-- Codewords that it could not correct (Table 14.8). -/
  uncorrectable : Nat
  /-- Symbols that it corrected, by lane 0 to 4 (R433). -/
  symbols : List Nat := []
  /-- Bytes 0 to 15 of the trailer block (R430). -/
  tag : List Byte
  /-- TYPE where the header carries one of 6 to 255, which no command of the table has (Table 14.3). -/
  badType : Nat := 0
  deriving DecidableEq, Repr

/-- What a would-be lead learns of one expected member at formation (Table 14.4). -/
structure MemberReport where
  member : Nat
  reachable : Bool
  /-- FW_VERSION, the bundle digest and the configuration digest that it reports. -/
  firmware : List Byte
  bundles : List Byte
  groupEpoch : Nat
  config : List Byte
  offset : Int
  deriving DecidableEq, Repr

/-- Why a command-port frame is not a request (R393, R394, checks 1 to 4 of R400). -/
inductive BadPacket where
  | macsec | otherPort | vlan | ipFragment | magicOrLength
  /-- A KCP packet of another version, of no request type, or of a wrong payload length; with the TYPE byte it carries. -/
  | version (kind : Nat) | type (kind : Nat) | length (kind : Nat)
  deriving DecidableEq, Repr

/-- The commands: one constructor per row of the table, named as the row is. An operand with a default is what an event may bring
besides (a mismatch, words that were lost, pauses, reports); the default is the event that brings nothing more. -/
inductive Instr where
  /-- IDENTIFY (R404). -/
  | identify (r : Req)
  /-- PARAM_READ (R414). -/
  | paramRead (r : Req)
  /-- PARAM_WRITE (R414). -/
  | paramWrite (r : Req)
  /-- COUNTER_READ (R425). -/
  | counterRead (r : Req)
  /-- COUNTER_CLEAR (R515). -/
  | counterClear (r : Req)
  /-- JOB_SUBMIT (R406). -/
  | jobSubmit (r : Req) (suspends : Nat × Nat := (0, 0)) (dead : List Nat := [])
  /-- JOB_RUN (R409). -/
  | jobRun (r : Req)
  /-- JOB_ABORT (R147). -/
  | jobAbort (r : Req)
  /-- JOB_END (R407). -/
  | jobEnd (r : Req)
  /-- JOB_STATUS (R402). -/
  | jobStatus (r : Req)
  /-- SLOT_WRITE (R408). -/
  | slotWrite (r : Req)
  /-- SLOT_READ (R408). -/
  | slotRead (r : Req)
  /-- BUNDLE_BEGIN (R423). -/
  | bundleBegin (r : Req)
  /-- BUNDLE_DATA (R423). -/
  | bundleData (r : Req) (failing : List Nat)
  /-- BUNDLE_COMMIT (R460). -/
  | bundleCommit (r : Req)
  /-- BUNDLE_REMOVE (R413). -/
  | bundleRemove (r : Req)
  /-- BUNDLE_LIST (R460). -/
  | bundleList (r : Req)
  /-- PROTECT_READ (R462). -/
  | protectRead (r : Req)
  /-- PROTECT_WRITE (R463). -/
  | protectWrite (r : Req)
  /-- PROTECT_CLAIM (R467). -/
  | protectClaim (r : Req)
  /-- PROTECT_RELEASE (R467). -/
  | protectRelease (r : Req)
  /-- THAW_LIST (R471). -/
  | thawList (r : Req)
  /-- THAW (R471). -/
  | thaw (r : Req)
  /-- ATTEST_REPORT (R473). -/
  | attestReport (r : Req)
  /-- ATTEST_KEYS (R473). -/
  | attestKeys (r : Req)
  /-- JOURNAL_READ (R476). -/
  | journalRead (r : Req)
  /-- JOURNAL_TRIM (R476). -/
  | journalTrim (r : Req)
  /-- POWER_READ (R482). -/
  | powerRead (r : Req)
  /-- POWER_ENTER (R483). -/
  | powerEnter (r : Req)
  /-- POWER_RESET (R482). -/
  | powerReset (r : Req)
  /-- LEE_READ (R512). -/
  | leeRead (r : Req)
  /-- LEE_ENTER (R512). -/
  | leeEnter (r : Req)
  /-- LEE_LEAVE, with what the members report where the group forms again (R512). -/
  | leeLeave (r : Req) (found : List MemberReport := [])
  /-- GROUP_FORM (R437). -/
  | groupForm (r : Req) (found : List MemberReport)
  /-- GROUP_LEAVE (R437). -/
  | groupLeave (r : Req)
  /-- GROUP_STATUS (R437). -/
  | groupStatus (r : Req)
  /-- STREAM_ENABLE (R369). -/
  | streamEnable (context : Nat)
  /-- STREAM_DISABLE (R388). -/
  | streamDisable (context : Nat)
  /-- STREAM_FORCED_DISABLE (R388). -/
  | streamForcedDisable (context : Nat)
  /-- OPERATING_POINT_CHANGE (R493). -/
  | operatingPointChange
  /-- EPOCH_COMMIT (R413). -/
  | epochCommit
  /-- COMMIT_DEADLINE (R413). -/
  | commitDeadline
  /-- MKA_SA_REPLACE (R394). -/
  | mkaSaReplace (port : Nat)
  /-- PORT_FAILOVER (R396). -/
  | portFailover (port : Nat) (up : Bool)
  /-- PTP_SYNC (R398). -/
  | ptpSync (port time : Nat) (domain : Nat := 0)
  /-- PTP_PEER_DELAY (R397). -/
  | ptpPeerDelay (port delay : Nat)
  /-- PTP_HOLDOVER (R398). -/
  | ptpHoldover
  /-- PTP_UNSYNCHRONISED (R398). -/
  | ptpUnsynchronised
  /-- HOST_XFER_TIMEOUT (R408). -/
  | hostXferTimeout (jobNo handle tile slot : Nat)
  /-- BUNDLE_IDLE_TIMEOUT (R423). -/
  | bundleIdleTimeout (bundleNo : Nat)
  /-- RESULT_SEND (R410). -/
  | resultSend
  /-- RUN_DISPATCH (R418). -/
  | runDispatch
  /-- QUANTUM_EXPIRY (R418). -/
  | quantumExpiry
  /-- PREEMPTION_STOP (R96). -/
  | preemptionStop
  /-- CLASS_SWITCH_COMPLETE (R144). -/
  | classSwitchComplete
  /-- SAVED_SUMS_LOADED (R97). -/
  | savedSumsLoaded
  /-- ABORT_EFFECT (R147). -/
  | abortEffect
  /-- OP_END (R117). -/
  | opEnd
  /-- OP_NOP (R133). -/
  | opNop
  /-- OP_WAIT_FULL (R133). -/
  | opWaitFull
  /-- OP_SIGNAL (R133). -/
  | opSignal
  /-- OP_REPLY (R134). -/
  | opReply
  /-- OP_MATMUL (R150). -/
  | opMatmul
  /-- OP_CONV2D (R123). -/
  | opConv2d
  /-- OP_CONV1D (R178). -/
  | opConv1d
  /-- OP_CONV_GROUPED (R195). -/
  | opConvGrouped
  /-- OP_CONV_DW (R195). -/
  | opConvDw
  /-- OP_POOL_MAX (R202). -/
  | opPoolMax
  /-- OP_POOL_AVG (R202). -/
  | opPoolAvg
  /-- OP_UPSAMPLE_NEAREST (R205). -/
  | opUpsampleNearest
  /-- OP_UPSAMPLE_BILINEAR (R206). -/
  | opUpsampleBilinear
  /-- OP_CROP_RESIZE (R207). -/
  | opCropResize
  /-- OP_ARGMAX_CHAN (R209). -/
  | opArgmaxChan
  /-- OP_SPACE_TO_CHAN (R197). -/
  | opSpaceToChan
  /-- OP_GATHER (R166). -/
  | opGather
  /-- OP_SCATTER (R167). -/
  | opScatter
  /-- OP_ELEMENTWISE (R162). -/
  | opElementwise
  /-- OP_ADAPT_UPDATE (R174). -/
  | opAdaptUpdate
  /-- GROUP_BOUNDARY (R78). -/
  | groupBoundary (upsets : List Upset) (parity : Option Nat)
  /-- STEP_BOUNDARY (R90). -/
  | stepBoundary
  /-- PASS_END (R94). -/
  | passEnd (parity : Option Nat)
  /-- DRAIN_SLOT_FULL (R130). -/
  | drainSlotFull (slot : Nat) (second : Bool) (parity : Option Nat := none)
  /-- DRAIN_COMPLETE (R94). -/
  | drainComplete (parity : Option Nat := none)
  /-- COMMAND_COMPLETE (R131). -/
  | commandComplete (index : Nat)
  /-- BLOCKED_ACCESS_GRANTED (R254). -/
  | blockedAccessGranted (who : Waiter)
  /-- STALL_LIMIT_EXCEEDED (R262). -/
  | stallLimitExceeded (who : Waiter)
  /-- CORRECTION_WINDOW (R100). -/
  | correctionWindow
  /-- GLOBAL_HOLD_END (R101). -/
  | globalHoldEnd
  /-- HOLD_ALARM_INTERVAL (R104). -/
  | holdAlarmInterval
  /-- HOLD_ALARM_WINDOW (R501). -/
  | holdAlarmWindow
  /-- CORRECTION_WRITE_BACK (R245). -/
  | correctionWriteBack (word : Nat)
  /-- STORE_SCRUB_ACCESS (R247). -/
  | storeScrubAccess (store : Nat) (upsets : List Upset)
  /-- PACKING_FAULT (R329). -/
  | packingFault
  /-- BLOCK_LIST_FETCH (R280). -/
  | blockListFetch (tile context : Nat)
  /-- TRANSFER_ISSUE (R298). -/
  | transferIssue (tile : Nat)
  /-- TRANSFER_DELIVERED (R289). -/
  | transferDelivered (tile tag : Nat) (upsets : List Upset)
  /-- GOVERNOR_WINDOW (R294). -/
  | governorWindow
  /-- PAGE_IN_START (R357). -/
  | pageInStart (stack : Nat)
  /-- PAGE_IN_COMPLETE (R356). -/
  | pageInComplete (stack : Nat) (upsets : List Upset) (channelDead : Bool) (suspends : Nat := 0) (others : Nat := 0)
  /-- HBM_CORRECTION_WRITE_BACK (R338). -/
  | hbmCorrectionWriteBack (word : Nat)
  /-- HBM_PATROL_SCRUB (R339). -/
  | hbmPatrolScrub (upsets : List Upset)
  /-- PER_BANK_REFRESH (R345). -/
  | perBankRefresh (pseudoChannel bank : Nat)
  /-- REFRESH_DEADLINE (R346). -/
  | refreshDeadline (pseudoChannel bank : Nat)
  /-- ROW_CLOSE_TIMEOUT (R343). -/
  | rowCloseTimeout (pseudoChannel bank : Nat)
  /-- CA_PARITY_ALERT (R344). -/
  | caParityAlert (pseudoChannel : Nat) (good : Bool) (succeeds : Bool := true)
  /-- HBM_RETRAINING (R347). -/
  | hbmRetraining (pseudoChannel : Nat) (succeeds : Bool)
  /-- FORCED_RETRAINING (R347). -/
  | forcedRetraining (pseudoChannel : Nat) (succeeds : Bool)
  /-- ROW_REPAIR (R348). -/
  | rowRepair (pseudoChannel bank row : Nat)
  /-- FLASH_PATROL (R362). -/
  | flashPatrol (unit : Nat) (upsets : List Upset) (suspends : Nat := 0)
  /-- FLASH_BLOCK_REFRESH (R362). -/
  | flashBlockRefresh (channel block : Nat) (suspends : Nat := 0)
  /-- FLASH_BLOCK_ERASE (R361). -/
  | flashBlockErase (channel block : Nat) (succeeds : Bool)
  /-- BANK_SUBSTITUTION (R272). -/
  | bankSubstitution (store bank : Nat)
  /-- TILE_SUBSTITUTION (R107). -/
  | tileSubstitution (physical : Nat)
  /-- STORE_COPY_COMPLETE (R541). -/
  | storeCopyComplete (lost : List Nat := [])
  /-- TILE_FREEZE (R469). -/
  | tileFreeze (tile : Nat)
  /-- PLANE_TEST (R500). -/
  | planeTest (failing : List (Nat × Nat × Nat))
  /-- CSI2_FRAME_START (R369). -/
  | csi2FrameStart (h : CsiHeader)
  /-- CSI2_LONG_PACKET (R370). -/
  | csi2LongPacket (h : CsiHeader) (p : CsiLine)
  /-- CSI2_FRAME_END (R371). -/
  | csi2FrameEnd (h : CsiHeader)
  /-- INTAKE_FRAME_TIMEOUT (R378). -/
  | intakeFrameTimeout (context : Nat)
  /-- ETH_INTAKE_FRAME (R380). -/
  | ethIntakeFrame (f : EthFrame)
  /-- TDM_FRAME (R384). -/
  | tdmFrame (port bitCount : Nat) (samples : List Nat)
  /-- RELAY_COPY (R387). -/
  | relayCopy (context : Nat)
  /-- DISABLE_TIMEOUT (R388). -/
  | disableTimeout (context : Nat)
  /-- XW_WORDS_PACKET (R441). -/
  | xwWordsPacket (p : XwPacket)
  /-- XW_ZERO_MASK_PACKET (R430). -/
  | xwZeroMaskPacket (p : XwPacket)
  /-- XW_REDUCE_PACKET (R444). -/
  | xwReducePacket (p : XwPacket)
  /-- XW_RUN_START (R443). -/
  | xwRunStart (p : XwPacket)
  /-- XW_RUN_END (R442). -/
  | xwRunEnd (p : XwPacket)
  /-- XW_CONFIG_RELAY (R438). -/
  | xwConfigRelay (p : XwPacket)
  /-- XW_ACKNOWLEDGE (R431). -/
  | xwAcknowledge (port seq : Nat)
  /-- XW_REPLAY_REQUEST (R431). -/
  | xwReplayRequest (port seq : Nat)
  /-- XW_CREDIT (R441). -/
  | xwCredit (port jobNo link slot tile : Nat)
  /-- XW_REFUSAL (R442). -/
  | xwRefusal (port seq status : Nat)
  /-- XW_TIME_PROBE (R439). -/
  | xwTimeProbe (port probe sent peerReceived received : Nat)
  /-- XW_HEARTBEAT (R429), with the members to which the links of its sender are up (R435). -/
  | xwHeartbeat (port member groupEpoch memberState : Nat) (reaches : List Nat := [0, 1, 2, 3])
  /-- XW_ALIGNMENT (R428), with the port that it names. -/
  | xwAlignment (port lane count : Nat) (named : Nat := 0)
  /-- XW_RESERVED_BLOCK (R429). -/
  | xwReservedBlock (port kind : Nat)
  /-- XW_PACKET_SEND (R441). -/
  | xwPacketSend (port : Nat)
  /-- XW_HEARTBEAT_SEND (R429). -/
  | xwHeartbeatSend
  /-- XW_TIME_PROBE_SEND (R439). -/
  | xwTimeProbeSend (port : Nat)
  /-- XW_LANE_SWAP: the corrected symbols of a lane in one second, or its loss of lock, which is the default (R433). -/
  | xwLaneSwap (port lane : Nat) (errors : Nat := 0) (lostLock : Bool := true)
  /-- XW_PORT_SWAP (R434). -/
  | xwPortSwap (port : Nat)
  /-- XW_MEMBER_LOST (R445). -/
  | xwMemberLost (member : Nat)
  /-- XW_LINK_UP (R455). -/
  | xwLinkUp (port : Nat) (mine peer : List Byte) (peerMember peerPort : Nat)
  /-- XW_REKEY (R455). -/
  | xwRekey (port : Nat) (mine peer : List Byte) (peerMember peerPort : Nat)
  /-- IDLE_ENTRY (R480). -/
  | idleEntry
  /-- ENTRY_DRAIN_TIMEOUT (R483). -/
  | entryDrainTimeout
  /-- POWER_STATE_REACHED (R483). -/
  | powerStateReached
  /-- AON_WAKE (R485). -/
  | aonWake (activeInWindow : Bool) (high : Bool := true)
  /-- ENERGY_DETECT (R485). -/
  | energyDetect (port : Nat)
  /-- WAKE_TIMER (R485). -/
  | wakeTimer
  /-- AON_PWR_GOOD_RISE (R488). -/
  | aonPwrGoodRise
  /-- AON_PWR_GOOD_FALL (R529). -/
  | aonPwrGoodFall
  /-- BOOT_VERIFICATION (R456). -/
  | bootVerification (okA okB : Bool)
  /-- HBM_TRAINING_COMPLETE (R347). -/
  | hbmTrainingComplete (failed : List Nat)
  /-- PAD_HOLD_RELEASE (R492). -/
  | padHoldRelease
  /-- COMMANDS_ACCEPTED (R489). -/
  | commandsAccepted (monitorInRange : Bool) (found : List MemberReport) (cells : List (Nat × Nat × Nat) := [])
  /-- POWER_ON (R495). -/
  | powerOn
  /-- SYS_RESET_N (R495). -/
  | sysResetN
  /-- WATCHDOG_RESET (R495). -/
  | watchdogReset
  /-- SAFETY_CORE_RESET (R495). -/
  | safetyCoreReset
  /-- BOOT_ACCEPTANCE_TIMEOUT (R458). -/
  | bootAcceptanceTimeout
  /-- REFERENCE_LOSS (R495). -/
  | referenceLoss
  /-- OPERATING_POINT_SWITCH (R493). -/
  | operatingPointSwitch (avsFailures : Nat)
  /-- THROTTLE_STEP_DOWN (R494). -/
  | throttleStepDown (tj : Int)
  /-- THROTTLE_STEP_UP (R494). -/
  | throttleStepUp (tj : Int)
  /-- THERM_ALERT (R537). -/
  | thermAlert (tj : Int)
  /-- COOLANT_LOSS (R536). -/
  | coolantLoss
  /-- OVER_TEMPERATURE_LEE (R506). -/
  | overTemperatureLee (tj : Int) (fastRise : Bool)
  /-- SAFETY_MONITOR_LEE (R506). -/
  | safetyMonitorLee
  /-- LEE_CAUSE_CLEAR, with what the members report where the group forms again (R506, R512). -/
  | leeCauseClear (causeBit : Nat) (found : List MemberReport := [])
  /-- TILE_SELF_TEST_COMPLETE, with what the members report where the group forms again (R469, R512). -/
  | tileSelfTestComplete (physical : Nat) (passes : Bool) (found : List MemberReport := [])
  /-- SYS_RESET_N_RELEASE (R495). -/
  | sysResetNRelease
  /-- REF_CLK_RETURN (R495). -/
  | refClkReturn
  /-- HBM_STACK_NOT_RESPONDING (R348). -/
  | hbmStackNotResponding (stack : Nat)
  /-- ADDRESS_RESOLUTION_REQUEST (R393). -/
  | addressResolutionRequest (port : Nat) (v6 : Bool) (target sender : Nat)
  /-- ICMP_ECHO_REQUEST (R393). -/
  | icmpEchoRequest (port : Nat) (target sender : Nat) (body : List Byte)
  /-- UNRECOGNISED_PACKET (R400). -/
  | unrecognisedPacket (port : Nat) (why : BadPacket) (r : Req)
  /-- MKA_SECURE_ASSOCIATION (R394). -/
  | mkaSecureAssociation (port : Nat)
  /-- VDD_AON_LOSS (R526). -/
  | vddAonLoss
  deriving DecidableEq, Repr

end Sys2Proof
end

