-- ==== Sys2Proof/Config.lean ====
section
/-! DEFINITION. What an implementation fixes and the spec leaves open: constants with no body, of which nothing can be
proved. Each is named in the assumption log. -/

namespace Sys2Proof

/-- The `n`-th free value: what the spec leaves undefined where the device goes on (log entry 3). -/
opaque Config.free : Nat → Nat

/-- The device's own result for function `code` of Table 5.2 at a binary32 input; the model keeps it only where it lies
within the error bound the spec states (log entry 4). -/
opaque Config.approx : Nat → F32 → F32

/-- SHA-512 (FIPS 180-4, an external standard the spec names; log entry 5). -/
opaque Config.sha512 : List Byte → List Byte

/-- AES-256 encryption and decryption of a 16-byte block under a 32-byte key (FIPS 197, which IEEE 1619 rests on; R351; log
entry 17). -/
opaque Config.aesEncrypt : List Byte → List Byte → List Byte
opaque Config.aesDecrypt : List Byte → List Byte → List Byte

/-- The device's 64-byte flash key: the data key, then the tweak key (R351; log entry 17). -/
opaque Config.flashKey : List Byte

/-- Ed25519 verification under RFC 8032: key, message, signature (R449, R460; log entry 5). -/
opaque Config.edVerify : List Byte → List Byte → List Byte → Bool

/-- ML-DSA-65 verification under FIPS 204: key, message, signature (R460; log entry 5). -/
opaque Config.mldsaVerify : List Byte → List Byte → List Byte → Bool

/-- Ed25519 signature by the device's attestation key (R473; log entry 5). -/
opaque Config.attestEd : List Byte → List Byte

/-- ML-DSA-65 signature by the device's attestation key (R473; log entry 5). -/
opaque Config.attestMldsa : List Byte → List Byte

/-- The 1,984 bytes of the two attestation public keys (R473; log entry 6). -/
opaque Config.attestKeys : List Byte

/-- Walyx's device-identity signatures over the attestation keys, Ed25519 then ML-DSA-65 (R473; log entry 6). -/
opaque Config.attestKeySigs : List Byte

/-- The die serial number, 16 bytes (Table 13.4; log entry 6). -/
opaque Config.dieSerial : List Byte

/-- Release, patch and build bytes of the firmware in a boot slot (Table 13.4; log entry 6). -/
opaque Config.fwVersion : Nat → Nat

/-- The SHA-512 of the Walyx ML-DSA-65 firmware key, held in the boot ROM (R456; log entry 6). -/
opaque Config.romMldsaHash : List Byte

/-- The Walyx Ed25519 firmware key whose hash the boot ROM holds (R456; log entry 6). -/
opaque Config.romEdKey : List Byte

/-- The tag FORMAT of the flash word at an aperture word address, which the spec does not say a bundle carries
(R312, R351; log entry 7). -/
opaque Config.flashFormat : Nat → Nat

/-- Row repairs that a bank of the HBM stacks is built with (HBM_PPR_LEFT, loaded; log entry 6). -/
opaque Config.repairsPerBank : Nat

end Sys2Proof
end

