-- ==== Sys2Proof/Machine/State.lean ====
section
/-! DEFINITION. The state of the block as plain data, and the machine right after reset. A field's docstring names it, the
rule of spec/ that gives it, and its reset value. -/

namespace Sys2Proof.Machine

/-- A fault of the model. No meaning ends in one: the spec names a status for everything a command can meet, and that status
is part of the next state. -/
inductive Fault where
  deriving DecidableEq, Repr

/-- A refusal of the model: the arms of exec raise `notModelled` for a command without a meaning yet. Safe: nothing can be
proved of a run through it. -/
inductive Refusal where
  | notModelled (mnemonic : String)
  deriving DecidableEq, Repr

/-- The memories: HBM, weight flash aperture, tile stores and common store in the one device address map. -/
structure Mem where
  /-- Data bytes: by device address, 8 bits each (01 R29; 08 R231, R232; 11 R335, R349). Reset: 0 in the stores (16 R486); DESIGN
  CHOICE 0 in HBM and flash (log 8). -/
  bytes : List Host.Cell
  /-- Tag bytes: by word index, 8 bits (08 R233, Table 8.1; 11 R337, R351). Reset: 0 (16 R486); DESIGN CHOICE 0 in HBM and flash
  (log 8). -/
  wtags : List Host.Cell
  /-- Symbol errors of stored words: by 36 × word + symbol, the error of the symbol (08 R233, R234). Reset: 0, no error. -/
  flaws : List Host.Cell
  deriving DecidableEq, Repr

/-- One write into a memory: a byte, a tag byte or a symbol error. -/
inductive Wr where
  | data (addr : Nat) (b : Byte)
  | tag (word : Nat) (b : Byte)
  | flaw (key : Nat) (b : Byte)
  deriving DecidableEq, Repr

/-- A handle entry (Table 8.5). -/
structure Handle where
  place : Nat
  gale : Bool
  producer : Nat
  write : Bool
  home : Nat
  base : Nat
  slotBytes : Nat
  slotCount : Nat
  tagBase : Nat
  deriving DecidableEq, Repr

/-- A page table entry (Table 11.2). -/
structure Page where
  va : Nat
  big : Bool
  flash : Bool
  resident : Bool
  write : Bool
  pin : Bool
  frame : Nat
  flashAddr : Nat
  deriving DecidableEq, Repr

/-- A destination of packets: port, address, UDP port. -/
structure Peer where
  port : Nat
  addr : Nat
  udp : Nat
  deriving DecidableEq, Repr

/-- A run of a job (R409, R410). -/
structure Run where
  seq : Nat
  requester : Peer
  startEpoch : Nat
  triggerTime : Nat
  readyAt : Nat
  deriving DecidableEq, Repr

/-- Running sums, drained values or saved sums: by (tile × 256 + row) × 512 + lane. -/
abbrev Sums := List (Nat × F32)

/-- A drain in progress (R94, R97, R130): the job and record it belongs to, its pass, its values, whether it writes the save
area. -/
structure Drain where
  job : Nat
  idx : Nat
  pass : Nat
  vals : Sums
  toSave : Bool
  /-- Knots of the command's activation table, by tile, as its prologue loaded them (05 R158). -/
  table : List (Nat × List F32)
  /-- Bytes that the stream engine of each tile has been granted for it, HBM then NoC: by tile × 2 + budget (05 R168). -/
  paid : List (Nat × Nat)
  /-- Slot tags that the drain has set full so far, and the writes that would take back what it wrote (R108, R148). -/
  filled : List Nat
  /-- List positions of OP_SCATTER, or rows of each part of OP_ADAPT_UPDATE, that it has written (R130, R167, R174). -/
  rows : Nat
  undo : List Wr
  deriving DecidableEq, Repr

/-- Where a job's list stands (R117, R145). `phase`: 0 the command at `pc` has not begun; 1 it runs; 2 its row pairs are
done, and the next has not begun. -/
structure Exec where
  /-- Record index of the command that runs or begins next. -/
  pc : Nat
  phase : Nat
  pass : Nat
  step : Nat
  grp : Nat
  sums : Sums
  /-- Saved sums of a stopped pass (R97): empty when none. -/
  saved : Sums
  /-- Saved sums: 0 none, 1 in the save area or loading, 2 loaded into the drain registers (R97, R145). -/
  savedState : Nat
  /-- Sums cut off by an abandonment in a drain wait, to be drained first at the resume (R143, R145). -/
  cut : Option Drain
  /-- Commands begun and not complete (R131). -/
  incomplete : List Nat
  /-- By handle: the record index of the most recent command that wrote through it (R410). -/
  writers : List (Nat × Nat)
  /-- Slots of the running commands read so far: (index, handle, slot) (R131). -/
  readSlots : List (Nat × Nat × Nat)
  /-- Blocks decoded void in the present pass and counted (R327). -/
  blocks : List Nat
  /-- The window caches of the pass: what was decoded of its input band, by decoding tile and byte offset: the elements, and whether
  they are void (06 R190). -/
  band : List (Nat × List Byte × Bool)
  /-- Knots of the running command's activation table, by tile (R158). -/
  table : List (Nat × List F32)
  /-- The list was stopped after the row pairs of the command at `pc` (R135). -/
  stopped : Bool
  deriving DecidableEq, Repr

/-- A saved stream position (R300, R302): the stream's record and where it stands. -/
structure StreamPos where
  record : Nat
  block : Nat
  part : Nat
  slot : Nat
  slotWord : Nat
  slotFirst : Nat
  /-- Slots that the slot side has moved past (R281, R282). -/
  visit : Nat
  halted : Bool
  /-- The block that was to be issued again when the stream halted (R301, R303). -/
  again : Option Nat
  /-- Control-domain time at which the stream moved past a slot, by slot, ns (R297). -/
  past : List (Nat × Nat)
  deriving DecidableEq, Repr

/-- An admitted job (R405 to R409). -/
structure Job where
  no : Nat
  bundle : Nat
  index : Nat
  cls : Nat
  mode : Nat
  trigger : Nat
  submitter : Peer
  cmds : List Nat
  streams : List Nat
  pages : List Page
  handles : List (Nat × Handle)
  windows : List Nat
  /-- Device addresses of block lists and descriptors, read-only for the life of the job (R280): (first, last). -/
  lists : List (Nat × Nat)
  running : Option Run
  waiting : Option Run
  runSeq : Nat
  lastStatus : Nat
  lastList : Nat
  lastIndex : Nat
  lastTag : Nat
  exec : Exec
  /-- Saved positions of its streams, and streams that wait for a free context (R275, R300, R302). -/
  saved : List StreamPos
  /-- Time of the last access or step that a master of its run made, ns (R306). -/
  moved : Nat
  /-- Plane time of the present quantum, ns (R418). -/
  quantumUsed : Nat
  /-- Ended, with an object still frozen in it (R470). -/
  ended : Bool
  /-- A JOB_END waits for the running run (R407). -/
  endReq : Option Req
  /-- A JOB_ABORT waits for its point (R147). -/
  abortReq : Option Req
  /-- Status of an end that takes effect at the next run boundary (R461, R465), 0 for none. -/
  endAtRun : Nat
  /-- Link entries of a group job, as 128-bit numbers (R440). -/
  links : List Nat
  /-- Words of the source scale plane's slot of each link, 0 for none (R440, R444). -/
  linkScales : List Nat
  /-- This member has a part in the job (14 Table 14.5). -/
  part : Bool := true
  /-- The JOB_SUBMIT that waits for the other members to admit the group job, and the members it waits for (14 R440). -/
  admitReq : Option Req := none
  admitLeft : List Nat := []
  deriving DecidableEq, Repr

/-- A stream context in use (R275). -/
structure Ctx where
  tile : Nat
  ctx : Nat
  job : Nat
  pos : StreamPos
  /-- Halo blocks to issue again at a resume (R303). -/
  refetch : List Nat
  /-- Block entries fetched ahead, counted from the list's start (R280). -/
  fetched : Nat
  /-- Blocked on a slot tag since this time, µs of the control domain (R261, R283). -/
  blocked : Option Nat
  /-- Flash pages that it halted on and has not left: (flash address, 2 MiB) (R301). -/
  kept : List (Nat × Bool)
  deriving DecidableEq, Repr

/-- A transfer in flight (R289). -/
structure Xfer where
  tile : Nat
  tag : Nat
  ctx : Nat
  job : Nat
  record : Nat
  src : Nat
  dst : Nat
  words : Nat
  /-- Slot of the slot side, and how many slots the stream had moved past; for a list read, the entries read so far. -/
  slot : Nat
  visit : Nat
  hbm : Bool
  listRead : Bool
  /-- Control-domain time of its issue, ns (R342). -/
  issued : Nat
  deriving DecidableEq, Repr

/-- A class switch in progress (R144): the incoming job. -/
structure Switch where
  job : Nat
  deriving DecidableEq, Repr

/-- A decode fault held until the cells need the block (R329, R330). -/
structure HeldFault where
  tile : Nat
  weight : Bool
  handle : Nat
  offset : Nat
  status : Nat
  /-- Row pair of its group that needs the block first. -/
  pair : Nat
  deriving DecidableEq, Repr

/-- The Plane (03, 04). -/
structure Plane where
  /-- Job that holds the Plane (04 R117; 13 R418). Reset: none. -/
  holder : Option Nat
  /-- Class switch in progress: incoming job (04 R144). Reset: none. -/
  switch : Option Switch
  /-- Drain in progress: drain registers, 32 bits per output, each with a parity bit (03 R78, R80, R94). Reset: none. -/
  drain : Option Drain
  /-- Stop request of the running list (04 R143). Reset: no. -/
  stopReq : Bool
  /-- Operand wait: since this time, µs (03 R95; 08 R261). Reset: none. -/
  operandWait : Option Nat
  /-- Drain wait: since this time, µs (03 R94). Reset: none. -/
  drainWait : Option Nat
  /-- A pass waits after its last row pair, for the drain before it or for the load of its saved sums (03 R94; 04 R145). Reset: no. -/
  passWait : Bool
  /-- A pass has just ended: its sums have moved to the drain registers, and the Plane has not gone on since (03 R97). Reset: no. -/
  atPassEnd : Bool
  /-- Job whose handle entries and stage chain are loaded (04 R144; 13 R418). Reset: none. -/
  last : Option Nat
  /-- OP_WAIT_FULL wait: since this time, µs (04 R133). Reset: none. -/
  waitFull : Option Nat
  /-- Decode faults held for the cells, one per tile and operand (10 R330). Reset: none. -/
  heldFaults : List HeldFault
  /-- Corrections of each logical tile in the present correction window (03 R100): by tile, a count. Reset: 0. -/
  windowCorr : List (Nat × Nat)
  /-- Global holds raised and not ended, the running one included (03 R101). Reset: 0. -/
  holds : Nat
  /-- Holds of the present 1 ms interval of the control domain (03 R104). Reset: 0. -/
  intervalHolds : Nat
  /-- The present 1 ms interval has signalled the safety core (03 R104). Reset: no. -/
  signalled : Bool
  /-- Hold signals of the present one-second window (17 R501). Reset: 0. -/
  windowSignals : Nat
  /-- Excess corrections of each logical tile in the present one-second window (17 R501). Reset: 0. -/
  windowExcess : List (Nat × Nat)
  /-- Physical tile and time, ns, of each KS_PLANE_FAULT of the last 24 hours (17 Table 17.1). Reset: none. -/
  parityTiles : List (Nat × Nat)
  /-- Physical tiles due for retirement, waiting for the Plane to be between commands (03 R106, R107). Reset: none. -/
  retireDue : List Nat
  /-- Store copy of a substitution in progress: logical tile (03 R541). Reset: none. -/
  copying : Option Nat
  /-- Time at which the copy began, µs (03 R541). Reset: 0. -/
  copySince : Nat
  /-- Device time of the last passing Plane test (17 R500). Reset: 0 (no test has passed; DEDUCED from Table 17.3). -/
  lastTest : Nat
  /-- ns of Plane time used in the last 10 ms window, for kept runs in Lee mode (17 R509): busy ns entries (time, length). Reset:
  none. -/
  busyLog : List (Nat × Nat)
  deriving DecidableEq, Repr

/-- A physical tile (03 R75, R105, R107; 08 R231, R272). -/
structure Tile where
  /-- Logical number of the tile: 4 bits, or none (03 R107). Reset: p for p = 0 to 15, none for 16 and 17 (R107, before any
  substitution). -/
  logical : Option Nat
  /-- RETIRED (03 Table 3.7). Reset: 0. -/
  retired : Bool
  /-- Frozen under R469 (15 R469). Reset: no. -/
  frozen : Bool
  /-- A self-test after a thaw is running (15 R469). Reset: no. -/
  testing : Bool
  /-- RET_ROW0, RET_ROW1: retired built rows, 9 bits each (03 Table 3.7). Reset: none. -/
  retRows : List Nat
  /-- RET_COL0, RET_COL1: retired built columns, 9 bits each (03 Table 3.7). Reset: none. -/
  retCols : List Nat
  /-- RET_BANK0, RET_BANK1: retired built banks, 7 bits each (08 Table 8.9). Reset: none. -/
  retBanks : List Nat
  /-- It passed its self-test before a spare took its logical number, and becomes a spare when one does (15 R469). Reset: no. -/
  passed : Bool := false
  deriving DecidableEq, Repr

/-- One HBM bank's row state (11 R343, R346). -/
structure Bank where
  /-- Open row, 14 bits, or none (11 R343). Reset: none. -/
  openRow : Option Nat
  /-- Row last accessed, for the predictor's update (11 R343). Reset: none. -/
  lastRow : Option Nat
  /-- The last decision kept the row open (11 R343). Reset: no. -/
  keptOpen : Bool
  /-- Page predictor P, 2 bits (11 R343). Reset: 1. -/
  pred : Nat
  /-- A postponed refresh is due (11 R346). Reset: no. -/
  postponed : Bool
  deriving DecidableEq, Repr

/-- A resident flash page (11 R355). -/
structure Resident where
  flashAddr : Nat
  big : Bool
  frame : Nat
  lastRequest : Nat
  deriving DecidableEq, Repr

/-- A queued page-in (11 R357). -/
structure PageIn where
  flashAddr : Nat
  big : Bool
  cls : Nat
  order : Nat
  /-- Its latest request, in the same count: the first one, or one that joined it (R301, R358). -/
  asked : Nat
  /-- Frame chosen once the page-in has started. -/
  frame : Option Nat
  deriving DecidableEq, Repr

/-- An installed bundle (13 R423; 15 R459, R460). -/
structure Bundle where
  no : Nat
  kind : Nat
  size : Nat
  digest : List Byte
  base : Nat
  signer : Nat
  damaged : Bool
  deriving DecidableEq, Repr

/-- A bundle transfer (13 R423). -/
structure BundleXfer where
  no : Nat
  kind : Nat
  size : Nat
  digest : List Byte
  base : Nat
  received : Nat
  data : List Byte
  staged : Bool
  /-- Key slot of the signer and SVN of the header, once verified. -/
  signer : Nat
  svn : Nat
  /-- Control-domain time of the last request of the transfer, ns (13 R423). -/
  at' : Nat
  deriving DecidableEq, Repr

/-- HBM and weight flash (11). -/
structure Store where
  /-- HBM banks: by pseudo-channel × 48 + bank (11 R335, R343). Reset: no open row, P = 1. -/
  banks : List (Nat × Bank)
  /-- Next bank of each pseudo-channel's refresh rotation (11 R345). Reset: DESIGN CHOICE 0 (log 9). -/
  refreshNext : List (Nat × Nat)
  /-- Corrected reads of a row in the last 24 hours: (pc × 48 + bank) × 16384 + row, and the time of each, ns (11 R348). Reset:
  none. -/
  rowCorr : List (Nat × Nat)
  /-- Rows due for repair, same key (11 R348). Reset: none. -/
  repairDue : List Nat
  /-- Soft repairs applied, same key (11 R348). Reset: none. -/
  softRepairs : List Nat
  /-- Hard repairs used in a bank: by pc × 48 + bank (11 R348). Reset: 0. -/
  repairsUsed : List (Nat × Nat)
  /-- Retired 64 KiB frames: frame numbers (11 R348). Reset: none. -/
  retiredFrames : List Nat
  /-- Pseudo-channels that failed (11 R348). Reset: none. -/
  failed : List Nat
  /-- Alerts in a row on a pseudo-channel: by pc (11 R344). Reset: 0. -/
  alerts : List (Nat × Nat)
  /-- HBM patrol scrubber position, word index (11 R339). Reset: DESIGN CHOICE 0 (log 9). -/
  hbmScrub : Nat
  /-- Store scrubber positions, word index: by store 0 to 16 (08 R247). Reset: DESIGN CHOICE 0 (log 9). -/
  storeScrub : List (Nat × Nat)
  /-- Corrected or poisoned words awaiting write-back: word indices (08 R245, R246; 11 R338). Reset: none. -/
  writeBacks : List Nat
  /-- Corrected words of a bank in the last 24 hours: store × 128 + bank, and the time of each, ns (17 R501). Reset: none. -/
  bankCorr : List (Nat × Nat)
  /-- Words of a bank read uncorrectable in the last 24 hours: (store × 128 + bank, word, time in ns) (17 R501). Reset: none. -/
  bankUncorr : List (Nat × Nat × Nat)
  /-- Banks due for substitution: store × 128 + in-service bank (17 R501). Reset: none. -/
  bankDue : List Nat
  /-- RET_BANK0 of the common store, 6 bits (08 Table 8.9). Reset: none. -/
  cstRetBank : Option Nat
  /-- Allocated HBM frames: (address, size in bytes) (11 R354). Reset: none. -/
  frames : List (Nat × Nat)
  /-- Resident flash pages (11 R355). Reset: none. -/
  residents : List Resident
  /-- Page-in queues (11 R357). Reset: none. -/
  pageIns : List PageIn
  /-- Requests made so far, for the order of the page-in queue and of eviction (11 R357, R358). Reset: 0. -/
  requests : Nat
  /-- Installed bundles (13 R423). Reset: none. -/
  bundles : List Bundle
  /-- Bundle transfers (13 R423). Reset: none. -/
  transfers : List BundleXfer
  /-- Next BUNDLE_NO. Reset: DESIGN CHOICE 1 (log 9). -/
  nextBundle : Nat
  /-- Ranges of removed bundles whose blocks are not all erased: (aperture address, bytes) (11 R361). Reset: none. -/
  removed : List (Nat × Nat)
  /-- Erase blocks to erase in the background: channel × 4096 + block (11 R361). Reset: none. -/
  toErase : List Nat
  /-- Erase blocks of installs that left no trace, which return to erasure at the next wake: same key (11 R361). Reset: none. -/
  eraseAtWake : List Nat
  /-- Retired erase blocks: same key (11 R363). Reset: none. -/
  badBlocks : List Nat
  /-- Erase counts: by channel × 4096 + block, 32 data channels then 2 parity channels (11 R362). Reset: 0. -/
  wear : List (Nat × Nat)
  /-- Reads since program: same key (11 R362). Reset: 0. -/
  blockReads : List (Nat × Nat)
  /-- Map of a channel's place to its erase block: by channel × 4096 + place (11 R349). Reset: place p in block p. -/
  blockMap : List (Nat × Nat)
  /-- Refresh candidates: channel × 4096 + block (11 R362). Reset: none. -/
  refreshDue : List Nat
  /-- Retired erase blocks of a channel: by channel (11 R363). Reset: 0. -/
  blocksRetired : List (Nat × Nat)
  /-- Spare erase blocks used: by channel (11 R350, R363). Reset: 0. -/
  sparesUsed : List (Nat × Nat)
  deriving DecidableEq, Repr

/-- A frame or block that has ended and whose writes wait for its slot, which another master has set full (R371, R390): the
slot, its stamp fields, the time in µs since which it waits, and its writes as `Intake.parked` lists them. -/
structure Frame where
  slot : Nat
  tStart : Nat
  tEnd : Nat
  seq : Nat
  length : Nat
  dropped : Nat
  short : Bool
  long : Bool
  err : Bool
  since : Nat
  parked : List (Nat × List Byte × Nat × Bool)
  deriving DecidableEq, Repr

/-- An intake context (12 R366, R369 to R372). -/
structure Intake where
  /-- The context accepts frames: ENABLE as it is in effect (R367, R388). Reset: no. -/
  on : Bool
  /-- Next slot (R369). Reset: 0. -/
  next : Nat
  /-- A frame or block is in progress. Reset: no. -/
  busy : Bool
  /-- The frame in progress is being dropped (R369). Reset: no. -/
  dropping : Bool
  /-- T_START of the frame, 64 bits (Table 12.3). Reset: 0. -/
  tStart : Nat
  /-- Lines, payload bytes or audio frames received. Reset: 0. -/
  length : Nat
  /-- SEQ, 32 bits: frames set full since ENABLE became 1. Reset: 0. -/
  seq : Nat
  /-- DROPPED since the previous record, saturating at 0xFFFF. Reset: 0. -/
  dropped : Nat
  /-- SHORT, LONG and ERR of the frame. Reset: 0. -/
  short : Bool
  long : Bool
  err : Bool
  /-- A normal disable waits for the frame in progress (R388). Reset: no. -/
  stopping : Bool
  /-- Control-domain time at which that disable was committed, ns (R388). Reset: 0. -/
  stopAt : Nat
  /-- INT_STREAM_n as it was when the frame in progress began, where a disable that waits for the frame changes the layout too (R388).
  Reset: none. -/
  layout : Option Nat
  /-- Stopped by a power-state or Lee entry, its configuration unchanged (16 R483; 17 R507). Reset: no. -/
  held : Bool
  /-- Frozen under R390. Reset: no. -/
  frozen : Bool
  /-- An intake write is blocked (R390). Reset: none. -/
  blocked : Option Nat
  /-- The context's bytes of an unfinished word (R381). Reset: none. -/
  tail : List Byte
  /-- Writes that wait for the slot: (address, bytes, FORMAT, POISON) (R390). Reset: none. -/
  parked : List (Nat × List Byte × Nat × Bool)
  /-- Bytes of the block in progress, an unfinished word's among them (R381, R384). Reset: 0. -/
  filled : Nat
  /-- Frames and blocks that have ended and wait for their blocked writes, the oldest first (R371, R390). Reset: none. -/
  ended : List Frame
  /-- T_END of the landing slots that await their relay: (slot, time), the oldest first (R375, R387). Reset: none. -/
  landed : List (Nat × Nat)
  /-- A relay copy waits on a full relay slot (R387). Reset: no. -/
  relayWait : Bool
  /-- Control-domain time of the last packet, datagram or frame sync, ns (R378, R381, R385). Reset: 0. -/
  heard : Nat
  deriving DecidableEq, Repr

/-- A KCP packet, ARP, neighbour or ICMP answer that the device sends (13 R399, R393). -/
structure Packet where
  dst : Peer
  /-- Address and UDP port that it is sent from (R395). -/
  src : Nat
  srcUdp : Nat
  kind : Nat
  flags : Nat
  reqId : Nat
  status : Nat
  role : Nat
  epoch : Nat
  payload : List Byte
  deriving DecidableEq, Repr

/-- A cached request (13 R401). -/
structure Cached where
  /-- TYPE of the request. -/
  code : Nat
  req : Req
  /-- The reply's packets, once it is built. -/
  reply : Option (List Packet)
  at' : Nat
  /-- Other port, with the address and UDP port, that a copy came to while the reply is pending (R395, R401). -/
  copyPort : Option (Nat × Nat × Nat)
  /-- Later fragments of the request that were accepted (R403). -/
  more : List Req
  deriving DecidableEq, Repr

/-- What a staged change does at its commit (13 R413). -/
inductive Change where
  | params (entries : List (Nat × Nat))
  | bundleCommit (no : Nat)
  | bundleRemove (no : Nat)
  | protect (table index : Nat) (entry : List Byte)
  deriving DecidableEq, Repr

/-- A staged change (13 R413). -/
structure Staged where
  change : Change
  /-- A change of the whole group (14 R438). -/
  grouped : Bool
  /-- The request that its commit or deadline answers; none for a change relayed to a member. -/
  req : Option Req
  /-- Control-domain time of the staging, ns, and the deadline in ms. -/
  at' : Nat
  deadline : Nat
  /-- The lead's number for a change of the group, 0 for none, and the payload of a relayed one (14 R438, 15 R474). -/
  number : Nat := 0
  payload : List Byte := []
  deriving DecidableEq, Repr

/-- A host transfer into a slot (13 R408). -/
structure HostXfer where
  jobNo : Nat
  handle : Nat
  tile : Nat
  slot : Nat
  source : Peer
  reqId : Nat
  nextOffset : Nat
  /-- Control-domain time of the last fragment, ns (13 R408). -/
  at' : Nat
  deriving DecidableEq, Repr

/-- A RESULT that waits to be sent (13 R410). -/
structure Reply where
  job : Nat
  code : Nat
  handles : List Nat
  release : Bool
  run : Run
  /-- By handle: the record index of the most recent command that wrote through it. -/
  writers : List (Nat × Nat)
  waitSince : Nat
  frozen : Bool
  deriving DecidableEq, Repr

/-- The protocol engine (13). -/
structure Proto where
  /-- PRO_EPOCH, 64 bits (13 Table 13.8, R413). Reset: 0. -/
  epoch : Nat
  /-- Requests of the last 10 s with their replies (13 R401). Reset: none. -/
  cache : List Cached
  /-- Staged changes in staging order (13 R413). Reset: none. -/
  staged : List Staged
  /-- Host transfers (13 R408). Reset: none. -/
  xfers : List HostXfer
  /-- Results handed over and not sent (13 R410). Reset: none. -/
  replies : List Reply
  /-- Link of each command port is up: two bits (13 R396). Reset: down. -/
  linkUp : List Bool
  /-- Secure association in place on each port (13 R394). Reset: none. -/
  sa : List Bool
  /-- Packets sent under the secure association of each port: its 32-bit packet number (13 R394). Reset: 0. -/
  txPn : List Nat
  /-- Next packet number expected of a frame on each port (13 R394). Reset: 0. -/
  rxPn : List Nat
  /-- Accepted requests that wait, in the order in which they are served (13 R402). Reset: none. -/
  queue : List Instr
  /-- The request that the block runs comes from that queue (13 R402). Reset: no. -/
  serving : Bool
  /-- KCP packets as they left: port and bytes (13 R399). Reset: none. -/
  wire : List (Nat × List Byte)
  /-- Port that unsolicited packets go to (13 R396). Reset: 0, the primary. -/
  active : Nat
  /-- PRO_SYNC, 8 bits (13 Table 13.8). Reset: 0. -/
  sync : Nat
  /-- Control-domain time at which holdover began, ns (13 R398). Reset: 0. -/
  holdAt : Nat
  /-- The device counts as unsynchronised (13 R398). Reset: yes (never locked since the wake). -/
  unsync : Bool
  /-- Slave port in effect (13 R397). Reset: 0, PRO_PTP_PORT's. -/
  slavePort : Nat
  /-- Peer delay measured on each port, ns (13 R397). Reset: DESIGN CHOICE 0 (log 9). -/
  peerDelay : List (Nat × Nat)
  /-- Control-domain times, ns, of Gale starts in the last 1 ms (13 R419). Reset: none. -/
  galeStarts : List Nat
  /-- Service events sent: by kind × 2^32 + instance, the time in ns plus 1 (17 R503). Reset: none. -/
  serviceSent : List (Nat × Nat)
  /-- Wear thresholds reported: structure codes (17 R504). Reset: none. -/
  wearSent : List Nat
  /-- Wear reports that wait for the limit of R503: (block, instance, value) (17 R504). Reset: none. -/
  wearDue : List (Nat × Nat × Nat)
  /-- Packets sent, oldest first (13 R395, R396). Reset: none. -/
  sent : List Packet
  deriving DecidableEq, Repr

/-- A Crosswind port (14 R427 to R434). -/
structure XwPort where
  /-- The link is up. Reset: no. -/
  up : Bool
  /-- Spare lane in use, and the lane it replaced (14 R433). Reset: none. -/
  swapped : Option Nat
  /-- Key and salt of each direction, 36 bytes: transmit, receive (15 R455). Reset: none. -/
  txKey : List Byte
  rxKey : List Byte
  /-- SEQ of the next packet sent and the next expected, 64 bits (14 Table 14.3). Reset: 0. -/
  txSeq : Nat
  rxSeq : Nat
  /-- Replay buffer: packets sent and not acknowledged, each with its TYPE (14 R431). Reset: none. -/
  replay : List (Nat × XwPacket)
  /-- Replay requests in a row for one SEQ, received and sent (14 R431). Reset: 0. -/
  replays : Nat
  asked : Nat
  /-- SEQ from which a resend is due (14 R431). Reset: none. -/
  resend : Option Nat
  /-- Credits held: (JOB_NO, LINK, SLOT, TILE) (14 R441). Reset: none. -/
  credits : List (Nat × Nat × Nat × Nat)
  /-- Credits given and not used up by the packet marked LAST (14 R441). Reset: none. -/
  granted : List (Nat × Nat × Nat × Nat)
  /-- Parts being sent: (JOB_NO, LINK, SLOT, TILE, next word) (14 R432, R441). Reset: none. -/
  sending : List (Nat × Nat × Nat × Nat × Nat)
  /-- Control blocks sent on the link, oldest first: (kind, fields) (14 Table 14.2). Reset: none. -/
  control : List (Nat × List Nat)
  /-- Packets sent on the link, oldest first, each with its TYPE. Reset: none. -/
  out : List (Nat × XwPacket)
  /-- The blocks of each packet sent as they go into the codewords, sealed under the link's key (14 R430). Reset: none. -/
  wire : List (List Byte)
  /-- Packets that wait for room in the replay buffer, oldest first, each with its TYPE (14 R431). Reset: none. -/
  waiting : List (Nat × XwPacket)
  /-- Codeword count of the last alignment codeword of each lane, and the port that it named (14 R428). Reset: none. -/
  aligned : List (Nat × Nat)
  alignedTo : List (Nat × Nat)
  /-- Blocks sent since link-up, those of alignment codewords apart (14 R428). Reset: 0. -/
  blocks : Nat
  /-- Symbols corrected on each lane in the second of the control domain that `laneSecond` numbers (14 R433). Reset: 0. -/
  laneErrors : List (Nat × Nat)
  laneSecond : Nat
  /-- Full parts that wait for credit: (JOB_NO, LINK, SLOT, TILE), and since when, µs (14 R441). Reset: none. -/
  waits : List ((Nat × Nat × Nat × Nat) × Nat)
  /-- LINK served last, for the round robin (14 R432). Reset: DESIGN CHOICE 0 (log 9). -/
  lastLink : Nat
  /-- Frozen transfers of this port: (JOB_NO, LINK, SLOT, TILE) (14 R441). Reset: none. -/
  frozen : List (Nat × Nat × Nat × Nat)
  /-- Last time probe: number, transmit time, receive time of the peer's (14 Table 14.2). Reset: 0. -/
  probe : Nat × Nat × Nat
  /-- In electrical idle (16 R483; 17 R507). Reset: yes, until the wake starts the ports. -/
  idle : Bool
  deriving DecidableEq, Repr

/-- Crosswind groups (14). -/
structure Group where
  /-- The four ports (14 R427). Reset: below, per port. -/
  ports : List XwPort
  /-- XW_GROUP_EPOCH, 64 bits (14 Table 14.7). Reset: 0. -/
  epoch : Nat
  /-- XW_GROUP_STATE, a byte per member (14 Table 14.7). Reset: 0 as the parameter reads; 0xFF for a member not expected once a
  group has been looked for. -/
  state : List Nat
  /-- XW_LEAD, 8 bits (14 Table 14.7). Reset: 0xFF. -/
  lead : Nat
  /-- A group is formed (14 R437). Reset: no. -/
  formed : Bool
  /-- XW_TIME_OFFSET, ns (14 Table 14.7). Reset: 0. -/
  offset : Int
  /-- The last 256 group changes: (group epoch after it, change) (14 R438). Reset: none. -/
  changes : List (Nat × Change)
  /-- By member: the group epoch that the changes sent to it since the formation reach (14 R438). Reset: none. -/
  sentTo : List (Nat × Nat)
  /-- Number of the last group change that this part staged as lead (14 R438; log 36). Reset: 0. -/
  changeNo : Nat
  /-- By member: the number of the group change that it can commit (14 R438; log 36). Reset: none. -/
  agreed : List (Nat × Nat)
  /-- Number of the group change that the lead commits (14 R438; log 36). Reset: 0. -/
  go : Nat
  /-- By member: a bit for each member to which its links are up (14 R435). Reset: 0xF. -/
  reach : List (Nat × Nat)
  /-- Spare port in use (14 R434). Reset: none. -/
  spareFor : Option Nat
  /-- Reduction progress: (job, destination handle, slot, contributing links done) (14 R444). Reset: none. -/
  reduces : List (Nat × Nat × Nat × List Nat)
  /-- Scale bytes that have arrived for a contribution in progress: (job, link, slot, bytes) (14 R444). Reset: none. -/
  scales : List (Nat × Nat × Nat × List Byte)
  deriving DecidableEq, Repr

/-- A frozen object (15 R468, R471). -/
structure Frozen where
  id : Nat
  kind : Nat
  role : Nat
  status : Nat
  job : Nat
  tile : Nat
  ctx : Nat
  idx : Nat
  tag : Nat
  time : Nat
  deriving DecidableEq, Repr

/-- A journal entry (15 Table 15.12). -/
structure Entry where
  seq : Nat
  time : Nat
  epoch : Nat
  kind : Nat
  role : Nat
  keySlot : Nat
  reqId : Nat
  detail : List Byte
  prevHash : List Byte
  deriving DecidableEq, Repr

/-- The security block (15). -/
structure Sec where
  /-- SEC_STATE: 0 unclaimed, 1 claimed (15 R454). Reset: 0. -/
  claimed : Bool
  /-- Table 0, key slots: 16 entries of 128 bytes (15 Table 15.6). Reset: 0. -/
  keys : List (List Byte)
  /-- Counters of key slots kept in memory for the read-only rows: by slot (15 R451). Reset: 0. -/
  ramCounters : List (Nat × Nat)
  /-- Table 1, rights: 21 masks of 3 bits (15 Table 15.1). Reset: the marks of Table 15.1. -/
  rights : List Nat
  /-- Table 2, peers: 16 entries of 32 bytes (15 Table 15.7). Reset: entry 0 VALID, ANY_JOB, ROLE_MAX 2, both ports; others 0. -/
  peers : List (List Byte)
  /-- Table 3, bundle policy: 32 entries of 16 bytes (15 Table 15.8). Reset: 0. -/
  policy : List (List Byte)
  /-- Table 4, link keys: 3 entries of 64 bytes (15 Table 15.5). Reset: entries 0 and 1 as R454, entry 2 zero. -/
  linkKeys : List (List Byte)
  /-- Frozen objects (15 R468). Reset: none. -/
  frozen : List Frozen
  /-- Next OBJECT_ID (15 R468). Reset: 1. -/
  nextObject : Nat
  /-- The journal, oldest first (15 R474). Reset: empty. -/
  journal : List Entry
  /-- ANCHOR, 64 bytes (15 R476). Reset: SHA-512 of DIE_SERIAL (Table 15.12, SEQ 1). -/
  anchor : List Byte
  /-- SEC_JOURNAL_HEAD, 64 bits (15 Table 15.13). Reset: 0. -/
  head : Nat
  /-- SEC_JOURNAL_LOST, 32 bits (15 Table 15.13). Reset: 0. -/
  lost : Nat
  /-- The full condition has been reported (15 R475). Reset: no. -/
  fullSent : Bool
  /-- SEC_FW_SVN, 8 bits, fused (15 Table 15.13). Reset: 0. -/
  svn : Nat
  /-- SVN of the image in firmware slots A and B, 0 for none (15 R456). Reset: DESIGN CHOICE 1 in both (log 10). -/
  slotSvn : List Nat
  /-- Digest D of the images (15 R456, Table 15.11). Reset: DESIGN CHOICE 64 zero bytes (log 10). -/
  slotDigest : List (List Byte)
  /-- SEC_BOOT_SLOT [0]: active slot (15 Table 15.13). Reset: 0. -/
  bootSlot : Nat
  /-- SEC_BOOT_SLOT [1]: fallback at this wake (15 Table 15.13). Reset: 0. -/
  fallback : Bool
  /-- Slot marked next (15 R458). Reset: none. -/
  nextSlot : Option Nat
  /-- The image running was booted as next and has not been accepted (15 R458). Reset: no. -/
  trial : Bool
  /-- The bytes of the firmware bundle in each slot (15 R456, R458). Reset: none, a factory image that the manual does not give
  (log 10). -/
  slotImage : List (List Byte)
  /-- Firmware images waiting: bundle number and slot (15 R458). Reset: none. -/
  images : List (Nat × Nat)
  deriving DecidableEq, Repr

/-- The wake sequence (16 R489, R491). -/
inductive Stage where
  | waitGood        -- AON_PWR_REQ asserted; waiting for AON_PWR_GOOD
  | boot            -- rails good, PLLs locked, reset released: the boot ROM runs
  | bootFailed      -- both slots failed (R457)
  | training        -- firmware runs; HBM full training
  | padHold         -- HBM ready; pads still held
  | link            -- pads released; waiting for commands to be accepted
  | on              -- commands accepted: RUN or IDLE
  | entering        -- an ENTER was accepted and has not replied (steps 1 to 3 of R483)
  | powerDown       -- the reply is sent; save, pad hold and power-down run (steps 4 to 7)
  | low             -- SLEEP, DORMANT or OFF reached
  | sleepExit       -- waking from SLEEP
  | held            -- held in reset: SYS_RESET_N low or REF_CLK lost
  | dead            -- VDD_AON absent
  deriving DecidableEq, Repr

/-- Power, clocks and reset (16). -/
structure Power where
  /-- Where the wake or entry sequence stands (16 R483, R489, R491). Reset: waitGood. -/
  stage : Stage
  /-- IDLE within RUN and IDLE (16 R479). Reset: no. -/
  idle : Bool
  /-- Nanoseconds in which no run has been running or ready (16 R480). Reset: 0. -/
  quiet : Nat
  /-- Times of the last wake, the last ENTER accepted, the last state reached, ns (15 R458; 16 R483, R485). Reset: 0. -/
  wakeAt : Nat
  enterAt : Nat
  reachedAt : Nat
  /-- Target of an ENTER: 2, 3 or 4 (16 R482). Reset: DESIGN CHOICE 0 (log 9), not used before an ENTER. -/
  target : Nat
  /-- The ENTER to reply to (16 R483). Reset: none. -/
  enterReq : Option Req
  /-- Runs ended by the entry (16 R482). Reset: 0. -/
  ended : Nat
  /-- Wake event held or latched: its cause (16 R484). Reset: none. -/
  wakeHeld : Option Nat
  /-- PWR_WAKE_CFG and PWR_WAKE_TIMER copies of the always-on domain, 16 and 32 bits (16 R483, R485). Reset: 0x000D and 0 (the
  parameters' reset values; DEDUCED). -/
  wakeCfg : Nat
  wakeTimer : Nat
  /-- PWR_OP_NOW, 8 bits (16 Table 16.11). Reset: 0. -/
  opNow : Nat
  /-- Operating-point change in progress: the point it goes to (16 R493). Reset: none. -/
  opNext : Option Nat
  /-- Steps the throttle holds the point below PWR_OP (16 R494). Reset: 0. -/
  throttle : Nat
  /-- PWR_RESET_CAUSE, 8 bits (16 Table 16.11). Reset: 0x01. -/
  resetCause : Nat
  /-- PWR_WAKE_CAUSE, 8 bits (16 Table 16.11). Reset: 0. -/
  wakeCause : Nat
  /-- HBM is trained and has kept its power since (11 R347). Reset: no. -/
  hbmTrained : Bool
  /-- MKA restart due on a port after a commit of its CAK (15 R465). Reset: none. -/
  mkaRestart : List Nat
  deriving DecidableEq, Repr

/-- Service life (17). -/
structure Service where
  /-- SVC_LEE_CAUSE, 8 bits (17 Table 17.4). Reset: 0. -/
  leeCause : Nat
  /-- Lee mode (17 R506). Reset: no. -/
  lee : Bool
  /-- FAULT_N is driven low because both boot slots failed (15 R457). Reset: no. -/
  bootFault : Bool
  deriving DecidableEq, Repr

/-- Balls (16 R492; 17 R505; 18 R528, R536, R537). -/
structure Pins where
  /-- Input AON_PWR_GOOD (18 R528). Reset: low, before the board raises it. -/
  aonPwrGood : Bool
  /-- Output AON_PWR_REQ (18 R528). Reset: high, asserted by the wake's first step. -/
  aonPwrReq : Bool
  /-- Input SYS_RESET_N (16 R495). Reset: high. -/
  sysResetN : Bool
  /-- REF_CLK present within tolerance (16 R495, R496). Reset: yes. -/
  refClk : Bool
  /-- Input COOLANT_OK (18 R536). Reset: high. -/
  coolantOk : Bool
  /-- Input AON_WAKE (16 R485). Reset: DESIGN CHOICE low (log 9). -/
  aonWake : Bool
  /-- Output THERM_ALERT_N (18 R537). Reset: high. -/
  thermAlertN : Bool
  /-- Output FAULT_N (17 R505; 16 Table 16.8). Reset: low under pad hold after power-on. -/
  faultN : Bool
  /-- Output LEE_N (17 R505; 16 Table 16.8). Reset: high. -/
  leeN : Bool
  /-- Pad hold is applied (16 R492). Reset: yes, from power-on. -/
  padHold : Bool
  /-- Receivers and ports switched off by Lee mode or an entry (17 R507). Reset: no. -/
  portsOff : Bool
  deriving DecidableEq, Repr

/-- Clocks (01 R25; 03 R100; 13 R398). -/
structure Clk where
  /-- ns since reset of the always-on domain: the control and NoC clocks count it, 1.0 GHz (01 Table 1.3). Reset: 0. -/
  ns : Nat
  /-- PRO_TIME: device time, 64 bits, ns (13 R398). Reset: 0. -/
  device : Nat
  /-- Slew that remains to be taken, ns (13 R398). Reset: 0. -/
  slew : Int
  /-- Plane clock counter (03 R100). Reset: 0. -/
  plane : Nat
  /-- Twentieths of a plane clock beyond it: 25, 18 or 10 twentieths a ns (03 R100; 01 Table 1.2). Reset: 0. -/
  planeFrac : Nat
  deriving DecidableEq, Repr

/-- Everything but the memories and the command queue. -/
structure Ctl where
  clk : Clk
  /-- Parameters: by ID, their value (00 R19). Reset: the Reset column of the owning table. -/
  params : List (Nat × Nat)
  /-- Counters: by place in block order, their value with the overflow bit 63 (17 R513, R514). Reset: 0, but for the power-on
  itself, which CNT_PWR_WAKE[0] and CNT_PWR_RESET[0] count (16 R498; log 135). -/
  counters : List (Nat × Nat)
  /-- Slot tags: FULL and VOIDED, by store × 8192 + tag, store 16 the common store (08 R253). Reset: 0. -/
  slotTags : List (Nat × Nat)
  /-- Time of the last change of each slot tag, ns, by the same key (09 R306). Reset: 0. -/
  tagTimes : List (Nat × Nat)
  plane : Plane
  /-- Physical tiles 0 to 17, by number (03 R107). Reset: below, per tile. -/
  tiles : List Tile
  /-- Admitted jobs, in ascending JOB_NO (13 R407). Reset: none. -/
  jobs : List Job
  /-- Stream contexts in use, 16 for each engine (09 R275). Reset: none. -/
  ctxs : List Ctx
  /-- Transfers in flight, 256 tags for each engine (09 R275, R289). Reset: none. -/
  xfers : List Xfer
  /-- Governor charges of the present window: by tile × 8 + class, class 3 the NoC charge of Breeze and Lull (09 R294 to R296).
  Reset: 0. -/
  charges : List (Nat × Nat)
  /-- Governor parameters changed in the present window, with the value still in force (13 R417; 09 R294). Reset: none. -/
  govHeld : List (Nat × Nat)
  store : Store
  /-- Intake contexts 0 to 63 (12 R366): by number. Reset: off. -/
  intakes : List (Nat × Intake)
  proto : Proto
  group : Group
  sec : Sec
  power : Power
  service : Service
  pins : Pins
  /-- Writes into the memories that the running command has issued (the model's own). Reset: none. -/
  wq : List Wr
  /-- Free values taken so far (the model's own). Reset: DESIGN CHOICE 0 (log 3). -/
  freeIx : Nat
  deriving DecidableEq, Repr

/-- The state of the block: memories, everything else, and the commands that wait, first in first out. -/
structure State where
  mem : Mem
  ctl : Ctl
  /-- Commands that wait, first in first out (the model's own). Reset: empty. -/
  pending : List Sys2Proof.Instr
  deriving DecidableEq, Repr

/-- A command list not begun. -/
def Exec.start : Exec :=
  { pc := 0, phase := 0, pass := 0, step := 0, grp := 0, sums := [], saved := [], savedState := 0, cut := none,
    incomplete := [], writers := [], readSlots := [], blocks := [], band := [], table := [], stopped := false }

/-- An idle Plane. -/
def Plane.reset : Plane :=
  { holder := none, switch := none, drain := none, stopReq := false, operandWait := none, drainWait := none,
    passWait := false, atPassEnd := false, last := none, waitFull := none, heldFaults := [], windowCorr := [], holds := 0, intervalHolds := 0, signalled := false,
    windowSignals := 0, windowExcess := [], parityTiles := [], retireDue := [], copying := none, copySince := 0, lastTest := 0,
    busyLog := [] }

/-- An HBM bank after reset: P is 1 (R343). -/
def Bank.reset : Bank := { openRow := none, lastRow := none, keptOpen := false, pred := 1, postponed := false }

/-- Physical tile p at first power-on (R107). -/
def Tile.factory (p : Nat) : Tile :=
  { logical := if p < 16 then some p else none, retired := false, frozen := false, testing := false, retRows := [],
    retCols := [], retBanks := [] }

/-- HBM and flash at first power-on. -/
def Store.reset : Store :=
  { banks := [], refreshNext := [], rowCorr := [], repairDue := [], softRepairs := [], repairsUsed := [],
    retiredFrames := [], failed := [], alerts := [], hbmScrub := 0, storeScrub := [], writeBacks := [],
    bankCorr := [], bankUncorr := [], bankDue := [], cstRetBank := none, frames := [], residents := [], pageIns := [],
    requests := 0, bundles := [], transfers := [], nextBundle := 1, removed := [], toErase := [], eraseAtWake := [], badBlocks := [], wear := [], blockReads := [],
    blockMap := [], refreshDue := [], blocksRetired := [], sparesUsed := [] }

/-- An intake context that is off. -/
def Intake.off : Intake :=
  { on := false, next := 0, busy := false, dropping := false, tStart := 0, length := 0, seq := 0, dropped := 0,
    short := false, long := false, err := false, stopping := false, stopAt := 0, layout := none, held := false, frozen := false, blocked := none,
    tail := [], parked := [], filled := 0, ended := [], landed := [], relayWait := false, heard := 0 }

def Proto.reset : Proto :=
  { epoch := 0, cache := [], staged := [], xfers := [], replies := [], linkUp := [false, false], sa := [false, false], txPn := [0, 0], rxPn := [0, 0], queue := [], serving := false, wire := [],
    active := 0, sync := 0, holdAt := 0, unsync := true, slavePort := 0, peerDelay := [], galeStarts := [], serviceSent := [],
    wearSent := [], wearDue := [], sent := [] }

def XwPort.reset : XwPort :=
  { up := false, swapped := none, txKey := [], rxKey := [], txSeq := 0, rxSeq := 0, replay := [], replays := 0,
    asked := 0, resend := none, credits := [], granted := [], sending := [], control := [], out := [], wire := [],
    waiting := [], aligned := [], alignedTo := [], blocks := 0, laneErrors := [], laneSecond := 0, waits := [], lastLink := 0, frozen := [], probe := (0, 0, 0), idle := true }

def Group.reset : Group :=
  { ports := List.replicate 4 XwPort.reset, epoch := 0, state := [0, 0, 0, 0], lead := 0xFF, formed := false,
    offset := 0, changes := [], sentTo := [], changeNo := 0, agreed := [], go := 0, reach := [], spareFor := none, reduces := [], scales := [] }

/-- The marks of Table 15.1: [0] operator, [1] installer, [2] maker (Table 15.5). -/
def Sec.rightsReset : List Nat := [7, 7, 6, 6, 7, 7, 7, 6, 4, 6, 6, 4, 7, 6, 7, 6, 4, 7, 6, 6, 7]

/-- CKN and CAK of an unclaimed device: 64 bytes, the CKN first (R454). -/
def Sec.unclaimedLink : List Byte :=
  -- the ASCII bytes of "KALEA-UNCLAIMED"
  let name : List Byte := [75, 65, 76, 69, 65, 45, 85, 78, 67, 76, 65, 73, 77, 69, 68]
  let h := slice (Config.sha512 (name ++ slice Config.dieSerial 0 16)) 0 64
  h.drop 32 ++ h.take 32

def Sec.peer0 : List Byte := [0x03, 2, 0, 0x03] ++ List.replicate 28 0

def Sec.reset : Sec :=
  { claimed := false, keys := List.replicate 16 (List.replicate 128 0), ramCounters := [], rights := Sec.rightsReset,
    peers := Sec.peer0 :: List.replicate 15 (List.replicate 32 0), policy := List.replicate 32 (List.replicate 16 0),
    linkKeys := [Sec.unclaimedLink, Sec.unclaimedLink, List.replicate 64 0], frozen := [], nextObject := 1,
    journal := [], anchor := slice (Config.sha512 (slice Config.dieSerial 0 16)) 0 64, head := 0, lost := 0,
    fullSent := false, svn := 0, slotSvn := [1, 1],
    slotDigest := [List.replicate 64 0, List.replicate 64 0], bootSlot := 0, fallback := false, nextSlot := none,
    trial := false, slotImage := [[], []], images := [] }

def Power.reset : Power :=
  { stage := .waitGood, idle := false, quiet := 0, wakeAt := 0, enterAt := 0, reachedAt := 0, target := 0, enterReq := none, ended := 0, wakeHeld := none, wakeCfg := 0x000D,
    wakeTimer := 0, opNow := 0, opNext := none, throttle := 0, resetCause := 0x01, wakeCause := 0, hbmTrained := false,
    mkaRestart := [] }

def Pins.reset : Pins :=
  { aonPwrGood := false, aonPwrReq := true, sysResetN := true, refClk := true, coolantOk := true, aonWake := false, thermAlertN := true,
    faultN := false, leeN := true, padHold := true, portsOff := false }

def Ctl.reset : Ctl :=
  { clk := { ns := 0, device := 0, slew := 0, plane := 0, planeFrac := 0 }, params := [], counters := [(117, 1), (118, 1)], slotTags := [], tagTimes := [],
    plane := Plane.reset, tiles := (List.range 18).map Tile.factory, jobs := [], ctxs := [], xfers := [], charges := [], govHeld := [],
    store := Store.reset, intakes := [], proto := Proto.reset, group := Group.reset, sec := Sec.reset,
    power := Power.reset, service := { leeCause := 0, lee := false, bootFault := false }, pins := Pins.reset, wq := [],
    freeIx := 0 }

/-- The machine right after a power-on reset of a device at first power-on: the wake sequence at its first step. -/
def State.reset : State := { mem := { bytes := [], wtags := [], flaws := [] }, ctl := Ctl.reset, pending := [] }

end Sys2Proof.Machine
end

