-- ==== Sys2Proof/Machine/Tables.lean ====
section
/-! DEFINITION. The parameter table and the counters: IDs, widths, access and reset values; counters in the order of R425
with their instances (the parameter and counter tables of every chapter; 17_service_life.md R513, R514). -/

namespace Sys2Proof.Machine

/-- A row of a parameter table: first and last ID, width in bits, RW, reset value. -/
structure ParamRow where
  first : Nat
  last : Nat
  width : Nat
  rw : Bool
  reset : Nat
  deriving DecidableEq, Repr

def paramRows0 : List ParamRow :=
  [⟨0x0300, 0x0300, 8, false, 0x0⟩,
   ⟨0x0301, 0x0301, 128, false, 0xF0E0D0C0B0A09080706050403020100⟩,
   ⟨0x0302, 0x0302, 128, false, 0x0⟩,
   ⟨0x0303, 0x0303, 16, true, 0x40⟩,
   ⟨0x0304, 0x0304, 8, false, 0x2⟩,
   ⟨0x0310, 0x0321, 64, false, 0x0⟩,
   ⟨0x0800, 0x0800, 32, true, 0xC8⟩,
   ⟨0x0801, 0x0801, 32, true, 0xF4240⟩,
   ⟨0x0802, 0x0802, 32, true, 0x400000⟩,
   ⟨0x0803, 0x0803, 16, true, 0x400⟩,
   ⟨0x0804, 0x0804, 16, true, 0x3E8⟩,
   ⟨0x0810, 0x0821, 16, false, 0x0⟩,
   ⟨0x0880, 0x0880, 32, true, 0x200000⟩,
   ⟨0x0881, 0x0881, 16, true, 0x3E8⟩,
   ⟨0x0882, 0x0882, 16, false, 0x7F⟩,
   ⟨0x0890, 0x089F, 64, true, 0x0⟩,
   ⟨0x0900, 0x0900, 32, true, 0x25800⟩,
   ⟨0x0901, 0x0901, 32, true, 0x9C40⟩,
   ⟨0x0902, 0x0902, 32, true, 0x25800⟩,
   ⟨0x0903, 0x0903, 32, true, 0x12C00⟩,
   ⟨0x0904, 0x0904, 32, true, 0x3E80⟩,
   ⟨0x0905, 0x0905, 16, true, 0x60⟩,
   ⟨0x0906, 0x0906, 16, false, 0x40⟩,
   ⟨0x0A00, 0x0A00, 8, false, 0x1⟩,
   ⟨0x0A01, 0x0A01, 8, false, 0x20⟩,
   ⟨0x0B00, 0x0B00, 16, true, 0x4⟩,
   ⟨0x0B01, 0x0B01, 16, true, 0x8⟩,
   ⟨0x0B02, 0x0B02, 32, true, 0x800⟩,
   ⟨0x0B03, 0x0B03, 32, false, 0x200⟩,
   ⟨0x0B04, 0x0B04, 32, false, 0x0⟩,
   ⟨0x0B05, 0x0B05, 16, false, 0x0⟩,
   ⟨0x0B06, 0x0B06, 16, false, 0x0⟩,
   ⟨0x0B80, 0x0B80, 16, true, 0x7⟩,
   ⟨0x0B81, 0x0B81, 32, true, 0x30D40⟩,
   ⟨0x0B82, 0x0B82, 16, false, 0xF6⟩]
def paramRows1 : List ParamRow :=
  [⟨0x0B83, 0x0B83, 16, false, 0xF6⟩,
   ⟨0x0B84, 0x0B84, 16, false, 0x0⟩,
   ⟨0x0B85, 0x0B85, 16, false, 0x0⟩,
   ⟨0x0B86, 0x0B86, 32, false, 0x40000⟩,
   ⟨0x0B87, 0x0B87, 32, false, 0x0⟩,
   ⟨0x0B88, 0x0B88, 32, false, 0xC000⟩,
   ⟨0x0C00, 0x0C3F, 256, true, 0x0⟩,
   ⟨0x0C40, 0x0C7F, 64, true, 0x0⟩,
   ⟨0x0C80, 0x0C87, 8, true, 0x4⟩,
   ⟨0x0C88, 0x0C89, 64, true, 0x0⟩,
   ⟨0x0C8C, 0x0C8F, 16, true, 0x3B⟩,
   ⟨0x0C90, 0x0C90, 16, true, 0x32⟩,
   ⟨0x0D00, 0x0D00, 16, true, 0xBAC2⟩,
   ⟨0x0D01, 0x0D01, 16, true, 0x7D0⟩,
   ⟨0x0D02, 0x0D02, 16, true, 0x64⟩,
   ⟨0x0D03, 0x0D03, 32, true, 0x10000⟩,
   ⟨0x0D04, 0x0D04, 32, true, 0x0⟩,
   ⟨0x0D05, 0x0D05, 8, true, 0x0⟩,
   ⟨0x0D06, 0x0D06, 8, true, 0x2⟩,
   ⟨0x0D07, 0x0D07, 64, false, 0x0⟩,
   ⟨0x0D08, 0x0D08, 64, false, 0x0⟩,
   ⟨0x0D09, 0x0D09, 8, false, 0x0⟩,
   ⟨0x0D10, 0x0D11, 64, true, 0x0⟩,
   ⟨0x0D12, 0x0D13, 64, true, 0x0⟩,
   ⟨0x0D14, 0x0D15, 256, true, 0x0⟩,
   ⟨0x0D16, 0x0D16, 256, true, 0x0⟩,
   ⟨0x0D80, 0x0D80, 32, true, 0x7D0⟩,
   ⟨0x0D81, 0x0D81, 32, true, 0x2710⟩,
   ⟨0x0D82, 0x0D82, 16, false, 0x28⟩,
   ⟨0x0D83, 0x0D83, 8, false, 0x40⟩,
   ⟨0x0D84, 0x0D84, 8, false, 0x10⟩,
   ⟨0x0D90, 0x0D90, 8, false, 0x0⟩,
   ⟨0x0D91, 0x0D98, 64, true, 0x0⟩,
   ⟨0x0D99, 0x0D99, 16, true, 0x40⟩,
   ⟨0x0D9A, 0x0D9A, 16, true, 0x3C⟩]
def paramRows2 : List ParamRow :=
  [⟨0x0E00, 0x0E00, 8, true, 0xFF⟩,
   ⟨0x0E01, 0x0E01, 8, true, 0x0⟩,
   ⟨0x0E02, 0x0E02, 8, true, 0x0⟩,
   ⟨0x0E03, 0x0E03, 32, true, 0x10000⟩,
   ⟨0x0E04, 0x0E07, 8, true, 0x0⟩,
   ⟨0x0E08, 0x0E08, 64, false, 0x0⟩,
   ⟨0x0E09, 0x0E09, 32, false, 0x0⟩,
   ⟨0x0E0A, 0x0E0A, 8, false, 0xFF⟩,
   ⟨0x0E0B, 0x0E0B, 32, false, 0x0⟩,
   ⟨0x0F00, 0x0F00, 8, false, 0x0⟩,
   ⟨0x0F01, 0x0F01, 8, false, 0x0⟩,
   ⟨0x0F02, 0x0F02, 8, false, 0x0⟩,
   ⟨0x0F03, 0x0F03, 32, false, 0x10000⟩,
   ⟨0x0F04, 0x0F04, 32, false, 0x10000⟩,
   ⟨0x0F05, 0x0F05, 64, false, 0x0⟩,
   ⟨0x0F06, 0x0F06, 32, false, 0x0⟩,
   ⟨0x0F07, 0x0F07, 16, false, 0x0⟩,
   ⟨0x1000, 0x1000, 8, false, 0x0⟩,
   ⟨0x1001, 0x1001, 8, true, 0x0⟩,
   ⟨0x1002, 0x1002, 8, false, 0x0⟩,
   ⟨0x1003, 0x1003, 32, true, 0x3E8⟩,
   ⟨0x1004, 0x1004, 16, true, 0xD⟩,
   ⟨0x1005, 0x1005, 32, true, 0x0⟩,
   ⟨0x1006, 0x1006, 16, true, 0x64⟩,
   ⟨0x1007, 0x1007, 8, true, 0x69⟩,
   ⟨0x1008, 0x1008, 8, false, 0x1⟩,
   ⟨0x1009, 0x1009, 8, false, 0x0⟩]

/-- The parameters in ascending ID. -/
def paramRows : List ParamRow := paramRows0 ++ paramRows1 ++ paramRows2

/-- The counters in the order of COUNTER_READ (R425). -/
inductive Cnt where
  | plnCorr | plnCorrExcess | plnHold | plnHoldClk | plnVoidRow | plnOperandWait | plnDrainWait | plnSubst
  | plnCmdDone | plnCmdFault | plnOverlap | plnStop | plnAbandon | plnSwitch | plnIndexRange | plnRowVoid
  | plnAdaptVoid | plnAdaptStep | plnVecCmd | plnHaloRow | plnWinSlow | plnS2cRecode | plnWinVoid | plnBoxVoid
  | plnSatPort | plnSatSum | plnSatStage | plnSatOut | plnScaleClamp | plnScaleVoid | tstCorr | tstUncorr
  | tstScrubPass | tstAged | tstStall | tstSlotVoided | tstWindowDrop | tstBankSubst | cstCorr | cstUncorr
  | strXfer | strSmall | strTagWait | strGovWait | strHalt | strRefetch | strDescFault | strMutual | pakFlush
  | pakBlockVoid | pakP4Top | pakDense | pakShared | pakPoisonBlock | pakOverrun | pakPadding | pakFormat
  | hbmCorr | hbmUncorr | hbmScrubPass | hbmRowHit | hbmRowMiss | hbmCaParity | hbmRetrain | hbmRetrainForced
  | hbmRowRepair | flsPageIn | flsEvict | flsSuspend | flsCorr | flsRebuild | flsUncorr | flsRefresh | flsRetire
  | intFrame | intDrop | intShort | intLong | intClip | intForcedSlot | intRelayWait | intHdrCorr | intHdrErr
  | intCrc | intOrphan | intUnmatched | intEthFcs | intOverflow | intTdmSync | proRx | proTx | proMacsecDrop
  | proBad | proDuplicate | proBusy | proResultTrunc | proFailover | proSyncLoss | xwFecCorr | xwFecUncorr
  | xwAuthFail | xwReplay | xwBadBlock | xwLaneSwap | xwPortSwap | xwRelay | xwRefused | xwHoldOut | xwMemberLost
  | secBadSig | secNotPermitted | secFreeze | secThaw | secWithheld | secJournalFull | secBootFallback | pwrEntry
  | pwrWake | pwrReset | pwrRunEnded | pwrIdle | pwrOpChange | pwrThrottle | pwrTimeRun | pwrTimeIdle | svcAdmit
  | svcRun | svcTrigDrop | svcGaleDrop | svcCommit | svcNotApplied | svcLeeEntry | svcLeeTime | svcServiceEvent
  | svcHoldAlarm | svcPlaneTestFail | svcOverflow
  deriving DecidableEq, Repr

/-- Block code, instances, and whether the counter is a time counter (R425, R513). -/
def Cnt.info : Cnt → Nat × Nat × Bool
  | .plnCorr => (0, 16, false)
  | .plnCorrExcess => (0, 16, false)
  | .plnHold => (0, 1, false)
  | .plnHoldClk => (0, 1, true)
  | .plnVoidRow => (0, 16, false)
  | .plnOperandWait => (0, 1, true)
  | .plnDrainWait => (0, 1, true)
  | .plnSubst => (0, 1, false)
  | .plnCmdDone => (0, 3, false)
  | .plnCmdFault => (0, 3, false)
  | .plnOverlap => (0, 1, false)
  | .plnStop => (0, 3, false)
  | .plnAbandon => (0, 1, false)
  | .plnSwitch => (0, 1, false)
  | .plnIndexRange => (0, 1, false)
  | .plnRowVoid => (0, 16, false)
  | .plnAdaptVoid => (0, 1, false)
  | .plnAdaptStep => (0, 1, false)
  | .plnVecCmd => (0, 3, false)
  | .plnHaloRow => (0, 16, false)
  | .plnWinSlow => (0, 1, false)
  | .plnS2cRecode => (0, 1, false)
  | .plnWinVoid => (0, 16, false)
  | .plnBoxVoid => (0, 1, false)
  | .plnSatPort => (0, 16, false)
  | .plnSatSum => (0, 16, false)
  | .plnSatStage => (0, 16, false)
  | .plnSatOut => (0, 16, false)
  | .plnScaleClamp => (0, 16, false)
  | .plnScaleVoid => (0, 16, false)
  | .tstCorr => (1, 16, false)
  | .tstUncorr => (1, 16, false)
  | .tstScrubPass => (1, 16, false)
  | .tstAged => (1, 16, false)
  | .tstStall => (1, 1, false)
  | .tstSlotVoided => (1, 1, false)
  | .tstWindowDrop => (1, 16, false)
  | .tstBankSubst => (1, 1, false)
  | .cstCorr => (2, 1, false)
  | .cstUncorr => (2, 1, false)
  | .strXfer => (3, 16, false)
  | .strSmall => (3, 16, false)
  | .strTagWait => (3, 16, true)
  | .strGovWait => (3, 48, true)
  | .strHalt => (3, 16, false)
  | .strRefetch => (3, 16, false)
  | .strDescFault => (3, 1, false)
  | .strMutual => (3, 1, false)
  | .pakFlush => (4, 16, false)
  | .pakBlockVoid => (4, 16, false)
  | .pakP4Top => (4, 16, false)
  | .pakDense => (4, 16, false)
  | .pakShared => (4, 16, true)
  | .pakPoisonBlock => (4, 16, false)
  | .pakOverrun => (4, 16, false)
  | .pakPadding => (4, 16, false)
  | .pakFormat => (4, 16, false)
  | .hbmCorr => (5, 2, false)
  | .hbmUncorr => (5, 2, false)
  | .hbmScrubPass => (5, 1, false)
  | .hbmRowHit => (5, 2, false)
  | .hbmRowMiss => (5, 2, false)
  | .hbmCaParity => (5, 2, false)
  | .hbmRetrain => (5, 2, false)
  | .hbmRetrainForced => (5, 2, false)
  | .hbmRowRepair => (5, 2, false)
  | .flsPageIn => (6, 3, false)
  | .flsEvict => (6, 1, false)
  | .flsSuspend => (6, 2, false)
  | .flsCorr => (6, 2, false)
  | .flsRebuild => (6, 2, false)
  | .flsUncorr => (6, 2, false)
  | .flsRefresh => (6, 2, false)
  | .flsRetire => (6, 2, false)
  | .intFrame => (7, 64, false)
  | .intDrop => (7, 64, false)
  | .intShort => (7, 64, false)
  | .intLong => (7, 64, false)
  | .intClip => (7, 64, false)
  | .intForcedSlot => (7, 64, false)
  | .intRelayWait => (7, 64, false)
  | .intHdrCorr => (7, 8, false)
  | .intHdrErr => (7, 8, false)
  | .intCrc => (7, 8, false)
  | .intOrphan => (7, 8, false)
  | .intUnmatched => (7, 10, false)
  | .intEthFcs => (7, 2, false)
  | .intOverflow => (7, 10, false)
  | .intTdmSync => (7, 4, false)
  | .proRx => (8, 2, false)
  | .proTx => (8, 2, false)
  | .proMacsecDrop => (8, 2, false)
  | .proBad => (8, 2, false)
  | .proDuplicate => (8, 1, false)
  | .proBusy => (8, 1, false)
  | .proResultTrunc => (8, 1, false)
  | .proFailover => (8, 1, false)
  | .proSyncLoss => (8, 1, false)
  | .xwFecCorr => (9, 4, false)
  | .xwFecUncorr => (9, 4, false)
  | .xwAuthFail => (9, 4, false)
  | .xwReplay => (9, 4, false)
  | .xwBadBlock => (9, 4, false)
  | .xwLaneSwap => (9, 4, false)
  | .xwPortSwap => (9, 1, false)
  | .xwRelay => (9, 1, false)
  | .xwRefused => (9, 4, false)
  | .xwHoldOut => (9, 1, false)
  | .xwMemberLost => (9, 1, false)
  | .secBadSig => (10, 1, false)
  | .secNotPermitted => (10, 3, false)
  | .secFreeze => (10, 6, false)
  | .secThaw => (10, 6, false)
  | .secWithheld => (10, 1, false)
  | .secJournalFull => (10, 1, false)
  | .secBootFallback => (10, 1, false)
  | .pwrEntry => (11, 3, false)
  | .pwrWake => (11, 6, false)
  | .pwrReset => (11, 7, false)
  | .pwrRunEnded => (11, 1, false)
  | .pwrIdle => (11, 1, false)
  | .pwrOpChange => (11, 1, false)
  | .pwrThrottle => (11, 1, false)
  | .pwrTimeRun => (11, 1, true)
  | .pwrTimeIdle => (11, 1, true)
  | .svcAdmit => (12, 3, false)
  | .svcRun => (12, 3, false)
  | .svcTrigDrop => (12, 1, false)
  | .svcGaleDrop => (12, 1, false)
  | .svcCommit => (12, 1, false)
  | .svcNotApplied => (12, 1, false)
  | .svcLeeEntry => (12, 6, false)
  | .svcLeeTime => (12, 1, true)
  | .svcServiceEvent => (12, 1, false)
  | .svcHoldAlarm => (12, 1, false)
  | .svcPlaneTestFail => (12, 16, false)
  | .svcOverflow => (12, 1, false)

def cntList0 : List Cnt :=
  [.plnCorr, .plnCorrExcess, .plnHold, .plnHoldClk, .plnVoidRow, .plnOperandWait, .plnDrainWait, .plnSubst, 
   .plnCmdDone, .plnCmdFault, .plnOverlap, .plnStop, .plnAbandon, .plnSwitch, .plnIndexRange, .plnRowVoid, 
   .plnAdaptVoid, .plnAdaptStep, .plnVecCmd, .plnHaloRow, .plnWinSlow, .plnS2cRecode, .plnWinVoid, .plnBoxVoid, 
   .plnSatPort, .plnSatSum, .plnSatStage, .plnSatOut, .plnScaleClamp, .plnScaleVoid, .tstCorr, .tstUncorr, 
   .tstScrubPass, .tstAged, .tstStall, .tstSlotVoided, .tstWindowDrop, .tstBankSubst, .cstCorr, .cstUncorr, 
   .strXfer, .strSmall, .strTagWait, .strGovWait, .strHalt, .strRefetch, .strDescFault, .strMutual, .pakFlush, 
   .pakBlockVoid]

def cntList1 : List Cnt :=
  [.pakP4Top, .pakDense, .pakShared, .pakPoisonBlock, .pakOverrun, .pakPadding, .pakFormat, .hbmCorr, .hbmUncorr, 
   .hbmScrubPass, .hbmRowHit, .hbmRowMiss, .hbmCaParity, .hbmRetrain, .hbmRetrainForced, .hbmRowRepair, 
   .flsPageIn, .flsEvict, .flsSuspend, .flsCorr, .flsRebuild, .flsUncorr, .flsRefresh, .flsRetire, .intFrame, 
   .intDrop, .intShort, .intLong, .intClip, .intForcedSlot, .intRelayWait, .intHdrCorr, .intHdrErr, .intCrc, 
   .intOrphan, .intUnmatched, .intEthFcs, .intOverflow, .intTdmSync, .proRx, .proTx, .proMacsecDrop, .proBad, 
   .proDuplicate, .proBusy, .proResultTrunc, .proFailover, .proSyncLoss, .xwFecCorr, .xwFecUncorr]

def cntList2 : List Cnt :=
  [.xwAuthFail, .xwReplay, .xwBadBlock, .xwLaneSwap, .xwPortSwap, .xwRelay, .xwRefused, .xwHoldOut, .xwMemberLost, 
   .secBadSig, .secNotPermitted, .secFreeze, .secThaw, .secWithheld, .secJournalFull, .secBootFallback, 
   .pwrEntry, .pwrWake, .pwrReset, .pwrRunEnded, .pwrIdle, .pwrOpChange, .pwrThrottle, .pwrTimeRun, .pwrTimeIdle, 
   .svcAdmit, .svcRun, .svcTrigDrop, .svcGaleDrop, .svcCommit, .svcNotApplied, .svcLeeEntry, .svcLeeTime, 
   .svcServiceEvent, .svcHoldAlarm, .svcPlaneTestFail, .svcOverflow]

/-- All counters in order. -/
def cntList : List Cnt := cntList0 ++ cntList1 ++ cntList2

end Sys2Proof.Machine
end

