-- ==== Sys2Proof/Machine/Ops.lean ====
section
/-! DEFINITION. The named operations over memories, tags, parameters, counters, packets and events. Every meaning reads and
writes the state through them. A meaning's writes into the memories are issued into `wq`; the command's end applies them. -/

namespace Sys2Proof.Machine

/-! ### Status codes (Table 13.7) -/

inductive KS where
  | ok | badPacket | badVersion | badType | badReserved | duplicateId | pending | busy | badSequence | epochChanged
  | notPermitted | badSignature | journalFull | frozen
  | unknownId | readOnly | badValue | notApplied
  | badList | badOpcode | badFormat | badShape | badStage | badHandle | badDescriptor | badPage | noResource | noBundle
  | noJob
  | addressFault | windowFault | planeFault | tileFrozen | mutualWait | stallLimit | packOverrun | packPadding
  | packFormat | aborted | hbmFault | flashFault
  | slotFull | slotEmpty
  | leeMode | powerState | galeRate | groupMismatch | groupHeld
  deriving DecidableEq, Repr

/-- The 16-bit value of a status (Table 13.7). -/
def KS.code : KS → Nat
  | .ok => 0x0000 | .badPacket => 0x0101 | .badVersion => 0x0102 | .badType => 0x0103 | .badReserved => 0x0104
  | .duplicateId => 0x0105 | .pending => 0x0106 | .busy => 0x0107 | .badSequence => 0x0108 | .epochChanged => 0x0109
  | .notPermitted => 0x0201 | .badSignature => 0x0202 | .journalFull => 0x0203 | .frozen => 0x0204
  | .unknownId => 0x0301 | .readOnly => 0x0302 | .badValue => 0x0303 | .notApplied => 0x0304
  | .badList => 0x0401 | .badOpcode => 0x0402 | .badFormat => 0x0403 | .badShape => 0x0404 | .badStage => 0x0405
  | .badHandle => 0x0406 | .badDescriptor => 0x0407 | .badPage => 0x0408 | .noResource => 0x0409
  | .noBundle => 0x040A | .noJob => 0x040B
  | .addressFault => 0x0501 | .windowFault => 0x0502 | .planeFault => 0x0503 | .tileFrozen => 0x0504
  | .mutualWait => 0x0505 | .stallLimit => 0x0506 | .packOverrun => 0x0507 | .packPadding => 0x0508
  | .packFormat => 0x0509 | .aborted => 0x050A | .hbmFault => 0x050B | .flashFault => 0x050C
  | .slotFull => 0x0601 | .slotEmpty => 0x0602
  | .leeMode => 0x0701 | .powerState => 0x0702 | .galeRate => 0x0703 | .groupMismatch => 0x0704
  | .groupHeld => 0x0705

/-! ### The frame of every meaning -/

/-- Apply one write. -/
def Mem.write1 (m : Mem) : Wr → Mem
  | .data a b => { m with bytes := SMap.put 0 m.bytes a b }
  | .tag w b => { m with wtags := SMap.put 0 m.wtags w b }
  | .flaw k b => { m with flaws := SMap.put 0 m.flaws k b }

/-- Apply writes, oldest first. -/
def Mem.apply (m : Mem) : List Wr → Mem
  | [] => m
  | w :: ws => Mem.apply (m.write1 w) ws

/-- The canonical form of the memories. -/
def Mem.wf (m : Mem) : Bool := SMap.wf 0 m.bytes && SMap.wf 0 m.wtags && SMap.wf 0 m.flaws

/-- The write puts data into word `w`. -/
def Wr.hits (w : Nat) : Wr → Bool
  | .data a _ => a / 32 == w
  | _ => false

/-- The control state once its writes are applied: none is left, and a write-back that waits for a written word is dropped
(R245). -/
def Ctl.settle (c : Ctl) : Ctl :=
  { c with wq := [], store := { c.store with writeBacks := c.store.writeBacks.filter fun w => !c.wq.any (Wr.hits w) } }

/-- Every stored byte is lost (Table 16.4): used by entries and resets through erasing writes. -/
def Mem.eraseWrites (m : Mem) (keep : Nat → Bool) : List Wr :=
  ((m.bytes.filter fun p => !keep p.1).map fun p => Wr.data p.1 0)
    ++ ((m.wtags.filter fun p => !keep (32 * p.1)).map fun p => Wr.tag p.1 0)
    ++ ((m.flaws.filter fun p => !keep (32 * (p.1 / 36))).map fun p => Wr.flaw p.1 0)

/-! ### Free values -/

/-- Take the next free value (log entry 3). -/
def takeFree (c : Ctl) : Nat × Ctl := (Config.free c.freeIx, { c with freeIx := c.freeIx + 1 })

/-! ### The device address map (R29, R335) -/

def hbmEnd : Nat := 0x000C00000000
def flashBase : Nat := 0x004000000000
def flashEnd : Nat := 0x008000000000
def tileBase (t : Nat) : Nat := 0x00F000000000 + t * 0x01000000
def tileBytes : Nat := 0xC00000
def cstBase : Nat := 0x00F100000000
def cstBytes : Nat := 0x2000000

/-- A range of the map of Table 1.4; the range an address lies in. -/
inductive Region where
  | hbm | flash | tile (t : Nat) | common | none
  deriving DecidableEq, Repr

def regionOf (a : Nat) : Region :=
  if a < hbmEnd then .hbm
  else if flashBase ≤ a ∧ a < flashEnd then .flash
  else if 0x00F000000000 ≤ a ∧ a < 0x00F010000000 ∧ (a - 0x00F000000000) % 0x01000000 < tileBytes then
    .tile ((a - 0x00F000000000) / 0x01000000)
  else if cstBase ≤ a ∧ a < cstBase + cstBytes then .common
  else .none

/-- The store copy of a substitution holds back accesses to its tile's store (R541). -/
def Ctl.copyHolds (c : Ctl) (a : Nat) : Bool := match c.plane.copying, regionOf a with | some t, .tile u => t == u | _, _ => false

def alignUp (a n : Nat) : Nat := cdiv a n * n
/-- An aperture address holds an installed bundle, in whole 2 MiB, or one removed and not yet erased (R350, R361). -/
def Ctl.installed (c : Ctl) (a : Nat) : Bool :=
  c.store.removed.any (fun r => r.1 ≤ a && a < r.1 + alignUp r.2 0x200000) ||
  c.store.bundles.any fun b => b.kind == 0 && b.base ≤ a && a < b.base + alignUp b.size 0x200000
/-- Store number of an address: logical tile, 16 for the common store. -/
def storeOf (a : Nat) : Option Nat :=
  match regionOf a with
  | .tile t => some t
  | .common => some 16
  | _ => none

/-- Base address of store `n`. -/
def storeBase (n : Nat) : Nat := if n < 16 then tileBase n else cstBase
def storeBytes (n : Nat) : Nat := if n < 16 then tileBytes else cstBytes

/-- In-service bank and row of a word of a store (R231, R232). -/
def bankOf (store offset : Nat) : Nat × Nat :=
  let w := offset / 32
  if store < 16 then
    (bits w 5 0 ^^^ (bits w 11 6 ^^^ bits w 17 12 ^^^ bits w 18 18), bits w 18 6)
  else (bits w 4 0 ^^^ bits w 9 5 ^^^ bits w 14 10 ^^^ bits w 19 15, bits w 19 5)

/-- Where an HBM address lies (R335): device pseudo-channel, bank, row. -/
def hbmPlace (a : Nat) : Nat × Nat × Nat :=
  let stack := if 0x000600000000 ≤ a then 1 else 0
  let o := a - stack * 0x000600000000
  let u := o / 512
  let pc := bits u 4 0 ^^^ bits u 9 5 ^^^ bits u 14 10
  let v := u / 32
  (32 * stack + pc, v / 2 % 48, v / 96)

/-- The key of an HBM row. -/
def rowKey (a : Nat) : Nat := let (pc, b, r) := hbmPlace a; (pc * 48 + b) * 16384 + r
/-- Addresses of `n` words from `a`, one in each chunk of 512 bytes (R335). -/
def hbmChunks (a n : Nat) : List Nat :=
  (List.range ((a + 32 * n + 511) / 512 - a / 512)).map fun i => max a ((a / 512 + i) * 512)
/-- A range reaches a pseudo-channel that failed (R348). -/
def Ctl.hbmFailed (c : Ctl) (a n : Nat) : Bool := (hbmChunks a n).any fun b => c.store.failed.contains (hbmPlace b).1
/-- A transfer in flight of tile `t`'s engine writes one of `n` bytes from address `a`, or, before a write of them, reads one
(R340). -/
def Ctl.inFlight (c : Ctl) (t a n : Nat) (write : Bool) : Bool :=
  let meets (b k : Nat) : Bool := a < b + 32 * k && b < a + n
  c.xfers.any fun x => x.tile == t && !x.listRead && (meets x.dst x.words || (write && meets x.src x.words))

/-! ### The stored word (R233 to R236) -/

/-- Multiplication by α in GF(2⁸) with x⁸ + x⁴ + x³ + x² + 1. -/
def gfX (a : Nat) : Nat := if a < 128 then 2 * a else (2 * a) % 256 ^^^ 0x1D
/-- Multiplication in GF(2⁸): `a` times the low `k` bits of `b`. -/
def gfMul (a b : Nat) : Nat → Nat
  | 0 => 0
  | k + 1 => (if bit b k then (Nat.iterate gfX k a) else 0) ^^^ gfMul a b k
/-- The check symbols c₂, c₁, c₀ of 32 data bytes and a tag byte: the remainder by
(x + 1)(x + α)(x + α²) = x³ + 7 x² + 14 x + 8 (R233). -/
def checkSymbols (data : List Byte) (tag : Byte) : List Byte :=
  let stepR (r : Nat × Nat × Nat) (d : Nat) : Nat × Nat × Nat :=
    let f := r.1 ^^^ d
    (r.2.1 ^^^ gfMul f 7 8, r.2.2 ^^^ gfMul f 14 8, gfMul f 8 8)
  let r := ((data.take 32).map (·.toNat) ++ [tag.toNat]).foldl stepR (0, 0, 0)
  [byte r.1, byte r.2.1, byte r.2.2]

/-- What a read of a word finds. -/
inductive Found where
  | clean | corrected | uncorrectable
  deriving DecidableEq, Repr

/-- A word as delivered: data, tag byte, and what the check found. -/
structure WordRead where
  data : List Byte
  tag : Nat
  found : Found
  deriving DecidableEq, Repr

def Mem.byteAt (m : Mem) (a : Nat) : Byte := SMap.get 0 m.bytes a
def Mem.tagAt (m : Mem) (w : Nat) : Byte := SMap.get 0 m.wtags w
/-- The error of symbol `i` of word `w`. -/
def Mem.flawAt (m : Mem) (w i : Nat) : Byte := SMap.get 0 m.flaws (36 * w + i)
/-- The stored data bytes with their errors. -/
def Mem.rawData (m : Mem) (w : Nat) : List Byte := (List.range 32).map fun i => m.byteAt (32 * w + i) ^^^ m.flawAt w i
/-- Symbols in error of a word. -/
def Mem.errors (m : Mem) (w : Nat) : Nat := ((List.range 36).filter fun i => m.flawAt w i ≠ 0).length

/-- The read of word `w`: corrected, or delivered with POISON (bit 3 of the tag) (R234, R236). Three or more errors may be
detected, or corrected to a wrong word: the outcome and that word are free values. -/
def Mem.readWord (m : Mem) (w : Nat) : WordRead :=
  let tag := (m.tagAt w).toNat
  let good := { data := (List.range 32).map fun i => m.byteAt (32 * w + i), tag := tag, found := Found.clean : WordRead }
  let badTag := 16 ≤ tag || tag % 8 == 7
  let poisoned (t : Nat) : WordRead :=
    { data := m.rawData w, tag := (if t % 8 = 7 then 0 else t % 8) + 8, found := .uncorrectable }
  if m.errors w = 0 then (if badTag then poisoned tag else good)
  else if m.errors w = 1 then (if badTag then poisoned tag else { good with found := .corrected })
  else if m.errors w = 2 then poisoned (tag ^^^ (m.flawAt w 35).toNat)
  else
    let seed := 4096 * w + leNat ((List.range 36).map fun i => m.flawAt w i)
    let t := Config.free (seed + 33) % 14
    if Config.free seed % 2 = 0 then poisoned (tag ^^^ (m.flawAt w 35).toNat)
    else
      -- a word of the code: its tag has no reserved FORMAT
      { data := (List.range 32).map fun i => byte (Config.free (seed + i + 1)), tag := if t < 7 then t else t + 1,
        found := .corrected }

def WordRead.poison (r : WordRead) : Bool := 8 ≤ r.tag
def WordRead.format (r : WordRead) : Nat := r.tag % 8

/-- The 32 data bytes of word `w`, as delivered. -/
def Mem.words (m : Mem) (w n : Nat) : List WordRead := (List.range n).map fun i => m.readWord (w + i)
/-- `n` bytes from an address, as delivered. -/
def Mem.bytesAt (m : Mem) (a n : Nat) : List Byte :=
  slice ((m.words (a / 32) (cdiv (a % 32 + n) 32)).flatMap (·.data)) (a % 32) n
/-- A little-endian number of `n` bytes. -/
def Mem.le (m : Mem) (a n : Nat) : Nat := leNat (m.bytesAt a n)
/-- A byte as delivered, without reading the whole word's list; none where its word is poisoned. -/
def Mem.element (m : Mem) (a : Nat) : Option Byte :=
  let r := m.readWord (a / 32)
  if r.poison then none else some (r.data.getD (a % 32) 0)

/-! ### Issuing writes -/

def emit (ws : List Wr) (c : Ctl) : Ctl := { c with wq := c.wq ++ ws }

/-- A write of a whole word with a fresh check code (R235). -/
def wholeWord (w : Nat) (data : List Byte) (tag : Nat) : List Wr :=
  ((List.range 32).map fun i => Wr.data (32 * w + i) (data.getD i 0)) ++ [Wr.tag w (byte tag)]
    ++ (List.range 36).map fun i => Wr.flaw (36 * w + i) 0

/-- A write of part of a word: FORMAT and POISON stay; a word read uncorrectable is stored poisoned (R235, R238). -/
def partWord (m : Mem) (a : Nat) (data : List Byte) : List Wr :=
  let w := a / 32
  let own := (List.range data.length).map fun i => Wr.data (a + i) (data.getD i 0)
  let r := m.readWord w
  if r.found = .clean then own else wholeWord w r.data r.tag ++ own

/-- A write of a run of bytes: whole words take FORMAT `fmt` and POISON from `poison`, parts of words merge. -/
def runWrite (m : Mem) (a : Nat) (data : List Byte) (fmt : Nat) (poison : Bool) : List Wr :=
  let w0 := a / 32
  (List.range (cdiv (a % 32 + data.length) 32)).flatMap fun i =>
    let lo := max a (32 * (w0 + i))
    let hi := min (a + data.length) (32 * (w0 + i) + 32)
    let d := slice data (lo - a) (hi - lo)
    if hi - lo = 32 then wholeWord (w0 + i) d (fmt + 8 * b2n poison)
    else partWord m lo d ++ (if poison then [Wr.tag (w0 + i) (byte ((m.readWord (w0 + i)).format + 8))] else [])

/-- Words that a write of `n` bytes from address `a` takes in part: it reads them to merge (R238). -/
def mergedWords (a n : Nat) : List Nat :=
  if n = 0 then []
  else (if a % 32 = 0 ∧ 32 ≤ n then [] else [a / 32])
    ++ (if (a + n) % 32 = 0 ∨ (a + n) / 32 = a / 32 then [] else [(a + n) / 32])

/-- The write-back of a corrected or poisoned word (R245, R246). -/
def writeBack (m : Mem) (w : Nat) : List Wr := let r := m.readWord w; wholeWord w r.data r.tag

/-! ### Parameters -/

def paramRow (id : Nat) : Option ParamRow := paramRows.find? fun r => r.first ≤ id && id ≤ r.last
def paramDefault (id : Nat) : Nat := match paramRow id with | some r => r.reset | none => 0
/-- The committed value of an RW parameter. -/
def Ctl.param (c : Ctl) (id : Nat) : Nat := match c.params.find? (·.1 = id) with | some p => p.2 | none => paramDefault id
/-- Slave port of gPTP under the value `v` of PRO_PTP_PORT and the links `up`: the port named, or the other where its link is down
and the value allows it (R397). -/
def slaveOf (v : Nat) (up : List Bool) : Nat :=
  let p := b2n (bit v 0)
  if !up.getD p false && bit v 1 && up.getD (1 - p) false then 1 - p else p
/-- Commit a value; a value equal to the reset value is not listed. -/
def Ctl.setParam (c : Ctl) (id v : Nat) : Ctl :=
  { c with params := if v = paramDefault id then SMap.erase c.params id else SMap.insert c.params id v }

/-! ### Packets (R395, R396, R399, R412) -/

def addAt (m : List (Nat × Nat)) (k n : Nat) : List (Nat × Nat) := SMap.put 0 m k (SMap.get 0 m k + n)

/-- Key of instance `i` of a counter. -/
def Cnt.key (k : Cnt) (i : Nat) : Nat := i * 256 + k.ctorIdx
/-- Block that the counter of a key belongs to. -/
def blockOfKey (key : Nat) : Nat := (cntList.getD (key % 256) .svcOverflow).info.1
/-- A counter's 64-bit value as COUNTER_READ gives it (R425). -/
def Ctl.counter (c : Ctl) (k : Cnt) (i : Nat) : Nat := SMap.get 0 c.counters (k.key i)

def cntMax : Nat := 0xFFFFFFFFFFFF
/-- Events counted: the new value, and whether an event arrived at a counter already full with its overflow bit clear
(R514). Time counters are 64 bits wide (R513). -/
def countValue (time : Bool) (v n : Nat) : Nat × Bool :=
  if time then (min (v + n) (2 ^ 64 - 1), false)
  else if 2 ^ 63 ≤ v then (v, false)
  else if v + n ≤ cntMax then (v + n, false)
  else (2 ^ 63 + cntMax, true)

/-- Count without raising the overflow's own event. -/
def countRaw (k : Cnt) (i n : Nat) (c : Ctl) : Ctl :=
  { c with counters := SMap.put 0 c.counters (k.key i) (countValue k.info.2.2 (c.counter k i) n).1 }

/-- A KCP packet as it leaves: the header of Table 13.2 and the payload; a device sends no trailer (R399). -/
def Packet.bytes (p : Packet) : List Byte :=
  toBe 2 0x4B43 ++ [1, byte p.kind] ++ toBe 2 p.flags ++ toBe 2 (32 + p.payload.length) ++ toBe 4 p.reqId ++ toBe 2 p.status
    ++ [byte p.role, 0] ++ toBe 8 p.epoch ++ toBe 4 0 ++ toBe 2 0 ++ toBe 2 0 ++ p.payload
/-- The address of a port, of the family of the peer `to'`: an IPv4 one is mapped (R393, R395). -/
def portAddr (c : Ctl) (port to' : Nat) : Nat :=
  if to' / 2 ^ 32 = 0xFFFF then 0xFFFF * 2 ^ 32 + bits (c.param (0x0D12 + port)) 31 0 else bits (c.param (0x0D14 + port)) 127 0

/-- Send a packet on its port; a port without a secure association passes none (R394). -/
def send (p : Packet) (c : Ctl) : Ctl :=
  if c.proto.sa.getD p.dst.port false then
    let pn := c.proto.txPn.getD p.dst.port 0 + 1
    countRaw .proTx p.dst.port 1
      { c with proto := { c.proto with sent := c.proto.sent ++ [p], txPn := c.proto.txPn.set p.dst.port pn,
                                       wire := c.proto.wire ++ (if p.kind < 256 then [(p.dst.port, p.bytes)] else []) } }
  else c

/-- Destination of events: PRO_EVENT_DEST on the active port (R396). -/
def eventDest (c : Ctl) : List Peer :=
  let v := c.param 0x0D16
  if bit v 144 then [{ port := c.proto.active, addr := bits v 127 0, udp := bits v 143 128 }] else []

/-- The 64-byte payload of an EVENT (R412). -/
def eventPayload (c : Ctl) (code job status list idx tag : Nat) (detail : List Byte) : List Byte :=
  toBe 2 code ++ toBe 2 job ++ toBe 2 status ++ [byte list, 0] ++ toBe 4 idx ++ toBe 2 tag ++ [0, 0]
    ++ toBe 8 c.clk.device ++ toBe 8 c.proto.epoch ++ slice detail 0 32

/-- Send an EVENT to PRO_EVENT_DEST and to further peers on the active port (R396, R412). Its REQ_ID is the sender's choice: a
free value, the same in every copy (Table 13.2; log entries 28 and 29). -/
def event (code job status list idx tag : Nat) (detail : List Byte) (more : List Peer) (c : Ctl) : Ctl :=
  let pl := eventPayload c code job status list idx tag detail
  let more := more.map fun p => { p with port := c.proto.active }
  let (id, c) := takeFree c
  ((eventDest c ++ more).eraseDups).foldl (fun c d =>
    send { dst := d, src := portAddr c d.port d.addr, srcUdp := c.param 0x0D00, kind := 0x21, flags := 6, reqId := id % 2 ^ 32, status := status, role := 0, epoch := c.proto.epoch,
           payload := pl } c) c

/-- The limit of one service event of a kind for an instance of a block in any 1 s has passed (R503). -/
def mayReport (c : Ctl) (kind block inst : Nat) : Bool :=
  let last := SMap.get 0 c.proto.serviceSent ((kind * 256 + block) * 2 ^ 32 + inst)
  !(last ≠ 0 && c.clk.ns < last + 999999999)
/-- A service event (R503): at most one of a kind for an instance in any 1 s; each one sent is counted. -/
def serviceEvent (kind block inst value : Nat) (c : Ctl) : Ctl :=
  let k := (kind * 256 + block) * 2 ^ 32 + inst
  if !mayReport c kind block inst then c
  else
    let c := { c with proto := { c.proto with serviceSent := SMap.put 0 c.proto.serviceSent k (c.clk.ns + 1) } }
    let detail := toBe 2 kind ++ [byte block, 0] ++ toBe 4 inst ++ toBe 8 value ++ List.replicate 16 0
    event 3 0 0 0 0 0 detail [] (countRaw .svcServiceEvent 0 1 c)

/-- Index of an instance in COUNTER_READ order within its block (R425). -/
def counterIndex (k : Cnt) (i : Nat) : Nat :=
  ((cntList.take k.ctorIdx).filter fun j => j.info.1 = k.info.1).foldl (fun a j => a + j.info.2.1) i

/-- Count `n` events at an instance of a counter (R513, R514). -/
def count (k : Cnt) (i n : Nat) (c : Ctl) : Ctl :=
  if n = 0 then c
  else
    let full := (countValue k.info.2.2 (c.counter k i) n).2
    let c := countRaw k i n c
    if full then countRaw .svcOverflow 0 1 (serviceEvent 9 k.info.1 (counterIndex k i) 0 c) else c

/-- The counters that a packet or a report counts by itself. -/
def ownCounters : List (Cnt × Nat) := [(.proTx, 0), (.proTx, 1), (.svcServiceEvent, 0), (.svcOverflow, 0)]
/-- Those whose overflow bit a command has set. -/
def overflowed (before after : Ctl) : List (Cnt × Nat) :=
  ownCounters.filter fun k => !bit (before.counter k.1 k.2) 63 && bit (after.counter k.1 k.2) 63
/-- The overflow of a packet's or a report's own counter is reported and counted as any other, after the command (R514): each
once, since its bit stays set. -/
def reportOverflows (before : Ctl) : Nat → Ctl → Ctl
  | 0, c => c
  | n + 1, c =>
    let l := overflowed before c
    if l = [] then c
    else reportOverflows c n (l.foldl (fun c k => countRaw .svcOverflow 0 1 (serviceEvent 9 k.1.info.1 (counterIndex k.1 k.2) 0 c)) c)
/-- Run a command's effect: the control state after it, and the writes it issued applied to the memories. -/
def State.run (f : Mem → Ctl → Ctl) (s : State) : State :=
  let c := f s.mem s.ctl
  { s with mem := s.mem.apply c.wq, ctl := (reportOverflows s.ctl 4 c).settle }

/-- A wear threshold first reached: reported once (R504), as soon as the limit of R503 allows. -/
def wearEvent (code block inst value : Nat) (c : Ctl) : Ctl :=
  if c.proto.wearSent.contains code then c
  else
    let c := { c with proto := { c.proto with wearSent := c.proto.wearSent ++ [code] } }
    if mayReport c 8 block inst then serviceEvent 8 block inst value c
    else { c with proto := { c.proto with wearDue := c.proto.wearDue ++ [(block, inst, value)] } }
/-- A wear report that had to wait goes out. -/
def flushWear (c : Ctl) : Ctl :=
  match c.proto.wearDue.find? fun w => mayReport c 8 w.1 w.2.1 with
  | some w => serviceEvent 8 w.1 w.2.1 w.2.2 { c with proto := { c.proto with wearDue := c.proto.wearDue.erase w } }
  | none => c

/-! ### Slot tags (R253 to R257) -/

def tagKey (store tag : Nat) : Nat := store * 8192 + tag
def Ctl.slotFull (c : Ctl) (k : Nat) : Bool := bit (SMap.get 0 c.slotTags k) 0
def Ctl.slotVoided (c : Ctl) (k : Nat) : Bool := bit (SMap.get 0 c.slotTags k) 1
/-- Give a slot tag a value, and note the time of the change. -/
def setTag (k v : Nat) (c : Ctl) : Ctl :=
  { c with slotTags := SMap.put 0 c.slotTags k v, tagTimes := SMap.put 0 c.tagTimes k c.clk.ns }
/-- Set a slot full; a slot already full keeps its state (R256). -/
def setFull (k : Nat) (c : Ctl) : Ctl := if c.slotFull k then c else setTag k 1 c
/-- Set a slot full with VOIDED = 1 (R257). -/
def setVoided (k : Nat) (c : Ctl) : Ctl := setTag k 3 c
/-- Set a slot empty, which clears VOIDED (R256, R257). -/
def setEmpty (k : Nat) (c : Ctl) : Ctl := if c.slotFull k then setTag k 0 c else c
def setAll (f : Nat → Ctl → Ctl) (ks : List Nat) (c : Ctl) : Ctl := ks.foldl (fun c k => f k c) c

/-- The stores a handle's parts lie in (R250): all 16 tiles, or the home tile; none for HBM. -/
def Handle.tiles (h : Handle) : List Nat := if h.place = 0 then List.range 16 else if h.place = 1 then [h.home] else []
/-- Tag keys of slot `s` of a handle, one a part. -/
def Handle.slotKeys (h : Handle) (s : Nat) : List Nat := h.tiles.map fun t => tagKey t (h.tagBase + s)
/-- Part `k` of slot `s`, written in part, is set full with VOIDED = 1; a slot counts once, not once for each part (R257). -/
def voidPart (h : Handle) (s k : Nat) (c : Ctl) : Ctl :=
  if c.slotFull k then c
  else if (h.slotKeys s).any c.slotVoided then setVoided k c else count .tstSlotVoided 0 1 (setVoided k c)
/-- Tag key of slot `s` in the part that tile `t` uses. -/
def Handle.slotKey (h : Handle) (t s : Nat) : Nat := tagKey (if h.place = 1 then h.home else t) (h.tagBase + s)
/-- Device address of byte `o` of the part that tile `t` uses. -/
def Handle.addr (h : Handle) (t o : Nat) : Nat := tileBase (if h.place = 1 then h.home else t) + h.base + o
def Handle.bytes (h : Handle) : Nat := h.slotBytes * h.slotCount
/-- Every part of a slot is full (R250). -/
def Ctl.handleFull (c : Ctl) (h : Handle) (s : Nat) : Bool := (h.slotKeys s).all c.slotFull

/-! ### Time -/

/-- The control domain's µs (R261). -/
def Ctl.us (c : Ctl) : Nat := c.clk.ns / 1000
/-- The command ports take requests: RUN, IDLE, or an entry that has not reached its state (R483, R489). -/
def Ctl.accepting (c : Ctl) : Bool :=
  c.power.stage = .on || c.power.stage = .entering || c.power.stage = .powerDown

/-! ### Lists of numbered things -/

def Ctl.job? (c : Ctl) (no : Nat) : Option Job := c.jobs.find? (·.no = no)
def Ctl.setJob (c : Ctl) (j : Job) : Ctl := { c with jobs := c.jobs.map fun k => if k.no = j.no then j else k }
def Ctl.mapJob (c : Ctl) (no : Nat) (f : Job → Job) : Ctl :=
  { c with jobs := c.jobs.map fun k => if k.no = no then f k else k }
/-- A master of a job's run has moved (R306). -/
def noteMove (no : Nat) (c : Ctl) : Ctl := c.mapJob no fun j => { j with moved := c.clk.ns }
def Job.handle? (j : Job) (h : Nat) : Option Handle := (j.handles.find? (·.1 = h)).map (·.2)
def Ctl.intake (c : Ctl) (n : Nat) : Intake := SMap.get Intake.off c.intakes n
/-- Since when the oldest blocked write of a context waits. -/
def Intake.waitSince (x : Intake) : Option Nat := (x.ended.head?.map (·.since)).orElse fun _ => x.blocked
def Ctl.setIntake (c : Ctl) (n : Nat) (i : Intake) : Ctl := { c with intakes := SMap.put Intake.off c.intakes n i }
def Ctl.tile (c : Ctl) (p : Nat) : Tile := c.tiles.getD p (Tile.factory 17)
def Ctl.setTile (c : Ctl) (p : Nat) (t : Tile) : Ctl := { c with tiles := c.tiles.set p t }
/-- Physical tile of a logical tile. -/
def Ctl.physical (c : Ctl) (t : Nat) : Option Nat := (List.range 18).find? fun p => (c.tile p).logical = some t
def Ctl.bank (c : Ctl) (k : Nat) : Bank := SMap.get Bank.reset c.store.banks k
def Ctl.setBank (c : Ctl) (k : Nat) (b : Bank) : Ctl :=
  { c with store := { c.store with banks := SMap.put Bank.reset c.store.banks k b } }
def Ctl.port (c : Ctl) (p : Nat) : XwPort := c.group.ports.getD p XwPort.reset
def Ctl.setPort (c : Ctl) (p : Nat) (x : XwPort) : Ctl := { c with group := { c.group with ports := c.group.ports.set p x } }
def Ctl.withPlane (c : Ctl) (f : Plane → Plane) : Ctl := { c with plane := f c.plane }
def Ctl.withStore (c : Ctl) (f : Store → Store) : Ctl := { c with store := f c.store }
def Ctl.withProto (c : Ctl) (f : Proto → Proto) : Ctl := { c with proto := f c.proto }
def Ctl.withSec (c : Ctl) (f : Sec → Sec) : Ctl := { c with sec := f c.sec }
def Ctl.withPower (c : Ctl) (f : Power → Power) : Ctl := { c with power := f c.power }
def Ctl.withGroup (c : Ctl) (f : Group → Group) : Ctl := { c with group := f c.group }
def Ctl.withPins (c : Ctl) (f : Pins → Pins) : Ctl := { c with pins := f c.pins }

/-- Spare tiles: not retired, not frozen, holding no logical number (R107, Table 3.6). -/
def Ctl.spares (c : Ctl) : List Nat :=
  (List.range 18).filter fun p =>
    let t := c.tile p
    t.logical.isNone && !t.retired && !t.frozen && !t.testing
/-- Logical tiles in service (R109). -/
def Ctl.inService (c : Ctl) : Nat := ((List.range 18).filter fun p => (c.tile p).logical.isSome).length
/-- Ring order: logical numbers met along the physical path, from logical tile 0 (R107, Table 3.6). -/
def Ctl.ringOrder (c : Ctl) : List Nat :=
  let l := (List.range 18).filterMap fun p => (c.tile p).logical
  let k := l.findIdx (· = 0)
  l.drop k ++ l.take k
/-- Ring position of a logical tile. -/
def Ctl.ringPos (c : Ctl) (t : Nat) : Nat := c.ringOrder.findIdx (· = t)

/-! ### Corrections and uncorrectable words (R245, R246, R338, R501) -/

/-- 24 hours in ns. -/
def dayNs : Nat := 86400000000000
/-- The part of a log of (key, time) that lies in the last 24 hours. -/
def Ctl.lastDay (c : Ctl) (l : List (Nat × Nat)) : List (Nat × Nat) := l.filter fun x => c.clk.ns < x.2 + dayNs

/-- What a read of word `w` raises besides its data: counters, the write-back, wear (R245, R246, R338). A corrected word is
counted once until its write-back; every detection of an uncorrectable one counts. -/
def noteRead (m : Mem) (w : Nat) (c : Ctl) : Ctl :=
  let r := m.readWord w
  let a := 32 * w
  if r.found = .clean ∨ (r.found = .corrected ∧ c.store.writeBacks.contains w) then c
  else
    let c := c.withStore fun s => { s with writeBacks := if s.writeBacks.contains w then s.writeBacks else s.writeBacks ++ [w] }
    match storeOf a with
    | some st =>
      let bk := st * 128 + (bankOf st (a - storeBase st)).1
      if r.found = .corrected then
        let c := if st < 16 then count .tstCorr st 1 c else count .cstCorr 0 1 c
        let c := c.withStore fun s => { s with bankCorr := c.lastDay s.bankCorr ++ [(bk, c.clk.ns)] }
        if c.param 0x0D99 < c.store.bankCorr.countP (·.1 = bk) then
          c.withStore fun s => { s with bankDue := if s.bankDue.contains bk then s.bankDue else s.bankDue ++ [bk] }
        else c
      else
        let c := if st < 16 then count .tstUncorr st 1 c else count .cstUncorr 0 1 c
        let old := c.store.bankUncorr.filter fun x => c.clk.ns < x.2.2 + dayNs && x.2.1 ≠ w
        let c := c.withStore fun s => { s with bankUncorr := old ++ [(bk, w, c.clk.ns)] }
        if 2 ≤ c.store.bankUncorr.countP (·.1 = bk) then
          c.withStore fun s => { s with bankDue := if s.bankDue.contains bk then s.bankDue else s.bankDue ++ [bk] }
        else c
    | none =>
      if regionOf a = .hbm then
        let stack := (hbmPlace a).1 / 32
        let k := rowKey a
        let due (c : Ctl) : Ctl :=
          c.withStore fun s => { s with repairDue := if s.repairDue.contains k then s.repairDue else s.repairDue ++ [k] }
        if r.found = .corrected then
          let c := (count .hbmCorr stack 1 c).withStore fun s => { s with rowCorr := c.lastDay s.rowCorr ++ [(k, c.clk.ns)] }
          if c.param 0x0B01 ≤ c.store.rowCorr.countP (·.1 = k) then due c else c
        else due (count .hbmUncorr stack 1 c)
      else c

def noteReads (m : Mem) (ws : List Nat) (c : Ctl) : Ctl := ws.foldl (fun c w => noteRead m w c) c

/-- Write a run of bytes: the words that it merges with are read (R238, R245, R246). -/
def emitRun (m : Mem) (a : Nat) (data : List Byte) (fmt : Nat) (poison : Bool) (c : Ctl) : Ctl :=
  emit (runWrite m a data fmt poison) (noteReads m (mergedWords a data.length) c)

/-- Writes that put environment upsets into the stored words. -/
def upsetWrites (m : Mem) (us : List Upset) : List Wr :=
  us.map fun u => Wr.flaw (36 * (u.word / 32) + u.symbol % 36) (m.flawAt (u.word / 32) (u.symbol % 36) ^^^ u.flip)

/-- The memories with the upsets in place, and the upsets issued. -/
def withUpsets (us : List Upset) (f : Mem → Ctl → Ctl) (m : Mem) (c : Ctl) : Ctl :=
  let ws := upsetWrites m us
  f (m.apply ws) (emit ws c)

end Sys2Proof.Machine
end

