-- ==== Sys2Proof/Machine/Float.lean ====
section
/-! DEFINITION. Exact rational arithmetic with one rounding, binary32 and binary16 (02_spiral_numbers.md R55 to R59,
R69, R71, R72; 05_matrix_vector_ops.md R156 to R158). Every rounding is to nearest, ties away from zero. -/

namespace Sys2Proof.Machine

/-- An exact rational, `num / den` with `den` above 0; not kept in lowest terms. -/
structure Q where
  num : Int
  den : Nat
  deriving DecidableEq, Repr

def Q.ofInt (i : Int) : Q := ⟨i, 1⟩
def Q.add (a b : Q) : Q := ⟨a.num * b.den + b.num * a.den, a.den * b.den⟩
def Q.neg (a : Q) : Q := ⟨-a.num, a.den⟩
def Q.sub (a b : Q) : Q := a.add b.neg
def Q.mul (a b : Q) : Q := ⟨a.num * b.num, a.den * b.den⟩
def Q.abs (a : Q) : Q := ⟨(a.num.natAbs : Int), a.den⟩
/-- The exact quotient; 0 where the divisor is 0. -/
def Q.div (a b : Q) : Q :=
  if b.num = 0 then ⟨0, 1⟩ else ⟨a.num * b.den * b.num.sign, a.den * b.num.natAbs⟩
def Q.lt (a b : Q) : Bool := decide (a.num * b.den < b.num * a.den)
def Q.le (a b : Q) : Bool := decide (a.num * b.den ≤ b.num * a.den)
def Q.eq (a b : Q) : Bool := decide (a.num * b.den = b.num * a.den)
/-- `i × 2^e`, exactly. -/
def Q.dyadic (i : Int) (e : Int) : Q :=
  if 0 ≤ e then ⟨i * (2 : Int) ^ e.toNat, 1⟩ else ⟨i, 2 ^ (-e).toNat⟩
/-- The largest integer not above the value. -/
def Q.floor (a : Q) : Int := a.num.fdiv a.den
/-- Round to an integer, ties away from zero (R59). -/
def Q.round (a : Q) : Int := a.num.sign * (((2 * a.num.natAbs + a.den) / (2 * a.den) : Nat) : Int)

/-- floor(log2 (n / d)) of a positive fraction: the exponent e with 2^e ≤ n / d < 2^(e + 1). -/
def log2Frac (n d : Nat) : Int :=
  let e : Int := (Nat.log2 n : Int) - (Nat.log2 d : Int)
  let ge (k : Int) : Bool := (Q.dyadic 1 k).le ⟨n, d⟩
  if ge (e + 1) then e + 1 else if ge e then e else e - 1

/-- Round a positive fraction to `p` significant bits with the smallest unit in the last place 2^`umin`, ties away from
zero: the bit pattern without sign, which overflows past the largest exponent by itself (R55, R72). -/
def roundMag (p : Nat) (umin : Int) (n d : Nat) : Nat :=
  let u := max (log2Frac n d - ((p : Int) - 1)) umin
  let m := ((Q.mul ⟨n, d⟩ (Q.dyadic 1 (-u))).round).toNat
  if m = 0 then 0 else (u - umin).toNat * 2 ^ (p - 1) + m

/-- A value on its way into a rounding: void, an infinity, or exact. -/
inductive Val where
  | void
  | inf (neg : Bool)
  | num (q : Q)
  deriving DecidableEq, Repr

/-- The binary32 void encoding (Table 2.7). -/
def f32Void : F32 := 0x7FC00001#32
/-- The largest finite binary32 value (R57). -/
def f32Max : F32 := 0x7F7FFFFF#32

/-- Any NaN is void on input (R68). -/
def f32IsVoid (x : F32) : Bool := 0x7F800000 < x.toNat % 0x80000000
def f32IsInf (x : F32) : Bool := x.toNat % 0x80000000 == 0x7F800000
def f32Neg (x : F32) : Bool := 0x80000000 ≤ x.toNat

/-- The exponent and 23-bit significand field of a finite nonzero magnitude, subnormals normalised (R60). -/
def normalise (x : F32) : Int × Nat :=
  let m := x.toNat % 0x80000000
  let ex : Nat := m / 2 ^ 23
  let fr : Nat := m % 2 ^ 23
  if ex = 0 then
    let l := Nat.log2 fr
    ((l : Int) - 149, fr * 2 ^ (23 - l) % 2 ^ 23)
  else ((ex : Int) - 127, fr)

/-- The exact value of a finite binary32 pattern. -/
def f32Q (x : F32) : Q :=
  let m := x.toNat % 0x80000000
  let ex : Nat := m / 2 ^ 23
  let fr : Nat := m % 2 ^ 23
  let mag : Nat := if ex = 0 then fr else fr + 2 ^ 23
  let s : Int := if f32Neg x then -1 else 1
  Q.dyadic (s * mag) ((if ex = 0 then 1 else (ex : Int)) - 150)

/-- What a stage takes a binary32 pattern as: any NaN void, infinities as themselves, −0 as +0 (R156). -/
def f32Val (x : F32) : Val :=
  if f32IsVoid x then .void else if f32IsInf x then .inf (f32Neg x) else .num (f32Q x)

/-- Round an exact value to binary32: the pattern and the count of saturation events (R55, R57, R69). -/
def round32 (q : Q) : F32 × Nat :=
  let m := if q.num = 0 then 0 else roundMag 24 (-149) q.num.natAbs q.den
  let s : Nat := if q.num < 0 then 0x80000000 else 0
  if m = 0 then (0#32, 0)
  else if 0x7F7FFFFF < m then (BitVec.ofNat 32 (s + 0x7F7FFFFF), 1)
  else (BitVec.ofNat 32 (s + m), 0)

/-- A value as the binary32 a stage emits: no infinity passes on (R156). -/
def emit32 : Val → F32 × Nat
  | .void => (f32Void, 0)
  | .inf neg => (if neg then 0xFF7FFFFF#32 else f32Max, 1)
  | .num q => round32 q

/-- Sum, product and quotient of values with their limits; an operation without a limit gives void (R156). -/
def Val.add : Val → Val → Val
  | .void, _ | _, .void => .void
  | .inf a, .inf b => if a = b then .inf a else .void
  | .inf a, .num _ => .inf a
  | .num _, .inf b => .inf b
  | .num a, .num b => .num (a.add b)
def Val.neg : Val → Val
  | .void => .void
  | .inf a => .inf (!a)
  | .num q => .num q.neg
def Val.mul : Val → Val → Val
  | .void, _ | _, .void => .void
  | .inf a, .inf b => .inf (a != b)
  | .inf a, .num q | .num q, .inf a => if q.num = 0 then .void else .inf (a != decide (q.num < 0))
  | .num a, .num b => .num (a.mul b)
def Val.div : Val → Val → Val
  | .void, _ | _, .void => .void
  | .inf _, .inf _ => .void
  | .inf a, .num q => .inf (a != decide (q.num < 0))
  | .num _, .inf _ => .num ⟨0, 1⟩
  | .num a, .num b => if b.num = 0 then (if a.num = 0 then .void else .inf (decide (a.num < 0))) else .num (a.div b)
/-- The order of non-void values. -/
def Val.lt : Val → Val → Bool
  | .inf a, .inf b => a && !b
  | .inf a, .num _ => a
  | .num _, .inf b => !b
  | .num a, .num b => a.lt b
  | _, _ => false

/-! Stage operations on binary32 patterns, each with one rounding; the state counts saturation events. -/

/-- A computation that counts saturation events. -/
abbrev Sat := StateM Nat

def tick (r : F32 × Nat) : Sat F32 := do
  modify (· + r.2)
  return r.1
def addF (a b : F32) : Sat F32 := tick (emit32 ((f32Val a).add (f32Val b)))
def subF (a b : F32) : Sat F32 := tick (emit32 ((f32Val a).add (f32Val b).neg))
def mulF (a b : F32) : Sat F32 := tick (emit32 ((f32Val a).mul (f32Val b)))
def divF (a b : F32) : Sat F32 := tick (emit32 ((f32Val a).div (f32Val b)))
/-- An integer as binary32, rounded. -/
def ofIntF (i : Int) : F32 := (round32 (Q.ofInt i)).1

/-! ### binary16 and bfloat16 -/

/-- binary16 bits to binary32, exactly; NaNs become void. -/
def f16to32 (h : Nat) : F32 :=
  let s : Nat := if 0x8000 ≤ h % 0x10000 then 0x80000000 else 0
  let m := h % 0x8000
  if 0x7C00 < m then f32Void
  else if m = 0x7C00 then BitVec.ofNat 32 (s + 0x7F800000)
  else
    let ex : Nat := m / 1024
    let fr : Nat := m % 1024
    let q := Q.dyadic ((if ex = 0 then fr else fr + 1024 : Nat) : Int) ((if ex = 0 then 1 else (ex : Int)) - 25)
    BitVec.ofNat 32 (s + (round32 q).1.toNat)

/-- bfloat16 bits to binary32, exactly. -/
def bf16to32 (h : Nat) : F32 := BitVec.ofNat 32 (h % 0x10000 * 0x10000)

/-- An exact value to binary16 bits, saturating at ±65504 with one event from 65520 on (R71, R72). -/
def round16 (q : Q) : Nat × Nat :=
  let m := if q.num = 0 then 0 else roundMag 11 (-24) q.num.natAbs q.den
  let s : Nat := if q.num < 0 then 0x8000 else 0
  if m = 0 then (0, 0) else if 0x7BFF < m then (s + 0x7BFF, 1) else (s + m, 0)

/-- binary32 to binary16 (R72). -/
def f32to16 (x : F32) : Nat × Nat :=
  match f32Val x with
  | .void => (0x7E01, 0)
  | .inf neg => (if neg then 0xFBFF else 0x7BFF, 1)
  | .num q => round16 q

/-! ### References for the functions of Table 5.2

Fixed-point series with 128 fractional bits: their own error is far below every bound of Table 5.2. -/

def fxBits : Nat := 128
def fxOne : Int := (2 : Int) ^ fxBits
/-- ln 2 with 128 fractional bits. -/
def fxLn2 : Int := 235865763225513294137944142764154484399
/-- log2 e with 128 fractional bits. -/
def fxLog2e : Int := 490923683258796565746369346286093237521
def fxMul (a b : Int) : Int := (a * b).fdiv fxOne
def fxOf (q : Q) : Int := (q.num * fxOne).fdiv q.den
/-- exp of a fixed-point number in [0, 1), by its series. -/
def fxExp (x : Int) : Nat → Int → Int → Int
  | 0, _, acc => acc
  | k + 1, term, acc =>
    let t := (fxMul term x).fdiv (40 - (k : Int))
    fxExp x k t (acc + t)
/-- 2^x of a fixed-point x, as an exact rational near it; x is cut to ±2,000. -/
def exp2Ref (x : Int) : Q :=
  let x := max (-2000 * fxOne) (min (2000 * fxOne) x)
  let n := x.fdiv fxOne
  let f := x - n * fxOne
  let m := fxExp (fxMul f fxLn2) 40 fxOne fxOne
  (Q.dyadic m (-(fxBits : Int))).mul (Q.dyadic 1 n)
/-- atanh series: the sum of z^(2k+1)/(2k+1). -/
def fxAtanh (z2 : Int) : Nat → Nat → Int → Int → Int
  | 0, _, _, acc => acc
  | k + 1, n, p, acc => fxAtanh z2 k (n + 2) (fxMul p z2) (acc + p.fdiv (n : Int))
/-- log2 of a positive fraction, fixed-point. -/
def log2Ref (q : Q) : Int :=
  let e := log2Frac q.num.natAbs q.den
  let m := fxOf (q.mul (Q.dyadic 1 (-e)))
  let z := ((m - fxOne) * fxOne).fdiv (m + fxOne)
  e * fxOne + fxMul (2 * fxAtanh (fxMul z z) 44 1 z 0) fxLog2e
/-- e^x of an exact x. -/
def expRef (q : Q) : Q := exp2Ref (fxMul (fxOf q) fxLog2e)
/-- 1 / (1 + e^(−x)). -/
def sigmoidRef (q : Q) : Q := (Q.ofInt 1).div ((Q.ofInt 1).add (expRef q.neg))
/-- tanh x = 2 sigmoid(2x) − 1. -/
def tanhRef (q : Q) : Q := ((Q.ofInt 2).mul (sigmoidRef ((Q.ofInt 2).mul q))).sub (Q.ofInt 1)
/-- The argument of GELU's tanh: 0.7978846 (x + 0.044715 x³). -/
def geluArg (q : Q) : Q :=
  (⟨7978846, 10000000⟩ : Q).mul (q.add ((⟨44715, 1000000⟩ : Q).mul (q.mul (q.mul q))))
/-- 1 / √x with 128 more bits than a binary32 needs. -/
def rsqrtRef (q : Q) : Q :=
  let s := 2 ^ 600 * q.den / q.num.natAbs
  Q.dyadic (Nat.sqrt s) (-300)

/-- The device's own result where it lies within `bound` of the reference, else the correctly rounded reference: a free
value held inside the spec's error bound (Table 5.2; log entry 4). -/
def freeWithin (code : Nat) (x : F32) (ref bound : Q) : F32 × Nat :=
  let c := Config.approx code x
  if f32IsVoid c || f32IsInf c then round32 ref
  else if ((f32Q c).sub ref).abs.le bound then
    (if (f32Q c).num = 0 then (0#32, 0) else (c, 0))
  else round32 ref

/-- Class F: absolute 2⁻²⁰ where |result| < 1, relative 2⁻²⁰ elsewhere; `k` in place of 20 for exp2 and log2. -/
def mixedBound (k : Int) (ref : Q) : Q := (Q.dyadic 1 (-k)).mul (if ref.abs.lt (Q.ofInt 1) then Q.ofInt 1 else ref.abs)
/-- One unit in the last place of a binary32 near a value. -/
def ulpOf (ref : Q) : Q :=
  if ref.num = 0 then Q.dyadic 1 (-149) else Q.dyadic 1 (max (log2Frac ref.num.natAbs ref.den - 23) (-149))

/-- Where the argument is far out, the limit stands for the function: beyond ±2,000 nothing of the result but the limit is
left within any bound of Table 5.2. -/
def far (q : Q) : Bool := (Q.ofInt 2000).lt q.abs

/-- exp2 (Table 5.2, R157): exact for an integer whose result is a normal value. -/
def exp2F (x : F32) : Sat F32 :=
  match f32Val x with
  | .void => return f32Void
  | .inf neg => tick (if neg then (0#32, 0) else (f32Max, 1))
  | .num q =>
    if (Q.ofInt 128).le q then tick (f32Max, 1)
    else if q.lt (Q.ofInt (-200)) then return 0#32
    else if q.num % q.den = 0 && (Q.ofInt (-126)).le q then tick (round32 (Q.dyadic 1 q.floor))
    else
      let r := exp2Ref (fxOf q)
      tick (freeWithin 0x08 x r ((Q.dyadic 1 (-22)).mul r))
/-- log2 (Table 5.2, R157): exact for powers of 2. -/
def log2F (x : F32) : Sat F32 :=
  match f32Val x with
  | .void => return f32Void
  | .inf neg => if neg then return f32Void else tick (f32Max, 1)
  | .num q =>
    if q.num < 0 then return f32Void
    else if q.num = 0 then tick (0xFF7FFFFF#32, 1)
    else if (Q.dyadic 1 (log2Frac q.num.natAbs q.den)).eq q then
      return ofIntF (log2Frac q.num.natAbs q.den)
    else
      let r := Q.dyadic (log2Ref q) (-(fxBits : Int))
      tick (freeWithin 0x09 x r (mixedBound 22 r))
/-- Reciprocal within one unit in the last place (R157). -/
def recipF (x : F32) : Sat F32 :=
  match f32Val x with
  | .void => return f32Void
  | .inf _ => return 0#32
  | .num q =>
    if q.num = 0 then tick (f32Max, 1)
    else
      let r := (Q.ofInt 1).div q
      if f32Max.toNat < (if r.num = 0 then 0 else roundMag 24 (-149) r.num.natAbs r.den) then tick (round32 r)
      else tick (freeWithin 0x0A x r (ulpOf r))
/-- Square-root reciprocal within one unit in the last place (R157). -/
def rsqrtF (x : F32) : Sat F32 :=
  match f32Val x with
  | .void => return f32Void
  | .inf neg => if neg then return f32Void else return 0#32
  | .num q =>
    if q.num < 0 then return f32Void
    else if q.num = 0 then tick (f32Max, 1)
    else
      let r := rsqrtRef q
      tick (freeWithin 0x0B x r (ulpOf r))
/-- A Class F function given its limits at −∞ and +∞ and its reference (Table 5.2, R156). -/
def classF (code : Nat) (lo hi : Val) (ref : Q → Q) (x : F32) : Sat F32 :=
  match f32Val x with
  | .void => return f32Void
  | .inf neg => tick (emit32 (if neg then lo else hi))
  | .num q =>
    if far q then
      let l := if q.num < 0 then lo else hi
      match l with
      | .num r => tick (freeWithin code x r (mixedBound 20 r))
      | _ => tick (freeWithin code x q (mixedBound 20 q))
    else tick (freeWithin code x (ref q) (mixedBound 20 (ref q)))
def sigmoidF : F32 → Sat F32 := classF 0x04 (.num ⟨0, 1⟩) (.num ⟨1, 1⟩) sigmoidRef
def tanhF : F32 → Sat F32 := classF 0x05 (.num ⟨-1, 1⟩) (.num ⟨1, 1⟩) tanhRef
def geluF : F32 → Sat F32 :=
  classF 0x06 (.num ⟨0, 1⟩) (.inf false) (fun q =>
    ((⟨1, 2⟩ : Q).mul q).mul ((Q.ofInt 1).add (if (Q.ofInt 500).lt (geluArg q).abs then Q.ofInt q.num.sign else tanhRef (geluArg q))))
def siluF : F32 → Sat F32 :=
  classF 0x07 (.num ⟨0, 1⟩) (.inf false) (fun q => q.mul (sigmoidRef q))

end Sys2Proof.Machine
end

