-- ==== Sys2Proof/Machine/Spiral.lean ====
section
/-! DEFINITION. Spiral numbers: SP8, SP4, the mapped product, the inner group sum, the rescale and every conversion
(02_spiral_numbers.md R43 to R72; 07_scales_requant.md R223). -/

namespace Sys2Proof.Machine

/-- The void scale (R43). -/
def voidScale : Int := -128

/-- An SP8 code's magnitude m = 8 t + f (R44). -/
def sp8Mag (b : Byte) : Nat := b.toNat % 128
def sp8Neg (b : Byte) : Bool := 128 ≤ b.toNat
def sp8IsVoid (b : Byte) : Bool := b.toNat == 0x80
def sp8IsZero (b : Byte) : Bool := b.toNat == 0

/-- Widening of a four-bit SP4 code to SP8: m = 92 + 4 m4, zero to 0x00, void to 0x80 (R48). -/
def sp4Widen (n : Nat) : Byte :=
  let m4 := n % 8
  let s := n / 8 % 2
  if m4 = 0 then byte (s * 128) else byte (s * 128 + 92 + 4 * m4)

/-- The product table (Table 2.4). -/
def productTable (f : Nat) : Nat :=
  match f with
  | 0 => 512 | 1 => 558 | 2 => 609 | 3 => 664 | 4 => 724 | 5 => 790 | 6 => 861 | _ => 939

/-- The mapped product of two SP8 codes; none is void (R49, R52). -/
def mappedProduct (a w : Byte) : Option Int :=
  if sp8IsVoid a || sp8IsVoid w then none
  else if sp8IsZero a || sp8IsZero w then some 0
  else
    let m := sp8Mag a + sp8Mag w
    let p : Int := productTable (m % 8) * 2 ^ (m / 8)
    some (if sp8Neg a != sp8Neg w then -p else p)

/-- The inner group sum of paired elements, exact; none is void (R53, R54). -/
def innerSum : List (Byte × Byte) → Option Int
  | [] => some 0
  | (a, w) :: r =>
    match mappedProduct a w, innerSum r with
    | some p, some s => some (p + s)
    | _, _ => none

/-- The group's contribution in binary32, one rounding: S × 2^(Gₐ + G_w − 39) (R54, R55, R57). -/
def contribution (s : Option Int) (ga gw : Int) : F32 × Nat :=
  match s with
  | none => (f32Void, 0)
  | some v => if ga = voidScale ∨ gw = voidScale then (f32Void, 0) else round32 (Q.dyadic v (ga + gw - 39))

/-- The running sum takes a contribution, one rounding (R56 to R58). -/
def runningAdd (acc c : F32) : F32 × Nat :=
  if f32IsVoid acc || f32IsVoid c then (f32Void, 0) else round32 ((f32Q acc).add (f32Q c))

/-- The rounding thresholds thr[1] to thr[8] (Table 2.6). -/
def sp8Thr : List Nat := [0x5CAE1, 0x11E6DA, 0x1F1B64, 0x2D81E5, 0x3D360F, 0x4E5614, 0x6102E2, 0x756064]

/-- Conversion of a binary32 value to SP8 with group scale `g`: the byte and saturation events (R60 to R63). -/
def toSp8 (x : F32) (g : Int) : Byte × Nat :=
  let s : Nat := if f32Neg x then 128 else 0
  if g = voidScale ∨ f32IsVoid x then (0x80#8, 0)
  else if x.toNat % 0x80000000 = 0 then (0x00#8, 0)
  else if f32IsInf x then (byte (s + 127), 1)
  else
    let (e, q) := normalise x
    let t := e - g + 15
    if 16 ≤ t then (byte (s + 127), 1)
    else if t ≤ -2 then (0x00#8, 0)
    else if t = -1 then (if 0xB95C2 ≤ q then byte (s + 1) else 0x00#8, 0)
    else
      let f := ((sp8Thr.take 7).filter (· ≤ q)).length
      let m := if 0x756064 ≤ q then 8 * (t.toNat + 1) else 8 * t.toNat + f
      let m := if m = 0 then 1 else if 127 < m then 127 else m
      (byte (s + m), 0)

/-- Conversion of a binary32 value to a four-bit SP4 code with group scale `g` (R70). -/
def toSp4 (x : F32) (g : Int) : Nat × Nat :=
  let s : Nat := if f32Neg x then 8 else 0
  if g = voidScale ∨ f32IsVoid x then (8, 0)
  else if x.toNat % 0x80000000 = 0 then (0, 0)
  else if f32IsInf x then (s + 7, 1)
  else
    let (e, q) := normalise x
    let k := e - g
    -- r ≥ 2^0.5: 2^0.5 has significand field 0x3504F3.33…, so q ≥ 0x3504F4 in octave 0
    if 0 < k ∨ (k = 0 ∧ 0x3504F4 ≤ q) then (s + 7, 1)
    else if k < -4 then (0, 0)
    else if k = -4 then (s + 1, 0)
    else
      let j2 : Int := 2 * k + (if q < 0x1A827A then 0 else if q < 0x5A827A then 1 else 2)
      let m4 := (j2 + 7).toNat
      (s + min m4 7, 0)

/-- An INT8 element's value v × 2^(G − 7) in binary32, exactly (R64). -/
def int8Q (b : Byte) (g : Int) : Q := Q.dyadic b.toInt (g - 7)

/-- The operand port's conversion of an INT8 element to SP8 (R65). -/
def int8ToSp8 (b : Byte) (g : Int) : Byte := if g = voidScale then 0x80#8 else (toSp8 (round32 (int8Q b g)).1 g).1

/-- The scale the operand port sets for a group of binary32 values (R66). -/
def portScale (xs : List F32) : Int :=
  let es := xs.filterMap fun x =>
    if f32IsVoid x || f32IsInf x || x.toNat % 0x80000000 == 0 then none else some (normalise x).1
  match es with
  | [] => 0
  | e :: r => max (-127) (min 127 (r.foldl max e))

/-- 2^(i/8) to 64 significand bits: integer part of 2^(i/8) × 2^80, from which an SP8 value is rounded (R71). -/
def root8 (i : Nat) : Nat := (Nat.sqrt (Nat.sqrt (Nat.sqrt (2 ^ (i + 8 * 80)))))

/-- A reference for an SP8 element's magnitude, exact when f = 0, else within 2⁻⁷⁸ of it and never on a rounding midpoint
(R45, R71). -/
def sp8Ref (b : Byte) (g : Int) : Q :=
  let m := sp8Mag b
  let s : Int := if sp8Neg b then -1 else 1
  let e := g + (m / 8 : Nat) - 15
  if m % 8 = 0 then Q.dyadic s e else Q.dyadic (s * (2 * root8 (m % 8) + 1 : Nat)) (e - 81)

/-- SP8 to binary32 (R71). -/
def sp8To32 (b : Byte) (g : Int) : F32 :=
  if g = voidScale ∨ sp8IsVoid b then f32Void else if sp8IsZero b then 0#32 else (round32 (sp8Ref b g)).1
/-- SP8 to binary16, directly (R71). -/
def sp8To16 (b : Byte) (g : Int) : Nat × Nat :=
  if g = voidScale ∨ sp8IsVoid b then (0x7E01, 0) else if sp8IsZero b then (0, 0) else round16 (sp8Ref b g)

/-- The scale OP_S_REQUANT chooses for a group and whether it was clamped (R223). -/
def requantScale (xs : List F32) (fixed : Bool) (sarg : Int) : Int × Nat :=
  if fixed then (sarg, 0)
  else
    let es := xs.filterMap fun x =>
      if f32IsVoid x || x.toNat % 0x80000000 == 0 then none else some (normalise x).1
    match es with
    | [] => (0, 0)
    | e :: r =>
      let g := r.foldl max e + sarg
      if 127 < g then (127, 1) else if g < -127 then (-127, 1) else (g, 0)

end Sys2Proof.Machine
end

