-- ==== Sys2Proof/Machine/Packing.lean ====
section
/-! DEFINITION. P6, P4 and zero-mask blocks of 128 elements: encoders, decoders and their faults (10_packing.md R311 to
R328). -/

namespace Sys2Proof.Machine

/-- The packing fault classes in the order in which they are reported (R326, R328). -/
inductive PackFault where
  | overrun | padding | format
  deriving DecidableEq, Repr

/-- The bits of a byte, most significant first (R313). -/
def byteBits (b : Byte) : List Bool := (List.range 8).map fun i => bit b.toNat (7 - i)
def bitsNat (bs : List Bool) : Nat := bs.foldl (fun a b => 2 * a + b2n b) 0
/-- `n` as `k` bits, most significant first. -/
def natBits (k n : Nat) : List Bool := (List.range k).map fun i => bit n (k - 1 - i)
/-- Bits to bytes, most significant first, the last byte filled with zeros. -/
def packBits : Nat → List Bool → List Byte
  | 0, _ => []
  | k + 1, bs => byte (bitsNat (bs.take 8 ++ List.replicate (8 - (bs.take 8).length) false)) :: packBits k (bs.drop 8)

/-- The turn of an element. -/
def turnOf (b : Byte) : Nat := sp8Mag b / 8

/-- Raw bits after a prefix: s and f in P6, s and f[2] in P4 (R314). -/
def rawBits (p4 : Bool) (b : Byte) : List Bool :=
  sp8Neg b :: (if p4 then [bit (sp8Mag b % 8) 2] else natBits 3 (sp8Mag b % 8))

/-- The shortest element code under reference turn `top` (Table 10.3, R318). -/
def elemCode (p4 : Bool) (top : Nat) (b : Byte) : List Bool :=
  if sp8IsVoid b then [true, true, true, true, true]
  else if sp8IsZero b then [true, false]
  else if turnOf b = top then false :: rawBits p4 b
  else if turnOf b + 1 = top then [true, true, false] ++ rawBits p4 b
  else if turnOf b + 2 = top then [true, true, true, false] ++ rawBits p4 b
  else [true, true, true, true, false] ++ natBits 4 (turnOf b) ++ rawBits p4 b

/-- One element code decoded: the element and the bits left; `none` where the stream ends first, `some (none, _)` where the
prefix gives a turn below 0 (R315, R326). -/
def decodeElem (p4 : Bool) (top : Nat) (bs : List Bool) : Option (Option Byte × List Bool) :=
  let raw (t : Option Nat) (r : List Bool) : Option (Option Byte × List Bool) :=
    let k := if p4 then 2 else 4
    if r.length < k then none
    else
      let s := bitsNat (r.take 1)
      let f := if p4 then 4 * bitsNat ((r.drop 1).take 1) else bitsNat ((r.drop 1).take 3)
      some (t.map fun t => byte (s * 128 + 8 * t + f), r.drop k)
  match bs with
  | false :: r => raw (some top) r
  | true :: false :: r => some (some 0x00#8, r)
  | true :: true :: false :: r => raw (if 1 ≤ top then some (top - 1) else none) r
  | true :: true :: true :: false :: r => raw (if 2 ≤ top then some (top - 2) else none) r
  | true :: true :: true :: true :: false :: r =>
    if r.length < 4 then none else raw (some (bitsNat (r.take 4))) (r.drop 4)
  | true :: true :: true :: true :: true :: r => some (some 0x80#8, r)
  | _ => none

/-- Decode `n` element codes: the elements (`none` at a bad turn) and the bits left, or `none` at an overrun. -/
def decodeElems (p4 : Bool) (top : Nat) : Nat → List Bool → Option (List (Option Byte) × List Bool)
  | 0, bs => some ([], bs)
  | n + 1, bs =>
    match decodeElem p4 top bs with
    | none => none
    | some (e, r) =>
      match decodeElems p4 top n r with
      | none => none
      | some (es, r') => some (e :: es, r')

/-- Bits of the code stream (Table 10.2). -/
def streamBits (p4 : Bool) : Nat := if p4 then 504 else 760

/-- Decode a P6 or P4 block of 96 or 64 bytes (R315, R326, R328). -/
def decodeExp (p4 : Bool) (blk : List Byte) : Except PackFault (List Byte) :=
  let h := (blk.headD 0).toNat
  let top := h % 16
  let bs := (blk.drop 1).flatMap byteBits
  if bit h 4 then
    if top ≠ 0 ∨ bs.any id then .error .padding
    else if h / 32 ≠ 0 then .error .format
    else .ok (List.replicate 128 0x80#8)
  else
    match decodeElems p4 top 128 bs with
    | none => .error .overrun
    | some (es, r) =>
      if r.any id then .error .padding
      else if h / 32 ≠ 0 ∨ es.any Option.isNone then .error .format
      else .ok (es.map (·.getD 0))

/-- Rounding of an element to half-turns before P4, and whether a turn-15 element was clipped (R317, Table 10.5). -/
def p4Round (b : Byte) : Byte × Nat :=
  if sp8IsVoid b || sp8IsZero b then (b, 0)
  else
    let s := if sp8Neg b then 128 else 0
    let t := turnOf b
    let f := sp8Mag b % 8
    if f ≤ 2 then (byte (s + (if t = 0 then 4 else 8 * t)), 0)
    else if f ≤ 6 then (byte (s + 8 * t + 4), 0)
    else if t ≤ 14 then (byte (s + 8 * (t + 1)), 0)
    else (byte (s + 8 * 15 + 4), 1)

/-- Flush elements with turns below `top − l` to zero (R318). -/
def flushElem (top l : Nat) (b : Byte) : Byte :=
  if sp8IsVoid b || sp8IsZero b then b else if turnOf b + l < top then 0x00#8 else b

/-- What the encoder wrote: the block, flushed elements, void blocks (R318). -/
structure Packed where
  bytes : List Byte
  flushed : Nat
  blockVoid : Nat
  deriving DecidableEq, Repr

/-- The block at flush depth `l`, where it fits the budget (R318). -/
def encodeExpAt (p4 : Bool) (top : Nat) (es : List Byte) (l : Nat) : Option Packed :=
  let fl := es.map (flushElem top l)
  let code := fl.flatMap (elemCode p4 top)
  if code.length ≤ streamBits p4 then
    some { bytes := byte top :: packBits (streamBits p4 / 8) code
           flushed := ((es.zip fl).filter fun p => p.1 ≠ p.2).length
           blockVoid := 0 }
  else none

/-- A block written wholly void (R318). -/
def voidBlock (p4 : Bool) : Packed :=
  { bytes := 0x10#8 :: List.replicate (streamBits p4 / 8) 0, flushed := 0, blockVoid := 1 }

/-- Try l, l − 1, …, 0 until the block fits (R318). -/
def encodeExpFrom (p4 : Bool) (top : Nat) (es : List Byte) : Nat → Packed
  | 0 => (encodeExpAt p4 top es 0).getD (voidBlock p4)
  | l + 1 => (encodeExpAt p4 top es (l + 1)).getD (encodeExpFrom p4 top es l)

/-- The largest turn of the non-zero, non-void elements, or 0 (R318). -/
def topTurn (es : List Byte) : Nat :=
  es.foldl (fun t b => if sp8IsVoid b || sp8IsZero b then t else max t (turnOf b)) 0

/-- The encoder of R318 on 128 elements, already rounded to half-turns for P4. -/
def encodeExp (p4 : Bool) (es : List Byte) : Packed := encodeExpFrom p4 (topTurn es) es 15

/-- Bytes of 128 mask bits, bit (i mod 8) of byte i / 8 (Table 10.6). -/
def maskBytes (es : List Byte) : List Byte :=
  (List.range 16).map fun i =>
    byte ((List.range 8).foldl (fun a j => a + (if sp8IsZero (es.getD (8 * i + j) 0) then 0 else 2 ^ j)) 0)

/-- Zero-mask packing: the bytes of the used words and whether the form is dense (R319 to R321). -/
def encodeZm (es : List Byte) : List Byte × Bool :=
  let vs := es.filter fun b => !sp8IsZero b
  if vs.length ≤ 112 then
    let body := maskBytes es ++ vs
    (body ++ List.replicate (32 * cdiv body.length 32 - body.length) 0, false)
  else (es, true)

/-- Mask bits set in the first 16 bytes. -/
def maskCount (m : List Byte) : Nat := ((m.take 16).flatMap byteBits).countP id

/-- Used words of a masked block (R319). -/
def zmUsedWords (word0 : List Byte) : Nat := cdiv (16 + min (maskCount word0) 112) 32

/-- Spread the values over the set mask bits. -/
def spreadMask : List Bool → List Byte → List Byte
  | [], _ => []
  | false :: ms, vs => 0x00#8 :: spreadMask ms vs
  | true :: ms, vs => vs.headD 0 :: spreadMask ms (vs.drop 1)

/-- The mask bits in element order. -/
def maskBits (m : List Byte) : List Bool := (List.range 128).map fun i => bit (m.getD (i / 8) 0).toNat (i % 8)

/-- Decode a masked zero-mask block given its used words' bytes (R322, R326). -/
def decodeZm (blk : List Byte) : Except PackFault (List Byte) :=
  let n := maskCount blk
  if 112 < n then .error .overrun
  else if (blk.drop (16 + n)).any (· ≠ 0) then .error .padding
  else .ok (spreadMask (maskBits blk) (blk.drop 16))

end Sys2Proof.Machine
end

