-- ==== Sys2Proof/Machine/Record.lean ====
section
/-! DEFINITION. Command records: their fields, geometry, durations, and the checks of Table 4.9 (04_command_lists.md,
05_matrix_vector_ops.md, 06_window_ops.md, 07_scales_requant.md). A record is a 768-bit number, bit n of word w at 256 w + n
(R118). -/

namespace Sys2Proof.Machine

/-! ### Fields (Tables 4.2, 4.5, 4.6, 4.7) -/

def rOp (r : Nat) : Nat := bits r 7 0
def rMap (r : Nat) : Nat := bits r 8 8
def rFence (r : Nat) : Bool := bit r 9
def rRelA (r : Nat) : Bool := bit r 10
def rRelAux (r : Nat) : Bool := bit r 11
def rSignalDone (r : Nat) : Bool := bit r 12
def rGsel (r : Nat) : Nat := bits r 17 16
def rSrc (r : Nat) : Nat := bits r 23 20
def rFmtA (r : Nat) : Nat := bits r 27 24
def rFmtW (r : Nat) : Nat := bits r 31 28
def rFmtO (r : Nat) : Nat := bits r 35 32
def rK (r : Nat) : Nat := bits r 63 48 + 1
def rN (r : Nat) : Nat := bits r 79 64 + 1
def rM (r : Nat) : Nat := bits r 103 80 + 1
def rTag (r : Nat) : Nat := bits r 127 112
/-- Handle fields in header order: 0 H_A, 1 H_A_SCALE, 2 H_W, 3 H_W_SCALE, 4 H_RING_A, 5 H_RING_B, 6 H_OUT, 7 H_OUT_SCALE,
8 H_SAVE, 9 H_AUX, 10 H_BIAS, 11 H_TABLE, 12 H_SIGNAL. -/
def rHandle (r i : Nat) : Nat := bits r (128 + 8 * i + 7) (128 + 8 * i)
def rWord1 (r : Nat) : Nat := bits r 511 256
/-- Stage slot i of word 2, or function slot i of OP_ELEMENTWISE (Tables 4.7, 5.3). -/
def rSlot (r i : Nat) : Nat := if rOp r = 0x4A then bits r (256 + 64 * i + 63) (256 + 64 * i) else bits r (512 + 64 * i + 63) (512 + 64 * i)
def sOp (s : Nat) : Nat := bits s 7 0
def sSel (s : Nat) : Nat := bits s 15 8
def sArg (s : Nat) : Nat := bits s 63 16
/-- The stage slots of a record: four, or three function slots. -/
def rSlots (r : Nat) : List Nat := (List.range (if rOp r = 0x4A then 3 else 4)).map (rSlot r)
/-- The chain: non-empty slots in ascending order (R126). -/
def rChain (r : Nat) : List Nat := (rSlots r).filter fun s => sOp s ≠ 0

/-- What a command is (Table 4.8). -/
inductive OpKind where
  | control | array | vector | other
  deriving DecidableEq, Repr

def opKind (op : Nat) : OpKind :=
  if op ≤ 0x04 then .control
  else if 0x10 ≤ op ∧ op ≤ 0x14 then .array
  else if (0x40 ≤ op ∧ op ≤ 0x46) ∨ (0x48 ≤ op ∧ op ≤ 0x4B) then .vector
  else .other
/-- Commands with the window layout W (Table 4.8). -/
def isWindow (op : Nat) : Bool := (0x11 ≤ op && op ≤ 0x14) || op == 0x40 || op == 0x41
def isStage (op : Nat) : Bool := (0x80 ≤ op && op ≤ 0x85) || (0x88 ≤ op && op ≤ 0x8A)

/-- Fields of the window layout (Table 4.5); `w` is word 1. -/
structure Win where
  inH : Nat
  inW : Nat
  inC : Nat
  kh : Nat
  kw : Nat
  sh : Nat
  sw : Nat
  dh : Nat
  dw : Nat
  padT : Nat
  padB : Nat
  padL : Nat
  padR : Nat
  edge : Bool
  groups : Nat
  deriving DecidableEq, Repr

def rWin (r : Nat) : Win :=
  let w := rWord1 r
  { inH := bits w 15 0, inW := bits w 31 16, inC := bits w 47 32, kh := bits w 55 48, kw := bits w 63 56,
    sh := bits w 67 64, sw := bits w 71 68, dh := bits w 75 72, dw := bits w 79 76, padT := bits w 87 80,
    padB := bits w 95 88, padL := bits w 103 96, padR := bits w 111 104, edge := bit w 112, groups := bits w 143 128 }

/-- Output extents of a window command; none where the floor is not above 0 (R123, R177). -/
def Win.out (w : Win) : Option (Nat × Nat) :=
  let ext (n lo hi d k s : Nat) : Option Nat :=
    if d * (k - 1) + 1 ≤ n + lo + hi then some ((n + lo + hi - (d * (k - 1) + 1)) / s + 1) else none
  match ext w.inH w.padT w.padB w.dh w.kh w.sh, ext w.inW w.padL w.padR w.dw w.kw w.sw with
  | some a, some b => some (a, b)
  | _, _ => none
def Win.oh (w : Win) : Nat := (w.out.getD (0, 0)).1
def Win.ow (w : Win) : Nat := (w.out.getD (0, 0)).2

/-! ### Geometry (R76, R83, R86 to R92, R110, R128, R183, R187) -/

/-- Reduction group length (Table 7.1). -/
def groupLen (gsel : Nat) : Nat := match gsel with | 0 => 32 | 1 => 64 | _ => 128
def rG (r : Nat) : Nat := groupLen (rGsel r)
/-- ρ (R76). -/
def rRho (r : Nat) : Nat := if rFmtW r = 1 then 2 else 1
/-- Packed formats: P6, P4, zero mask. -/
def isPacked (f : Nat) : Bool := 6 ≤ f && f ≤ 8
/-- Half bytes of one element of a format. -/
def halfBytes (f : Nat) : Nat := match f with | 1 => 1 | 3 => 4 | 4 => 4 | 5 => 8 | _ => 2
/-- c, doubled and quadrupled rows counted as whole clocks (R83): c = max(1, b_a/256, b_w/256), doubled when both operands
are packed. -/
def rC (r : Nat) : Nat :=
  let ba := if isPacked (rFmtA r) then 256 else 128 * halfBytes (rFmtA r)
  let bw := if isPacked (rFmtW r) then 256 else 128 * halfBytes (rFmtW r) * rRho r
  max 1 (max (ba / 256) (bw / 256)) * (if isPacked (rFmtA r) && isPacked (rFmtW r) then 2 else 1)
/-- Lanes per channel group, n_g (Table 6.1). -/
def rNg (r : Nat) : Nat := rN r / max 1 (rWin r).groups
/-- q of R183. -/
def rQ (r : Nat) : Nat :=
  if (rOp r = 0x13 ∨ rOp r = 0x14) ∧ rNg r < 256 * rRho r then 256 * rRho r / max 1 (rNg r) else 1
/-- C_blk of R183. -/
def rCblk (r : Nat) : Nat := rG r * cdiv (rQ r * (rWin r).inC) (rG r)
/-- The reduction length the Plane runs: K, or K_w of R183. -/
def rKw (r : Nat) : Nat := if isWindow (rOp r) then (rWin r).kh * (rWin r).kw * rCblk r else rK r
/-- The band of a packed window activation, in blocks (R190). -/
def rBand (r : Nat) : Nat :=
  let w := rWin r
  let ro := min w.oh (cdiv 256 (max 1 w.ow) + 1)
  ((ro - 1) * w.sh + (w.kh - 1) * w.dh + 1) * cdiv (w.inW * w.inC * w.groups) 128
/-- The window factor v (R187). -/
def rV (r : Nat) : Nat :=
  let w := rWin r
  if !(opKind (rOp r) = .array && isWindow (rOp r)) then 1
  else if isPacked (rFmtA r) then (if 2048 < rBand r then 2 else 1)
  else
    let p2 := w.inC * w.groups * halfBytes (rFmtA r)  -- pixel stride in half bytes
    if p2 ≠ 0 ∧ (64 % p2 = 0 ∨ p2 % 64 = 0) then 1 else 2
def rCw (r : Nat) : Nat := rC r * rV r
/-- K_s: rows of a slice (R88). -/
def rKs (r : Nat) : Nat := rG r * cdiv (rKw r) (16 * rG r)
/-- K_c: reduction of a channel-spread pass (R92). -/
def rKc (r : Nat) : Nat := rG r * cdiv (rKw r) (rG r)
/-- M_t: positions of a tile (R86). -/
def rMt (r : Nat) : Nat := cdiv (rM r) 16
/-- Row-wide stages, OP_S_REQUANT with OGRP 3 included (R128, R226). -/
def isRowWide (s : Nat) : Bool := sOp s == 0x84 || sOp s == 0x85 || (sOp s == 0x88 && bits (sSel s) 1 0 == 3)
/-- d: plane clocks of a drain (R94, R128). -/
def rD (r : Nat) : Nat := (if (rChain r).any isRowWide then 2048 else 1024) * rRho r
/-- Lane passes of a position block (R86, R87). -/
def rLanePasses (r : Nat) : Nat := cdiv (rN r) ((if rMap r = 0 then 256 else 4096) * rRho r)
def rPosBlocks (r : Nat) : Nat := cdiv (if rMap r = 0 then rMt r else rM r) 256
def rPasses (r : Nat) : Nat := rPosBlocks r * rLanePasses r
/-- Steps of a pass (R90, R92). -/
def rSteps (r : Nat) : Nat := if rMap r = 0 then 16 else cdiv (rKc r) 4096
/-- Groups of step `s` of a pass. -/
def rStepGroups (r s : Nat) : Nat := if rMap r = 0 then rKs r / rG r else (min 4096 (rKc r - s * 4096)) / rG r
def rPassLen (r : Nat) : Nat := max ((if rMap r = 0 then 16 * rKs r else rKc r) * rCw r) (rD r)
/-- Nominal time T of an array command, in plane clocks (R110). -/
def rNominal (r : Nat) : Nat := 16 + rPasses r * rPassLen r + 8 + rD r

/-- Output bytes of `n` elements of a format, in half bytes. -/
def rowHalf (f n : Nat) : Nat := n * halfBytes f

/-- Nominal duration of a vector-only command, in plane clocks (R164, R168, R174, R199, R203, R208, R210). -/
def rDuration (r : Nat) : Nat :=
  let w := rWord1 r
  let mt := rMt r
  match rOp r with
  | 0x40 | 0x41 => 64 + mt * (rWin r).kh * (rWin r).kw * cdiv (rWin r).inC 64
  | 0x42 => 64 + mt * cdiv (bits w 47 32) 64
  | 0x43 | 0x44 => 64 + 4 * mt * cdiv (bits w 47 32) 64
  | 0x45 => 64 + mt * cdiv (bits w 15 0) 64
  | 0x46 => 64 + mt * cdiv (rowHalf (rFmtA r) (bits w 71 56)) 256
  | 0x48 | 0x49 => 64 + mt * max 4 (cdiv (rowHalf (rFmtA r) (rN r)) 512)
  | 0x4A =>
    let layout := bits w 193 192
    let rr := if layout = 0 then mt else rM r
    let l := if layout = 0 then rN r else 256 * cdiv (rN r) 4096
    let p := 1 + (rChain r).foldl (fun a s =>
      a + (if sOp s = 0x84 then 2 else if sOp s = 0x85 then (if sSel s = 1 then 2 else 1) else 0)) 0
    let t := 64 + rr * p * cdiv l 64
    let t := if layout ≠ 0 then t + rr * 128 * (p - 1) else t
    if layout = 2 then t + rr * cdiv (rowHalf (rFmtO r) (rN r)) 512 else t
  | 0x4B => 64 + mt * cdiv (rN r) 64 * (if bits w 199 192 = 0 then 2 else 4)
  | _ => 0

/-! ### Check 1: reserved fields (R17, R133, R543, R544) -/

/-- Reserved bits of word 1 hold 0 in the layout the opcode gives it (R122). -/
def word1Reserved (op w : Nat) : Bool :=
  match op with
  | 0x00 | 0x01 => w == 0
  | 0x02 => bits w 255 48 == 0 && bits w 15 8 == 0
  | 0x03 => bits w 255 48 == 0 && bits w 15 8 ≤ 1
  | 0x04 => bits w 255 49 == 0
  | 0x10 => bits w 255 2 == 0
  | 0x11 | 0x12 | 0x13 | 0x14 | 0x40 | 0x41 => bits w 127 113 == 0 && bits w 255 144 == 0
  | 0x42 | 0x43 => bits w 87 80 == 0 && bits w 255 112 == 0
  | 0x44 => bits w 87 81 == 0 && bits w 255 112 == 0
  | 0x45 => bits w 255 24 == 0
  | 0x46 => bits w 255 72 == 0
  | 0x48 => bits w 255 40 == 0
  | 0x49 => bits w 255 41 == 0
  | 0x4A => bits w 195 194 == 0 && bits w 255 200 == 0
  | 0x4B => bits w 255 200 == 0
  | _ => true

/-- Reserved bits of a stage slot (R544, Tables 7.3, 10.4). -/
def slotReserved (s : Nat) : Bool :=
  match sOp s with
  | 0x00 => sSel s == 0 && sArg s == 0
  | 0x88 => bits (sSel s) 7 4 == 0 && bits (sArg s) 47 8 == 0
  | 0x89 => sSel s == 0 && sArg s == 0
  | 0x8A => bits (sSel s) 7 1 == 0 && sArg s == 0
  | _ => true

/-- Check 1 of Table 4.9. MAP and SRC_TILE of a record whose OPCODE is not a command are looked at too (DESIGN CHOICE, log entry
109: R543 speaks of any command other than an array command, R124 of word 1 alone). -/
def checkReserved (r : Nat) : Bool :=
  let k := opKind (rOp r)
  bits r 15 13 == 0 && bits r 19 18 == 0 && bits r 47 36 == 0 && bits r 111 104 == 0 && bits r 255 232 == 0
    && (k != .control || bits r 103 8 == 0)
    && (k == .array || rMap r == 0)
    && (rMap r == 1 || rSrc r == 0)
    && (k == .other || word1Reserved (rOp r) (rWord1 r))
    && ((List.range 4).map fun i => bits r (512 + 64 * i + 63) (512 + 64 * i)).all slotReserved
    && (rOp r != 0x4A || (rSlots r).all slotReserved)

/-! ### Check 3: formats (R120, R152, R162, R165, R167, R173, R198, R200, R209) -/

/-- Check 3 of Table 4.9. OP_SPACE_TO_CHAN takes INT8 in FMT_O as R198 says, though Table 4.3 does not mark it (DESIGN CHOICE, log
entry 109). -/
def checkFormat (r : Nat) : Bool :=
  let op := rOp r
  let fa := rFmtA r
  let fo := rFmtO r
  let out := fo == 0 || fo == 1 || fo == 3 || fo == 5
  if opKind op = .control then true
  else
    fa ≤ 8 && rFmtW r ≤ 7 &&
    (match op with
      | 0x10 => out && !(bit (rWord1 r) 0 && (fa == 1 || isPacked fa)) && !(bit (rWord1 r) 1 && (rFmtW r == 1 || isPacked (rFmtW r)))
      | 0x40 | 0x41 | 0x42 | 0x43 | 0x44 => out && fa ≤ 5 && rFmtW r == 5
      | 0x45 => fo == 5 && fa ≤ 5 && rFmtW r == 5
      | 0x46 => fo == fa && fa ≤ 3 && rFmtW r == 5
      | 0x48 => out && fo == fa
      | 0x49 => out && fo == fa && (!bit (rWord1 r) 40 || fa == 5)
      | 0x4A => out && (fa == 0 || (2 ≤ fa && fa ≤ 5))
      | 0x4B => (fa == 5 || fa == 3) && rFmtW r == 5 && (if rHandle r 6 = 0xFF then out else fo == 0 || fo == 3)
      | _ => out)

/-! ### Check 4: shapes (R85, R123, R142, R178, R179, R184, R185, R187, R197, R204, R226) -/

def inRange (lo hi v : Nat) : Bool := lo ≤ v && v ≤ hi

def checkWindow (r : Nat) : Bool :=
  let op := rOp r
  let w := rWin r
  let lanes := 256 * rRho r
  let taps := w.kh * w.kw
  inRange 1 65535 w.inH && inRange 1 65535 w.inW && inRange 1 65535 w.inC && inRange 1 15 w.kh
    && inRange 1 (if op = 0x12 then 255 else 15) w.kw && inRange 1 15 w.sh && inRange 1 15 w.sw
    && inRange 1 8 w.dh && inRange 1 8 w.dw
    && w.out.isSome && rM r == w.oh * w.ow
    && (rFmtA r != 1 || w.inC * w.groups % 2 == 0)
    && (match op with
        | 0x11 => w.groups == 1 && rK r == w.inC * taps
        | 0x12 => w.groups == 1 && rK r == w.inC * taps && w.inH == 1 && w.kh == 1 && w.sh == 1 && w.dh == 1
                    && w.padT == 0 && w.padB == 0
        | 0x13 => 2 ≤ w.groups && rMap r == 0 && w.inC * w.groups ≤ 65535 && rK r == w.inC * taps
                    && rN r % w.groups == 0 && (lanes % rNg r == 0 || rNg r % lanes == 0)
        | 0x14 => 1 ≤ w.groups && w.inC == 1 && rMap r == 0 && rK r == taps && rN r % w.groups == 0
                    && lanes % rNg r == 0
        | _ => w.groups == 1 && rK r == 1 && rN r == w.inC)
    && (opKind op != .array ||
        (rKw r ≤ 65536 && rCw r ≤ 4
          && (!(op == 0x13 || op == 0x14) || rFmtA r == 3 || rFmtA r == 4 || rFmtA r == 5
              || rQ r * w.inC % rG r == 0)))

/-- A finite binary32 argument at least 0 (R154, R173). -/
def argFinite (x : Nat) : Bool := bits x 30 23 != 255
def argNonNeg (x : Nat) : Bool := argFinite x && (x < 0x80000000 || x == 0x80000000)
def argPos (x : Nat) : Bool := argFinite x && x != 0 && x < 0x80000000
def argBelow1 (x : Nat) : Bool := x < 0x3F800000 || x == 0x80000000

/-- Check 4 of Table 4.9. A TABLE_ROWS outside 1 to 0xFFFF_FFFE is refused here (DESIGN CHOICE, log entry 110: R165 names no
status). -/
def checkShape (r : Nat) : Bool :=
  let op := rOp r
  let w := rWord1 r
  (rFmtO r != 1 || !(opKind op == .array || op == 0x4A) || rN r % 2 == 0)
    && (!isWindow op || checkWindow r)
    && (match op with
        | 0x42 | 0x43 =>
          inRange 1 65535 (bits w 15 0) && inRange 1 65535 (bits w 31 16) && inRange 1 65535 (bits w 47 32)
            && inRange 1 65535 (bits w 63 48) && inRange 1 65535 (bits w 79 64) && bits w 111 96 == 0
            && rK r == 1 && rN r == bits w 47 32 && rM r == bits w 63 48 * bits w 79 64
        | 0x44 =>
          inRange 1 65535 (bits w 15 0) && inRange 1 65535 (bits w 31 16) && inRange 1 65535 (bits w 47 32)
            && inRange 1 256 (bits w 63 48) && inRange 1 256 (bits w 79 64) && inRange 1 4096 (bits w 111 96)
            && rK r == 1 && rN r == bits w 47 32 && rM r == bits w 111 96 * bits w 63 48 * bits w 79 64
        | 0x45 => inRange 1 65535 (bits w 15 0) && rK r == 1 && rN r == 1
        | 0x46 =>
          let bh := bits w 51 48
          let bw := bits w 55 52
          let ic := bits w 47 32
          inRange 1 65535 (bits w 15 0) && inRange 1 65535 (bits w 31 16) && inRange 1 65535 ic && inRange 1 8 bh
            && inRange 1 8 bw && inRange (bh * bw * ic) 65535 (bits w 71 56)
            && rM r == cdiv (bits w 15 0) bh * cdiv (bits w 31 16) bw && rN r == bits w 71 56 && rK r == 1
        | 0x48 | 0x49 => inRange 1 0xFFFFFFFE (bits w 31 0)
        | 0x4A => rK r == 1 && bits w 193 192 != 3 && (bits w 193 192 == 2 || bits w 199 196 == 0)
        | 0x4B =>
          let algo := bits w 199 192
          rK r == 1 && algo ≤ 1 && argNonNeg (bits w 31 0)
            && argBelow1 (bits w 63 32) && argBelow1 (bits w 95 64) && argFinite (bits w 159 128)
            && (if algo = 1 then argPos (bits w 127 96) && 1 ≤ bits w 191 160
                else bits w 95 64 == 0 && bits w 127 96 == 0 && bits w 191 160 == 1)
        | _ => true)
    && (opKind op != .vector || rDuration r ≤ 16384)

/-! ### Check 5: stage chains (R124, R126 to R128, R154, R158, R222, R226) -/

def f16Nan (h : Nat) : Bool := bits h 14 10 == 31 && bits h 9 0 != 0
def f16Finite (h : Nat) : Bool := bits h 14 10 != 31

/-- STAGE_SEL and STAGE_ARG are as their table states (R154). -/
def stageOk (s : Nat) : Bool :=
  let sel := sSel s
  let arg := sArg s
  match sOp s with
  | 0x80 => sel ≤ 1 && arg == 0
  | 0x81 =>
    match sel with
    | 0x01 | 0x04 | 0x05 | 0x06 | 0x07 | 0x08 | 0x09 | 0x0A | 0x0B => arg == 0
    | 0x02 =>
      let lo := bits arg 15 0
      let hi := bits arg 31 16
      bits arg 47 32 == 0 && !f16Nan lo && !f16Nan hi && !(f32Val (f16to32 hi)).lt (f32Val (f16to32 lo))
    | 0x03 => bits arg 47 16 == 0 && !f16Nan (bits arg 15 0)
    | 0x10 =>
      let h := bits arg 31 16
      bits arg 47 32 == 0 && f16Finite (bits arg 15 0) && f16Finite h && h != 0 && h < 0x8000
    | _ => false
  | 0x82 => sel ≤ 3 && arg == 0
  | 0x83 => (sel ≤ 3 && arg == 0) || (sel == 4 && argFinite (bits arg 31 0) && bits arg 47 32 == 0)
  | 0x84 => sel ≤ 1 && argPos (bits arg 31 0) && 0x00800000 ≤ bits arg 31 0
  | 0x85 => sel ≤ 1 && argNonNeg (bits arg 31 0) && bits arg 47 32 == 0
  | 0x88 =>
    let h := signed 8 (bits arg 7 0)
    match bits sel 3 2 with
    | 0 => decide (-8 ≤ h ∧ h ≤ 8)
    | 1 => decide (-127 ≤ h)
    | _ => false
  | 0x89 | 0x8A => true
  | _ => false

/-- Header handle fields a stage reads: 9 H_AUX, 10 H_BIAS, 11 H_TABLE (Table 5.1). -/
def stageNeeds (s : Nat) : List Nat :=
  match sOp s with
  | 0x80 => [10]
  | 0x81 => if sSel s = 0x10 then [11] else []
  | 0x82 => [9]
  | 0x83 => if sSel s < 4 then [9] else []
  | 0x85 => if sSel s = 1 then [9, 10] else [9]
  | _ => []

/-- The stage slots of a record (R154 to R161). A chain with OP_S_BIAS and RMS norm may name H_BIAS, though Table 5.1 says none
for the norm (DESIGN CHOICE, log entry 137). -/
def checkStage (r : Nat) : Bool :=
  let ss := rSlots r
  let ch := rChain r
  let ops := ch.map sOp
  let fo := rFmtO r
  let word2 := (List.range 4).map fun i => bits r (512 + 64 * i + 63) (512 + 64 * i)
  if opKind (rOp r) ≠ .array ∧ rOp r ≠ 0x4A then word2.all (fun s => sOp s == 0)
  else
    (rOp r != 0x4A || word2.all (fun s => sOp s == 0))
    && ((ss.dropWhile fun s => sOp s ≠ 0).all fun s => sOp s == 0)
    && ops.all isStage && ch.all stageOk
    && (ops.countP (· == 0x88) == (if fo = 0 ∨ fo = 1 then 1 else 0))
    && ((List.range ops.length).all fun i =>
        let o := ops.getD i 0
        (o != 0x88 || i + 1 == ops.length || 0x89 ≤ ops.getD (i + 1) 0)
          && (o < 0x89 || (i + 1 == ops.length && 0 < i && ops.getD (i - 1) 0 == 0x88 && fo == 0)))
    && ((ch.flatMap stageNeeds).all fun h => rHandle r h != 0xFF)
    && ((ch.flatMap stageNeeds).countP (· == 9) ≤ 1) && ((ch.flatMap stageNeeds).countP (· == 10) ≤ 1)
    && ((ch.flatMap stageNeeds).countP (· == 11) ≤ 1)
    && (if rOp r = 0x4A then
          ch.all (fun s => sOp s != 0x88 || bits (sSel s) 1 0 == rGsel r)
        else !(ch.any isRowWide) || (rMap r == 0 && rN r ≤ 256 * rRho r))

/-! ### Check 6: handles (R119, R121, R133, R137, R146, R155, R189, R542) -/

def hasScale (f : Nat) : Bool := f ≤ 2 || isPacked f

/-- Header handle fields the command uses. OP_SPACE_TO_CHAN in INT8 has an output scale plane, whose bytes R198 gives, and
OP_ADAPT_UPDATE without an inference copy has none, whatever FMT_O says (DESIGN CHOICE, log entry 109). -/
def rUses (r : Nat) (gale : Bool) : List Nat :=
  let op := rOp r
  let sa := if hasScale (rFmtA r) then [1] else []
  let so := if rFmtO r ≤ 1 ∨ (op = 0x46 ∧ rFmtO r = 2) then [7] else []
  let sig := if rSignalDone r then [12] else []
  let st := (rChain r).flatMap stageNeeds
  match opKind op with
  | .array =>
    [0] ++ sa ++ [2] ++ (if hasScale (rFmtW r) then [3] else []) ++ (if rMap r = 0 then [4, 5] else []) ++ [6] ++ so
      ++ (if gale then [] else [8]) ++ st ++ sig
  | .vector =>
    if op = 0x4B then
      [0, 2, 9] ++ (if bits (rWord1 r) 199 192 = 1 then [10] else [])
        ++ (if rHandle r 6 = 0xFF then [] else [6] ++ (if rFmtO r = 0 then [7] else [])) ++ sig
    else if op = 0x45 then [0] ++ sa ++ [6] ++ sig
    else [0] ++ sa ++ [6] ++ so ++ st ++ sig
  | _ => []

/-- Handles named in word 1: (handle, must be named). -/
def word1Handles (r : Nat) : List (Nat × Bool) :=
  let w := rWord1 r
  match rOp r with
  | 0x02 | 0x03 => [(bits w 7 0, true)]
  | 0x04 => (List.range 4).map fun i => (bits w (8 * i + 7) (8 * i), false)
  | 0x44 => [(bits w 95 88, true)]
  | 0x45 => [(bits w 23 16, false)]
  | 0x48 | 0x49 => [(bits w 39 32, true)]
  | _ => []

/-- Header handle fields whose data a stream engine moves, which may be of PLACE 2 (R542). -/
def rEngineFields (r : Nat) : List Nat :=
  match rOp r with
  | 0x48 | 0x44 => [0, 1]
  | 0x49 => [6, 7]
  | _ => []

def checkHandles (get : Nat → Option Handle) (gale : Bool) (r : Nat) : Bool :=
  let uses := rUses r gale
  let place (h : Nat) : Nat := match get h with | some e => e.place | none => 3
  ((List.range 13).all fun i => if uses.contains i then (get (rHandle r i)).isSome else rHandle r i == 0xFF)
    && ((word1Handles r).all fun p => (get p.1).isSome || (!p.2 && p.1 == 0xFF))
    && (rOp r != 0x04 || (word1Handles r).any fun p => p.1 != 0xFF)
    && (!(rOp r == 0x42 || rOp r == 0x43) || bits (rWord1 r) 95 88 == 0xFF)
    && (match rOp r with
        | 0x02 | 0x03 =>
          (match get (bits (rWord1 r) 7 0) with
            | some e => e.place != 2 && bits (rWord1 r) 47 16 < e.slotCount
            | none => false)
        | _ => true)
    && ((word1Handles r).all fun p => place p.1 != 2 || rOp r == 0x44 || rOp r == 0x48 || rOp r == 0x49)
    && (uses.all fun i => place (rHandle r i) != 2 || (rEngineFields r).contains i)
    && (!(opKind (rOp r) == .array || rOp r == 0x4A) ||
        ([9, 10, 11].all fun i => !uses.contains i || place (rHandle r i) == 0))
    && (opKind (rOp r) != .array || gale ||
        (match get (rHandle r 8) with
          | some e => e.place == 0 && 262144 * rRho r ≤ e.bytes
          | none => false))
    && (!(opKind (rOp r) == .array && isWindow (rOp r) && rMap r == 1) ||
        (match get (rHandle r 0) with
          | some e => e.place == 0 || (e.place == 1 && e.home == rSrc r)
          | none => false))

/-- The first failing check of Table 4.9, or KS_OK (R125). -/
def checkRecord (get : Nat → Option Handle) (gale : Bool) (r : Nat) : KS :=
  if !checkReserved r then .badReserved
  else if opKind (rOp r) = .other then .badOpcode
  else if !checkFormat r then .badFormat
  else if !checkShape r then .badShape
  else if !checkStage r then .badStage
  else if !checkHandles get gale r then .badHandle
  else .ok

/-- R137: two consecutive array commands may name one H_W only with the same weights. -/
def reuseOk (prev r : Nat) : Bool :=
  rHandle prev 2 != rHandle r 2
    || (rK prev == rK r && rN prev == rN r && rFmtW prev == rFmtW r && rGsel prev == rGsel r)

/-- Check the records of a list in order: the first failing status, index and TAG (R115, R125, R137). -/
def checkList (get : Nat → Option Handle) (gale : Bool) : List Nat → Nat → Option Nat → KS × Nat × Nat
  | [], _, _ => (.ok, 0, 0)
  | r :: rs, i, prev =>
    let s := checkRecord get gale r
    let arr := opKind (rOp r) = .array
    let s := if s = .ok ∧ arr ∧ !(match prev with | some p => reuseOk p r | none => true) then KS.badHandle else s
    if s ≠ .ok then (s, i, rTag r)
    else if rOp r = 0 then (.ok, 0, 0)
    else checkList get gale rs (i + 1) (if arr then some r else prev)

end Sys2Proof.Machine
end

