-- ==== Sys2Proof/Machine/StreamRec.lean ====
section
/-! DEFINITION. Stream records, block entries and strided descriptors: their fields, their checks, and the piece a stream
position names (09_streams.md R277 to R288). A record is a 256-bit number. -/

namespace Sys2Proof.Machine

def tCmd (r : Nat) : Nat := bits r 15 0
def tTile (r : Nat) : Nat := bits r 19 16
def tStart (r : Nat) : Nat := bits r 21 20
def tStrided (r : Nat) : Bool := bit r 22
def tStore (r : Nat) : Bool := bit r 23
def tSpace (r : Nat) : Bool := bit r 24
def tSlotTags (r : Nat) : Bool := bit r 25
def tMemTags (r : Nat) : Bool := bit r 26
def tSlotHandle (r : Nat) : Nat := bits r 39 32
def tMemHandle (r : Nat) : Nat := bits r 47 40
def tSlotFirst (r : Nat) : Nat := bits r 60 48
def tRate (r : Nat) : Nat := bits r 79 64
def tBlocks (r : Nat) : Nat := bits r 127 96
def tDesc (r : Nat) : Nat := bits r 175 128

/-- The checks of a stream record in the order of R277; `endIdx` is the index of the list's OP_END. -/
def checkStream (get : Nat → Option Handle) (endIdx r : Nat) : KS :=
  let place (h : Nat) : Nat := match get h with | some e => e.place | none => 3
  if !(bits r 31 27 == 0 && bits r 63 61 == 0 && bits r 95 80 == 0 && bits r 255 176 == 0) then .badReserved
  else if !(place (tSlotHandle r) < 2 && (if tSpace r then place (tMemHandle r) < 2 else tMemHandle r == 0xFF)) then
    .badHandle
  else if !(tStart r != 3 && tCmd r < endIdx && (tSpace r || !tMemTags r)
      && (match get (tSlotHandle r) with | some e => tSlotFirst r < e.slotCount | none => false)
      && (if tStrided r then tBlocks r == 0 else 1 ≤ tBlocks r) && tDesc r % 32 == 0) then .badDescriptor
  else .ok

/-- Bytes of the block list or descriptor (R280). -/
def tListBytes (r : Nat) : Nat := if tStrided r then 32 else 16 * tBlocks r

/-- Admission checks of a strided descriptor, a 256-bit number (R288). -/
def checkStrided (d : Nat) : KS :=
  if !(bits d 63 48 == 0 && bits d 79 71 == 0 && bits d 255 224 == 0) then .badReserved
  else if bits d 95 80 = 0 ∨ bits d 111 96 = 0 ∨ bits d 127 112 = 0 then .badDescriptor
  else if bits d 47 0 % 32 ≠ 0 ∨ bits d 159 128 % 32 ≠ 0 ∨ bits d 191 160 % 32 ≠ 0 ∨ bits d 223 192 % 32 ≠ 0 then
    .badDescriptor
  else .ok

/-- The piece that a stream position names: memory-side address (job virtual, or an offset within MEM_HANDLE's buffer),
length in words, word offset in the slot, whether it carries halo rows, whether the slot side moves on after it, and whether
its fields break R285 or R288. -/
structure Piece where
  mem : Nat
  words : Nat
  slotWord : Nat
  halo : Bool
  endSlot : Bool
  bad : Bool
  deriving DecidableEq, Repr

/-- Check of a memory-side extent: no 4 KiB crossing in job virtual memory, or within the buffer of MEM_HANDLE. -/
def extentBad (r : Nat) (memBytes addr bytes : Nat) : Bool :=
  if tSpace r then memBytes < addr + bytes else addr / 4096 ≠ (addr + bytes - 1) / 4096

/-- Block entry `b`, a 128-bit number (Table 9.4, R285). -/
def blockPiece (r slotBytes memBytes b : Nat) : Piece :=
  let addr := bits b 47 0
  let words := bits b 54 48 + 1
  let sw := bits b 82 64
  { mem := addr, words := words, slotWord := sw, halo := bit b 55, endSlot := bit b 56,
    bad := bits b 63 57 ≠ 0 || bits b 127 83 ≠ 0 || addr % 32 ≠ 0 || extentBad r memBytes addr (32 * words)
      || slotBytes / 32 < sw + words }

/-- Runs of a strided descriptor. -/
def stridedRuns (d : Nat) : Nat := bits d 95 80 * bits d 111 96 * bits d 127 112
/-- First byte address of run `i` in index order, i1 fastest (R287). -/
def runAddr (d i : Nat) : Nat :=
  let n1 := bits d 95 80
  let n2 := bits d 111 96
  let a := (bits d 47 0 : Int) + (i % n1 : Nat) * signed 32 (bits d 159 128)
    + (i / n1 % n2 : Nat) * signed 32 (bits d 191 160) + (i / n1 / n2 : Nat) * signed 32 (bits d 223 192)
  (a % (2 : Int) ^ 48).toNat
/-- The next part of run `p.block` from word `p.part`, up to the end of the run or of the slot (R287). -/
def stridedPiece (r slotBytes memBytes d : Nat) (p : StreamPos) : Piece :=
  let run := bits d 70 64 + 1
  let a := runAddr d p.block
  let n := min (run - p.part) (slotBytes / 32 - p.slotWord)
  { mem := a + 32 * p.part, words := n, slotWord := p.slotWord, halo := false,
    endSlot := p.slotWord + n = slotBytes / 32 || (p.block + 1 = stridedRuns d && p.part + n = run),
    bad := extentBad r memBytes a (32 * run) }

/-- The position after piece `q` was issued. -/
def StreamPos.after (r d slotCount : Nat) (p : StreamPos) (q : Piece) : StreamPos :=
  let slot := if q.endSlot then (p.slot + 1) % max 1 slotCount else p.slot
  let p := { p with slot := slot, visit := p.visit + b2n q.endSlot }
  if tStrided r then
    let run := bits d 70 64 + 1
    let fin := p.part + q.words = run
    { p with block := if fin then p.block + 1 else p.block, part := if fin then 0 else p.part + q.words,
             slotWord := if q.endSlot then 0 else p.slotWord + q.words,
             slotFirst := if q.endSlot then p.block + b2n fin else p.slotFirst }
  else { p with block := p.block + 1, slotFirst := if q.endSlot then p.block + 1 else p.slotFirst }

/-- A stream at its start (R281). -/
def StreamPos.start (idx r : Nat) : StreamPos :=
  { record := idx, block := 0, part := 0, slot := tSlotFirst r, slotWord := 0, slotFirst := 0, visit := 0,
    halted := false, again := none, past := [] }

/-! ### Job virtual memory (R35 to R37, R353) -/

def Page.bytes (p : Page) : Nat := if p.big then 0x200000 else 0x10000
def Job.page? (j : Job) (va : Nat) : Option Page := j.pages.find? fun p => p.va ≤ va && va < p.va + p.bytes
/-- Where firmware reads a job virtual address: the frame, or the flash for a page that is not resident. -/
def Page.read (p : Page) (va : Nat) : Nat := (if p.flash && !p.resident then p.flashAddr else p.frame) + (va - p.va)
/-- `n` bytes of job virtual memory; none where a byte has no valid entry. -/
def Job.vaBytes (m : Mem) (j : Job) (va n : Nat) : Option (List Byte) :=
  (List.range (cdiv (va % 32 + n) 32)).foldr (fun i acc =>
    let w := 32 * (va / 32 + i)
    match j.page? w, acc with
    | some p, some l => some ((m.readWord (p.read w / 32)).data ++ l)
    | _, _ => none) (some []) |>.map fun l => slice l (va % 32) n

def Job.stream (j : Job) (i : Nat) : Nat := j.streams.getD i 0
/-- The strided descriptor of a record. -/
def Job.descOf (m : Mem) (j : Job) (r : Nat) : Nat := leNat ((j.vaBytes m (tDesc r) 32).getD [])
/-- Runs or blocks of a stream's record. -/
def Job.pieces (m : Mem) (j : Job) (r : Nat) : Nat := if tStrided r then stridedRuns (j.descOf m r) else tBlocks r
/-- Memory side of run or block `i`: first byte and bytes. -/
def Job.extent (m : Mem) (j : Job) (r i : Nat) : Nat × Nat :=
  if tStrided r then let d := j.descOf m r; (runAddr d i, 32 * (bits d 70 64 + 1))
  else
    let b := leNat ((j.vaBytes m (tDesc r + 16 * i) 16).getD [])
    (bits b 47 0, 32 * (bits b 54 48 + 1))
/-- The piece at a position of one of the job's streams; none when the stream has no next piece. -/
def Job.piece? (m : Mem) (j : Job) (p : StreamPos) : Option Piece :=
  let r := j.stream p.record
  let sb := ((j.handle? (tSlotHandle r)).map (·.slotBytes)).getD 0
  let mb := ((j.handle? (tMemHandle r)).map (·.bytes)).getD 0
  if tStrided r then
    let d := j.descOf m r
    if p.block < stridedRuns d then some (stridedPiece r sb mb d p) else none
  else if p.block < tBlocks r then
    some (blockPiece r sb mb (leNat ((j.vaBytes m (tDesc r + 16 * p.block) 16).getD [])))
  else none

/-- The next piece of a stream: a halo block to issue again, or the piece at its position. -/
def nextPiece (m : Mem) (j : Job) (p : StreamPos) (refetch : List Nat) : Option Piece :=
  match refetch with
  | b :: _ =>
    let r := j.stream p.record
    let sb := ((j.handle? (tSlotHandle r)).map (·.slotBytes)).getD 0
    let mb := ((j.handle? (tMemHandle r)).map (·.bytes)).getD 0
    some (blockPiece r sb mb (leNat ((j.vaBytes m (tDesc r + 16 * b) 16).getD [])))
  | [] => j.piece? m p

/-- The piece that a halted stream waits for: the halo block at which it halted, or the piece at its position (R301, R303). -/
def haltPiece (m : Mem) (j : Job) (p : StreamPos) : Option Piece := nextPiece m j p p.again.toList

end Sys2Proof.Machine
end

