-- ==== Sys2Proof/Machine/Paging.lean ====
section
/-! DEFINITION. HBM frames, flash reads, resident pages, eviction and page-in (11_hbm_flash.md R349 to R359). -/

namespace Sys2Proof.Machine

/-! ### Frames (R336, R348, R354) -/

def hbmTop : Nat := 0x000BE0000000
def apart (a n b k : Nat) : Bool := a + n ≤ b || b + k ≤ a
def Resident.bytes (r : Resident) : Nat := if r.big then 0x200000 else 0x10000
def PageIn.bytes (r : PageIn) : Nat := if r.big then 0x200000 else 0x10000

/-- Every frame in use: frames of jobs, of resident flash pages and of page-ins that have started. -/
def Ctl.usedFrames (c : Ctl) : List (Nat × Nat) :=
  c.store.frames ++ (c.store.residents.map fun r => (r.frame, r.bytes))
    ++ c.store.pageIns.filterMap fun q => q.frame.map fun f => (f, q.bytes)
def Ctl.frameFree (c : Ctl) (a n : Nat) : Bool :=
  a + n ≤ hbmTop && c.usedFrames.all (fun f => apart a n f.1 f.2)
    && c.store.retiredFrames.all (fun f => apart a n (f * 0x10000) 0x10000)
def least (l : List Nat) : Option Nat :=
  l.foldl (fun a b => match a with | none => some b | some x => some (min x b)) none
/-- The lowest free frame of a size (log entry 12). -/
def Ctl.freeFrame (c : Ctl) (n : Nat) : Option Nat :=
  least ((0 :: c.usedFrames.map (fun f => alignUp (f.1 + f.2) n)
    ++ c.store.retiredFrames.map (fun f => alignUp ((f + 1) * 0x10000) n)).filter fun a => c.frameFree a n)
/-- A flash page is pinned by an admitted job (R40). -/
def Ctl.pinned (c : Ctl) (fa : Nat) (big : Bool) : Bool :=
  c.jobs.any fun j => j.pages.any fun p => p.flash && p.pin && p.flashAddr == fa && p.big == big
/-- Bytes of HBM that no job's frame, pinned page or retired frame holds (R354). -/
def Ctl.unallocated (c : Ctl) : Nat :=
  let held := c.store.frames
    ++ (c.store.residents.filter fun r => c.pinned r.flashAddr r.big).map fun r => (r.frame, r.bytes)
  let retired := c.store.retiredFrames.filter fun f => held.all fun h => apart (f * 0x10000) 0x10000 h.1 h.2
  hbmTop - held.foldl (fun a f => a + f.2) 0 - 0x10000 * retired.length

/-! ### Cells of a range -/

/-- Words of a byte range with a listed cell. -/
def Mem.listedWords (m : Mem) (lo hi : Nat) : List Nat :=
  ((m.bytes.map fun (x : Nat × Byte) => x.1 / 32) ++ (m.wtags.map fun (x : Nat × Byte) => x.1)
    ++ (m.flaws.map fun (x : Nat × Byte) => x.1 / 36)).eraseDups.filter
    fun w => lo ≤ 32 * w && 32 * w < hi
/-- Fill a range with zero words of FORMAT plain, POISON clear (R354, R486). -/
def Mem.zeroFill (m : Mem) (lo hi : Nat) : List Wr := m.eraseWrites fun a => !(lo ≤ a && a < hi)

/-! ### Flash words (R349 to R352) -/

/-- The parity piece of a 64 KiB unit has no aperture address: the model gives the pieces 4 KiB each from the end of the aperture
on (R352; log entry 98). -/
def parityPiece (unit : Nat) : Nat := flashEnd + 4096 * unit
/-- The 64 KiB unit of an aperture address, or of a parity piece (R349). -/
def flashUnit (a : Nat) : Nat := if flashEnd ≤ a then (a - flashEnd) / 4096 else (a - flashBase) / 65536
/-- Stack and channel of a piece; the parity channel is the last of its stack (R349, R350). -/
def flashPlace (a : Nat) : Nat × Nat := (flashUnit a % 2, if flashEnd ≤ a then 16 else (a - flashBase) / 4096 % 16)
/-- Index of an erase block's channel: 17 to a stack, the parity channel last. -/
def flashChannel (stack ch : Nat) : Nat := 17 * stack + ch
/-- Place within its channel: 4 MiB erase blocks of 4 KiB pieces, one for each unit of the stack (R349, R350). -/
def flashBlock (a : Nat) : Nat := flashUnit a / 2 / 1024
def blockKey (a : Nat) : Nat := let (s, ch) := flashPlace a; flashChannel s ch * 4096 + flashBlock a
/-- The erase block a place is in now. -/
def Ctl.blockOf (c : Ctl) (k : Nat) : Nat := SMap.get k c.store.blockMap k
/-- Bytes of a range's parity pieces: where they begin, and their length. -/
def parityRange (base n : Nat) : Nat × Nat := (parityPiece (flashUnit base), cdiv n 65536 * 4096)
/-- A range of the aperture is erased or given up for programming: its words and its parity words read as zero and sound. -/
def Mem.clearFlash (m : Mem) (base n : Nat) : List Wr :=
  let p := parityRange base n
  m.zeroFill base (base + n) ++ m.zeroFill p.1 (p.1 + p.2)

/-- Multiplication by α of a 128-bit tweak (IEEE 1619). -/
def tweakX (t : Nat) : Nat := if t < 2 ^ 127 then 2 * t else (2 * t) % 2 ^ 128 ^^^ 0x87
/-- One block of AES-256 in XTS mode: `f` encrypts or decrypts block `i` of data unit `unit` (R351). -/
def xtsBlock (f : List Byte → List Byte → List Byte) (unit i : Nat) (b : List Byte) : List Byte :=
  let t := toLe 16 (Nat.iterate tweakX i (leNat (Config.aesEncrypt (Config.flashKey.drop 32) (toLe 16 unit))))
  List.zipWith (· ^^^ ·) (f (Config.flashKey.take 32) (List.zipWith (· ^^^ ·) b t)) t
/-- The 32 data bytes of flash word `w` through XTS: its data unit is its piece, its two blocks follow one another (R351). -/
def xtsWord (f : List Byte → List Byte → List Byte) (w : Nat) (bs : List Byte) : List Byte :=
  let o := 32 * w - flashBase
  xtsBlock f (o / 4096) (o % 4096 / 16) (bs.take 16) ++ xtsBlock f (o / 4096) (o % 4096 / 16 + 1) (bs.drop 16)
/-- A flash word as read from its piece. The cells hold the clear bytes and the errors of the stored symbols: a word that is read
with its errors is the decryption of the ciphertext with them (R351). -/
def Mem.flashWord (m : Mem) (w : Nat) : WordRead :=
  let r := m.readWord w
  if r.found ≠ .uncorrectable ∨ m.errors w = 0 ∨ flashEnd ≤ 32 * w then r
  else
    let sealed := xtsWord Config.aesEncrypt w ((List.range 32).map fun i => m.byteAt (32 * w + i))
    { r with data := xtsWord Config.aesDecrypt w (List.zipWith (· ^^^ ·) sealed ((List.range 32).map (m.flawAt w ·))) }

/-- The other words that the parity of word `w` covers: those of the other pieces of its unit and of its parity piece (R352). -/
def unitWords (w : Nat) : List Nat :=
  let u := flashUnit (32 * w)
  (((List.range 16).map fun i => (flashBase + 65536 * u + 4096 * i) / 32 + w % 128) ++ [parityPiece u / 32 + w % 128]).filter (· ≠ w)

/-- What the interface delivers of a flash word: as read, or formed by XOR when every other word of the unit reads (R352); the
third part says whether it was formed. Of a word that was corrected wrongly, the difference goes into the formed word. -/
def Mem.flashRead (m : Mem) (w : Nat) : WordRead × Bool :=
  let r := m.flashWord w
  if r.found ≠ .uncorrectable then (r, false)
  else if (unitWords w).all fun v => (m.readWord v).found ≠ .uncorrectable then
    let off (i : Nat) : Byte := (unitWords w).foldl (fun b v => b ^^^ (m.readWord v).data.getD i 0 ^^^ m.byteAt (32 * v + i)) 0
    ({ data := (List.range 32).map fun i => m.byteAt (32 * w + i) ^^^ off i, tag := (m.tagAt w).toNat, found := .corrected }, true)
  else (r, false)
/-- `n` bytes of the flash as the interface delivers them. -/
def Mem.flashBytes (m : Mem) (a n : Nat) : List Byte :=
  slice ((List.range (cdiv (a % 32 + n) 32)).flatMap fun i => (m.flashRead (a / 32 + i)).1.data) (a % 32) n

/-- The bundle or transfer that holds an aperture address or parity piece: its BUNDLE_NO. -/
def flashOwner (c : Ctl) (a : Nat) : Nat :=
  let fa := if flashEnd ≤ a then flashBase + 65536 * flashUnit a else a
  let inside (base size : Nat) : Bool := base ≤ fa && fa < base + alignUp size 0x200000
  match c.store.bundles.find? fun b => b.kind = 0 && inside b.base b.size with
  | some b => b.no
  | none => ((c.store.transfers.find? fun t => t.kind = 0 && inside t.base t.size).map (·.no)).getD 0
/-- A read of each of some pieces: what it does to their erase blocks' read counts (R362). -/
def readPieces (as' : List Nat) (c : Ctl) : Ctl :=
  let ks := as'.map fun a => c.blockOf (blockKey a)
  let c := c.withStore fun s => { s with blockReads := ks.foldl (fun b k => addAt b k 1) s.blockReads }
  ks.eraseDups.foldl (fun c k =>
    if c.param 0x0B81 ≤ SMap.get 0 c.store.blockReads k ∧ !c.store.refreshDue.contains k then
      c.withStore fun s => { s with refreshDue := s.refreshDue ++ [k] }
    else c) c
/-- The words from which a word is formed are read: their pieces, and their corrections (R352, R362). -/
def readUnit (m : Mem) (w : Nat) (c : Ctl) : Ctl :=
  let c := readPieces ((unitWords w).map fun v => v / 128 * 4096) c
  (unitWords w).foldl (fun c v =>
    if (m.readWord v).found = .corrected then count .flsCorr (flashPlace (32 * v)).1 1 c else c) c
/-- Counters, refresh candidates and reports of a flash read (R352, R362). -/
def noteFlash (m : Mem) (w : Nat) (c : Ctl) : Ctl :=
  let a := 32 * w
  let (st, ch) := flashPlace a
  let r := m.readWord w
  let candidate (c : Ctl) : Ctl :=
    let k := c.blockOf (blockKey a)
    c.withStore fun s => { s with refreshDue := if s.refreshDue.contains k then s.refreshDue else s.refreshDue ++ [k] }
  if r.found = .corrected then count .flsCorr st 1 c
  else if r.found = .uncorrectable then
    let c := readUnit m w c
    if (m.flashRead w).2 then candidate (count .flsRebuild st 1 c)
    else
      let c := count .flsUncorr st 1 c
      let no := flashOwner c a
      let c := c.withStore fun s => { s with bundles := s.bundles.map fun b => if b.no = no then { b with damaged := true } else b }
      serviceEvent 6 6 (st * 16 + ch) no c
  else c

/-! ### Resident pages (R355, R358) -/

/-- Set or clear RESIDENT and FRAME in the entries of every admitted job that names the page (R355). -/
def setResident (fa : Nat) (big : Bool) (frame : Option Nat) (c : Ctl) : Ctl :=
  { c with jobs := c.jobs.map fun j => { j with pages := j.pages.map fun p =>
      if p.flash && p.flashAddr == fa && p.big == big then
        { p with resident := frame.isSome, frame := frame.getD 0 }
      else p } }

/-- A job's stream position lies in the page (R358): the page of its next transfer. -/
def posIn (m : Mem) (j : Job) (p : StreamPos) (fa : Nat) (big : Bool) : Bool :=
  !(tSpace (j.stream p.record)) &&
  match haltPiece m j p with
  | some q => (match j.page? q.mem with | some e => e.flash && e.flashAddr == fa && e.big == big | none => false)
  | none => false

/-- A stream at position `p` has transfers in the page still to issue (R301). -/
def staysIn (m : Mem) (j : Job) (p : StreamPos) (fa : Nat) (big : Bool) : Bool :=
  let r := j.stream p.record
  !tSpace r && (List.range (j.pieces m r - p.block)).any fun i =>
    match j.page? (j.extent m r (p.block + i)).1 with | some e => e.flash && e.flashAddr == fa && e.big == big | none => false

/-- A resident page that may not be evicted (R40, R301, R358); `keep` are pages pinned for a job that is being admitted. -/
def Ctl.protectedPage (c : Ctl) (m : Mem) (keep : List (Nat × Bool)) (r : Resident) : Bool :=
  c.pinned r.flashAddr r.big || keep.contains (r.flashAddr, r.big)
    || c.xfers.any (fun x => x.hbm && !apart x.src (32 * x.words) r.frame r.bytes)
    || c.jobs.any (fun j => j.saved.any fun p => posIn m j p r.flashAddr r.big)
    || c.ctxs.any (fun x =>
        match c.job? x.job with
        | some j => (x.pos.halted && posIn m j x.pos r.flashAddr r.big)
            || (x.kept.contains (r.flashAddr, r.big) && staysIn m j x.pos r.flashAddr r.big)
        | none => false)

def evict (r : Resident) (c : Ctl) : Ctl :=
  let c := setResident r.flashAddr r.big none c
  count .flsEvict 0 1 (c.withStore fun s => { s with residents := s.residents.filter fun q => q ≠ r })

/-- What may be evicted for a frame of `n` bytes, with its rank: the least recently requested goes first (R358). A page frees a
frame only where no part of one is retired. -/
def Ctl.victims (c : Ctl) (m : Mem) (n : Nat) (keep : List (Nat × Bool)) : List (Nat × List Resident) :=
  let ok := c.store.residents.filter fun r => !c.protectedPage m keep r
  let without (set : List Resident) : Ctl :=
    { c with store := { c.store with residents := c.store.residents.filter fun r => !set.contains r } }
  let frees (r : Resident) : Bool :=
    let rest := without [r]
    (List.range (r.bytes / n)).any fun i => rest.frameFree (r.frame + i * n) n
  if n = 0x10000 then (ok.filter frees).map fun r => (r.lastRequest, [r])
  else
    ((ok.filter fun r => r.big && frees r).map fun r => (r.lastRequest, [r]))
      ++ ((c.store.residents.filter fun r => !r.big).map fun r => r.frame / 0x200000).eraseDups.filterMap fun f =>
          let set := c.store.residents.filter fun r => !r.big && r.frame / 0x200000 = f
          if set.all (ok.contains ·) && (without set).frameFree (f * 0x200000) 0x200000 then
            some (set.foldl (fun a r => max a r.lastRequest) 0, set)
          else none

/-- A free frame, made free by eviction where none is: the frame and the state after (R356, R358). -/
def makeFrame (m : Mem) (n : Nat) (keep : List (Nat × Bool)) : Nat → Ctl → Option (Nat × Ctl)
  | 0, c => (c.freeFrame n).map fun f => (f, c)
  | k + 1, c =>
    match c.freeFrame n with
    | some f => some (f, c)
    | none =>
      let vs := c.victims m n keep
      match vs.find? fun v => vs.all fun u => v.1 ≤ u.1 with
      | some v => makeFrame m n keep k (v.2.foldl (fun c r => evict r c) c)
      | none => none

/-- Words that a page-in writes into its frame, with fresh check codes (R356, R359). -/
def pageWrites (m : Mem) (fa frame n : Nat) : List Wr :=
  m.zeroFill frame (frame + n) ++
    (m.listedWords fa (fa + n)).flatMap fun w =>
      let r := (m.flashRead w).1
      wholeWord (w - fa / 32 + frame / 32) r.data r.tag

/-- A whole piece of the page can be neither read nor rebuilt (R359). -/
def pieceLost (m : Mem) (fa n : Nat) : Bool :=
  let bad := (m.listedWords fa (fa + n)).filter fun w => (m.flashRead w).1.found = .uncorrectable
  ((bad.map (· / 128)).eraseDups).any fun p => 128 ≤ bad.countP fun w => w / 128 = p

/-- A read of `n` bytes of the flash: its pieces, and what its words showed. -/
def readFlash (m : Mem) (fa n : Nat) (c : Ctl) : Ctl :=
  if n = 0 then c
  else
    let c := readPieces ((List.range ((fa + n - 1) / 4096 + 1 - fa / 4096)).map fun i => (fa / 4096 + i) * 4096) c
    (m.listedWords (fa / 32 * 32) (fa + n)).foldl (fun c w => noteFlash m w c) c

/-- A page, last requested at `asked`, becomes resident in a frame (R355, R356). -/
def becomeResident (fa : Nat) (big : Bool) (frame asked : Nat) (c : Ctl) : Ctl :=
  let c := c.withStore fun s =>
    { s with residents := s.residents ++ [{ flashAddr := fa, big := big, frame := frame, lastRequest := asked }] }
  setResident fa big (some frame) c

/-- A request of a resident page moves it to the end of the eviction order (R358). -/
def touchPage (fa : Nat) (big : Bool) (c : Ctl) : Ctl :=
  c.withStore fun s =>
    let seen (r : Resident) : Resident :=
      if r.flashAddr = fa ∧ r.big = big then { r with lastRequest := s.requests } else r
    { s with requests := s.requests + 1, residents := s.residents.map seen }

/-- Queue a page-in, or join one that is queued (R301, R357). -/
def requestPage (fa : Nat) (big : Bool) (cls : Nat) (c : Ctl) : Ctl :=
  let now := c.store.requests
  let same (q : PageIn) : Bool := q.flashAddr == fa && q.big == big
  c.withStore fun s =>
    { s with
      requests := s.requests + 1
      pageIns := if s.pageIns.any same then s.pageIns.map fun q => if same q then { q with asked := now } else q
        else s.pageIns ++ [{ flashAddr := fa, big := big, cls := cls, order := now, asked := now, frame := none }] }
/-- Reads of HBM words are requests of the resident pages that hold them (R358). -/
def touchFrames (ws : List Nat) (c : Ctl) : Ctl :=
  (c.store.residents.filter fun r => ws.any fun w => r.frame ≤ 32 * w && 32 * w < r.frame + r.bytes).foldl
    (fun c r => touchPage r.flashAddr r.big c) c

/-- `n` programs or erases of a stack that reads have suspended. They are in progress only where a bundle is being installed or
blocks of the stack wait for their erasure (R357, R361). -/
def noteSuspends (stack n : Nat) (c : Ctl) : Ctl :=
  if (c.store.transfers.any fun t => t.kind = 0 && !t.staged) ∨ (c.store.toErase.any fun k => k / 4096 / 17 = stack) then
    count .flsSuspend stack n c
  else c

end Sys2Proof.Machine
end

