-- ==== Sys2Proof/Machine/Transfers.lean ====
section
/-! DEFINITION. Transfers of the stream engines: what an HBM access does to its bank, delivery, and the slots and contexts
that a stream leaves (09 R281 to R283, R289, R300; 11 R338, R343). -/

namespace Sys2Proof.Machine

/-! ### HBM banks (R343) -/

/-- The HBM side of a transfer. -/
def Xfer.hbmSide (x : Xfer) : Option Nat :=
  if regionOf x.src = .hbm then some x.src else if !x.listRead && regionOf x.dst = .hbm then some x.dst else none
/-- Pseudo-channel, bank and row of every chunk that a transfer has requests queued for. -/
def Xfer.places (x : Xfer) : List (Nat × Nat × Nat) :=
  match x.hbmSide with
  | some a => (hbmChunks a x.words).map hbmPlace
  | none => []
/-- A request is queued for a place that `hit` picks: of a transfer in flight, of a page-in under way, of a write-back. -/
def Ctl.requestQueued (c : Ctl) (hit : Nat × Nat × Nat → Bool) : Bool :=
  c.xfers.any (fun x => x.places.any hit)
    || c.store.pageIns.any (fun q => match q.frame with
        | some f => (hbmChunks f (q.bytes / 32)).any fun a => hit (hbmPlace a)
        | none => false)
    || c.store.writeBacks.any fun w => regionOf (32 * w) == .hbm && hit (hbmPlace (32 * w))
/-- A request is queued for a row. -/
def Ctl.rowQueued (c : Ctl) (pc bk row : Nat) : Bool := c.requestQueued (· == (pc, bk, row))

/-- `n` column accesses of one row: the first request updates the predictor, and the last leaves the row open or closed: open
while another request to it is queued, else as the predictor says. The requests of one transfer are queued behind one another
(log entry 24). -/
def touchRow (pc bk row n : Nat) (c : Ctl) : Ctl :=
  let k := pc * 48 + bk
  let b := c.bank k
  let p := match b.lastRow with
    | none => b.pred
    | some q => if q = row then min 3 (b.pred + 1) else b.pred - 1
  let hits := if b.openRow = some row then n else n - 1
  let c := count .hbmRowMiss (pc / 32) (n - hits) (count .hbmRowHit (pc / 32) hits c)
  let open' : Bool := 2 ≤ p || c.rowQueued pc bk row
  c.setBank k { b with openRow := if open' then some row else none, lastRow := some row, keptOpen := open', pred := p }

/-- Accesses of `n` words from address `a`, chunk by chunk of 512 bytes (R335). -/
def touchHbm (a n : Nat) (c : Ctl) : Ctl :=
  (hbmChunks a n).foldl (fun c lo =>
    let hi := min (a + 32 * n) ((lo / 512 + 1) * 512)
    let (pc, bk, row) := hbmPlace lo
    touchRow pc bk row ((hi - lo) / 32) c) c

/-! ### The governor (R294 to R296) -/

/-- Budget of a parameter in MB/s (R294). -/
def budget (mb : Nat) : Nat := mb * 1024 / 1000
def Ctl.charge (c : Ctl) (tile k : Nat) : Nat := SMap.get 0 c.charges (tile * 8 + k)
/-- The governor parameters' IDs. -/
def govId (id : Nat) : Bool := 0x0900 ≤ id && id ≤ 0x0904
/-- The value of a governor parameter that is in force in the present window (R294; 13 R417). -/
def Ctl.govParam (c : Ctl) (id : Nat) : Nat := ((c.govHeld.find? fun p => p.1 = id).map (·.2)).getD (c.param id)
/-- A commit of a governor parameter reaches running work at the next window: till then the present value stays in force. -/
def holdGov (id : Nat) (c : Ctl) : Ctl :=
  if govId id ∧ !c.govHeld.any (fun p => p.1 == id) then { c with govHeld := c.govHeld ++ [(id, c.param id)] } else c
/-- Bytes that the HBM budgets of an engine leave a class in the present window (R295). -/
def hbmLeft (c : Ctl) (tile cls : Nat) : Nat :=
  let g := c.charge tile 0
  let b := c.charge tile 1
  let l := c.charge tile 2
  let total := c.govParam 0x0900
  let all := budget total - (g + b + l)
  let own := if cls = 1 then budget (c.govParam 0x0902) - b else if cls = 2 then budget (c.govParam 0x0903) - l else all
  let both := if cls ≠ 0 ∧ c.jobs.any (fun j => j.cls == 0 && !j.ended) then budget (total - c.govParam 0x0901) - (b + l) else all
  min all (min own both)
/-- Bytes that the NoC budget leaves a class; Gale is not capped (R296). -/
def nocLeft (c : Ctl) (tile cls n : Nat) : Nat := if cls = 0 then n else budget (c.govParam 0x0904) - c.charge tile 3
/-- An HBM charge fits in the present window. -/
def hbmRoom (c : Ctl) (tile cls n : Nat) : Bool := n ≤ hbmLeft c tile cls
/-- A NoC charge fits. -/
def nocRoom (c : Ctl) (tile cls n : Nat) : Bool := n ≤ nocLeft c tile cls n
/-- Charge an engine for bytes of HBM and of the NoC. -/
def chargeEngine (tile cls hbm noc : Nat) (c : Ctl) : Ctl :=
  { c with charges := addAt (addAt c.charges (tile * 8 + cls) hbm) (tile * 8 + 3) (if cls = 0 then 0 else noc) }
/-- Charge of an HBM piece of `n` bytes and of a tile-to-tile one (R291). -/
def hbmCharge (n : Nat) : Nat := if n = 0 then 0 else max n 512
def nocCharge (n : Nat) : Nat := cdiv n 64 * 64

/-! ### What an engine may write (R263 to R265, R280) -/

/-- An open window whose writer bit `b` is set covers a range of a tile store. -/
def windowBit (c : Ctl) (b a n : Nat) : Bool :=
  c.jobs.any fun j => j.windows.any fun w =>
    bit w b &&
    match j.handle? (bits w 7 0) with
    | some e => e.tiles.any fun u => tileBase u + e.base ≤ a && a + n ≤ tileBase u + e.base + e.bytes
    | none => false
/-- A window open to the engine of tile `t` covers a range of a tile store (R264). -/
def windowOpen (c : Ctl) (t a n : Nat) : Bool := windowBit c (16 + t) a n
/-- A page that holds bytes of a block list or descriptor: read-only for the life of the job (R280). -/
def Job.listPage (j : Job) (p : Page) : Bool := j.lists.any fun l => l.1 < p.va + p.bytes && p.va ≤ l.2
/-- A page of job virtual memory that the job's engines may write (R31, R37, R280). -/
def Job.mayWrite (j : Job) (p : Page) : Bool := p.write && !p.flash && !j.listPage p

/-! ### Slots that a transfer touches -/

/-- Slots of a handle's part, from byte `off` on for `n` bytes. -/
def Handle.slotsIn (e : Handle) (off n : Nat) : List Nat :=
  if e.slotBytes = 0 ∨ n = 0 then []
  else (List.range ((off + n - 1) / e.slotBytes + 1 - off / e.slotBytes)).map (off / e.slotBytes + ·)

/-- Tag keys on the slot side and on the memory side of a transfer. -/
def Xfer.slotKeys (x : Xfer) (j : Job) : List Nat :=
  match j.handle? (tSlotHandle (j.stream x.record)) with
  | some e => [e.slotKey x.tile x.slot]
  | none => []
def Xfer.memSlots (x : Xfer) (j : Job) : List Nat :=
  let r := j.stream x.record
  if !tSpace r then []
  else
    match j.handle? (tMemHandle r) with
    | some e => e.slotsIn ((if tStore r then x.dst else x.src) - e.addr x.tile 0) (32 * x.words)
    | none => []
def Xfer.memKeys (x : Xfer) (j : Job) : List Nat :=
  match j.handle? (tMemHandle (j.stream x.record)) with
  | some e => (x.memSlots j).map fun s => e.slotKey x.tile s
  | none => []
def Xfer.srcKeys (x : Xfer) (j : Job) : List Nat := if tStore (j.stream x.record) then x.slotKeys j else x.memKeys j
def Xfer.dstKeys (x : Xfer) (j : Job) : List Nat := if tStore (j.stream x.record) then x.memKeys j else x.slotKeys j

/-- Handles of a transfer's source and destination slots. -/
def Xfer.srcHandle (x : Xfer) (j : Job) : Nat :=
  let r := j.stream x.record; if tStore r then tSlotHandle r else tMemHandle r
def Xfer.dstHandle (x : Xfer) (j : Job) : Nat :=
  let r := j.stream x.record; if tStore r then tMemHandle r else tSlotHandle r
/-- Slots whose tags hold a transfer back: (handle, tag key); it waits at grant until every slot that it reads is full and every
slot that it writes is empty (R254, R283). -/
def Xfer.waits (x : Xfer) (j : Job) (c : Ctl) : List (Nat × Nat) :=
  if x.listRead then []
  else (((x.srcKeys j).filter fun k => !c.slotFull k).map fun k => (x.srcHandle j, k))
    ++ ((x.dstKeys j).filter c.slotFull).map fun k => (x.dstHandle j, k)
def Xfer.granted (x : Xfer) (j : Job) (c : Ctl) : Bool := x.waits j c == []

/-! ### Where a stream stands -/

/-- A started stream of the job whose record satisfies `pick` has not ended. -/
def Ctl.streamOpen (c : Ctl) (j : Job) (pick : Nat → Bool) : Bool :=
  c.ctxs.any (fun x => x.job == j.no && pick (j.stream x.pos.record))
    || j.saved.any (fun p => pick (j.stream p.record))
    || c.xfers.any fun x => x.job == j.no && pick (j.stream x.record)
/-- The streams that a command waits for have ended (Table 9.2): its own of START 0 and 1, and those of START 2 of the
command before it. -/
def streamsDone (c : Ctl) (j : Job) (i : Nat) : Bool :=
  !c.streamOpen j fun s => (tStart s < 2 && tCmd s == i) || (tStart s == 2 && tCmd s + 1 == i)

/-- The position of a stream: in its context, or saved with its job. -/
def Ctl.streamPos (c : Ctl) (x : Xfer) : Option (StreamPos × List Nat) :=
  match c.ctxs.find? fun y => y.tile = x.tile && y.job = x.job && y.pos.record = x.record with
  | some y => some (y.pos, y.refetch)
  | none => ((c.job? x.job).bind fun j => j.saved.find? fun p => p.record = x.record).map fun p => (p, [])

def Xfer.sameStream (x y : Xfer) : Bool := x.tile == y.tile && x.job == y.job && x.record == y.record && !x.listRead && !y.listRead

/-- Memory-side slots of a piece. -/
def memSlotsOf (j : Job) (r : Nat) (q : Piece) : List Nat :=
  if !tSpace r then []
  else match j.handle? (tMemHandle r) with | some e => e.slotsIn q.mem (32 * q.words) | none => []

/-- Tag changes of a stream that leaves slots with the delivery of `x` (R282, Table 9.3); `rest` are the transfers still in
flight. -/
def leaveSlots (m : Mem) (j : Job) (x : Xfer) (rest : List Xfer) (c : Ctl) : Ctl :=
  let r := j.stream x.record
  match c.streamPos x with
  | none => c
  | some (p, refetch) =>
    let mine := rest.filter (x.sameStream ·)
    let next := nextPiece m j p refetch
    let slotLeft : Bool := !(mine.any fun y => y.visit == x.visit) && (p.visit != x.visit || next.isNone)
    let c := if tSlotTags r && slotLeft then setAll (if tStore r then setEmpty else setFull) (x.slotKeys j) c else c
    if tMemTags r then
      let ahead := (next.toList ++ (j.piece? m p).toList).flatMap (memSlotsOf j r)
      let still := mine.flatMap (·.memSlots j) ++ ahead
      let left := (x.memSlots j).filter fun s => !still.contains s
      match j.handle? (tMemHandle r) with
      | some e => setAll (if tStore r then setFull else setEmpty) (left.map fun s => e.slotKey x.tile s) c
      | none => c
    else c

/-- A context whose stream has ended is free (R278). -/
def reap (m : Mem) (x : Xfer) (c : Ctl) : Ctl :=
  { c with ctxs := c.ctxs.filter fun y =>
      !(y.tile = x.tile && y.job = x.job && y.pos.record = x.record && y.refetch = []
        && !(c.xfers.any fun z => z.tile = y.tile && z.job = y.job && z.record = y.pos.record)
        && (match c.job? y.job with | some j => (j.piece? m y.pos).isNone | none => true)) }

/-- The words of a transfer at its source, poisoned where their slot is VOIDED (R257, R276). -/
def Xfer.wordsOf (x : Xfer) (m : Mem) (j : Job) (c : Ctl) : List WordRead :=
  let void : Nat → Bool := fun a =>
    -- the slot that holds the word
    if tStore (j.stream x.record) then (x.slotKeys j).any c.slotVoided
    else match j.handle? (tMemHandle (j.stream x.record)) with
      | some e => (e.slotsIn (a - e.addr x.tile 0) 32).any fun s => c.slotVoided (e.slotKey x.tile s)
      | none => false
  (List.range x.words).map fun i =>
    let a := x.src + 32 * i
    let r := m.readWord (a / 32)
    if void a then { r with tag := r.tag % 8 + 8 } else r

/-- Deliver a transfer: every word is written with its tag byte, the tag is freed, and slots are left (R276, R289). -/
def deliver (m : Mem) (x : Xfer) (c : Ctl) : Ctl :=
  let rest := c.xfers.filter (· ≠ x)
  let c := { c with xfers := rest }
  let c := noteMove x.job c
  let c := noteReads m ((List.range x.words).map fun i => x.src / 32 + i) c
  match c.job? x.job with
  | none => c
  | some j =>
    if x.listRead then
      let hit (y : Ctx) : Bool := y.tile = x.tile && y.ctx = x.ctx && y.job = x.job && y.pos.record = x.record
      let c := touchHbm x.src x.words c
      reap m x { c with ctxs := c.ctxs.map fun y => if hit y then { y with fetched := max y.fetched x.slot } else y }
    else
      let ws := x.wordsOf m j c
      let c := emit ((List.range x.words).flatMap fun i =>
        let w := ws.getD i { data := [], tag := 0, found := .clean }
        wholeWord (x.dst / 32 + i) w.data w.tag) c
      let c := if regionOf x.src = .hbm then touchHbm x.src x.words c else c
      let c := if regionOf x.dst = .hbm then touchHbm x.dst x.words c else c
      -- a slot that a stream fills carries all of its bytes (R410)
      let c := c.mapJob x.job fun k => { k with exec := { k.exec with writers := k.exec.writers.filter fun w => w.1 ≠ x.dstHandle j } }
      let c := count .strXfer x.tile 1 c
      reap m x (leaveSlots m j x rest c)

/-- Transfers of a job already issued complete before its contexts are freed for good (R300). -/
def deliverAll (no : Nat) : Nat → Mem → Ctl → Ctl
  | 0, _, c => c
  | n + 1, m, c =>
    match c.xfers.find? fun x => x.job = no with
    | none => c
    | some x =>
      let d := deliver m x { c with wq := [] }
      deliverAll no n (m.apply d.wq) { d with wq := c.wq ++ d.wq }

/-- The same, with their tag changes discarded (R307). -/
def deliverData (no : Nat) (m : Mem) (c : Ctl) : Ctl :=
  let tags := c.slotTags
  let c := deliverAll no c.xfers.length m c
  { c with slotTags := tags }

/-- The slot of PRODUCER intake or host that a stream at position `p` has written in part, with its tag key: what it placed last and
its next piece lie in it (R257, R282). -/
def partSlots (m : Mem) (j : Job) (p : StreamPos) : List (Handle × Nat × Nat) :=
  let r := j.stream p.record
  let of (h : Nat) (ss : Handle → List Nat) : List (Handle × Nat × Nat) := match j.handle? h with
    | some e => if e.producer = 1 ∨ e.producer = 2 then (ss e).map fun s => (e, s, e.slotKey (tTile r) s) else []
    | none => []
  if tStore r then
    if !tSpace r then []
    else
      let last (e : Handle) : List Nat :=
        if 0 < p.part then e.slotsIn ((j.extent m r p.block).1 + 32 * (p.part - 1)) 32
        else if p.block = 0 then []
        else let x := j.extent m r (p.block - 1); e.slotsIn (x.1 + x.2 - 32) 32
      of (tMemHandle r) fun e => (last e).filter (((j.piece? m p).toList.flatMap (memSlotsOf j r)).contains ·)
  else of (tSlotHandle r) fun _ => if p.slotFirst < p.block ∨ 0 < p.slotWord ∨ 0 < p.part then [p.slot] else []
/-- The streams of a job end: slots of PRODUCER intake or host that they have written in part are set full VOIDED (R257,
R308). -/
def voidParts (m : Mem) (no : Nat) (c : Ctl) : Ctl :=
  match c.job? no with
  | none => c
  | some j =>
    let ps := ((c.ctxs.filter fun x => x.job = no).map (·.pos)) ++ j.saved
    (ps.flatMap (partSlots m j)).eraseDups.foldl (fun c x => voidPart x.1 x.2.1 x.2.2 c) c

/-- Save the streams of a job and free its contexts (R300, R303). -/
def saveStreams (no : Nat) (c : Ctl) : Ctl :=
  let mine := (c.ctxs.filter fun x => x.job = no).map (·.pos)
  let c := c.mapJob no fun j => { j with saved := j.saved ++ mine }
  { c with ctxs := c.ctxs.filter fun x => x.job ≠ no }

end Sys2Proof.Machine
end

