-- ==== Sys2Proof/Machine/Operands.lean ====
section
/-! DEFINITION. Operand ports: how the Plane and the vector units read elements, blocks and scales in every format, and the
groups of the two operands of an array command (03 R77 to R93, R103; 05 R151, R155; 06 R180 to R190; 07 R212 to R220;
10 R311 to R331). Where a tensor's elements lie in its buffer follows log entry 18. -/

namespace Sys2Proof.Machine

/-! ### Reads -/

/-- What the reads of one event have met. -/
structure Port where
  /-- A read found its slot not full. -/
  wait : Bool
  /-- Logical tile whose port left the buffers of the command. -/
  outside : Option Nat
  /-- Tile whose stream engine met a job virtual address with no valid page (R37, R305). -/
  badVa : Option Nat
  /-- A stream engine read a pseudo-channel that failed (R348). -/
  hbmBad : Bool
  /-- Tile and job virtual address of pages that are not resident (R301). -/
  miss : List (Nat × Nat)
  /-- Slots that were found not full: (handle, tag key). -/
  waitOn : List (Nat × Nat)
  faults : List HeldFault
  /-- Words read: (logical tile, word index); 99 in place of the tile for a stream engine's read of HBM, 98 for one of another
  tile's store. -/
  reads : List (Nat × Nat)
  /-- Void elements that entered: (tile, reduction index). -/
  voids : List (Nat × Nat)
  /-- Blocks decoded void: by tile, operand and place. -/
  blocks : List Nat
  /-- Scale bytes taken as void: the tile of each. -/
  scaleVoid : List Nat
  /-- Saturations of port conversions: (tile, events). -/
  sat : List (Nat × Nat)
  /-- Slots of which a byte was read: (handle, slot). -/
  slots : List (Nat × Nat)
  /-- The stream engine of the tile makes the reads (R168, R208, R542). -/
  engine : Bool
  /-- Step whose ring rows are read; 0 for other reads. -/
  step : Nat
  /-- Row pair of the group that the read serves. -/
  pair : Nat
  /-- The read passes over every slot tag: a save area (R146). -/
  untied : Bool
  /-- The read serves a window band that the window caches hold whole (R190). -/
  cached : Bool
  /-- Blocks of such a band decoded now: key, elements, void. -/
  decoded : List (Nat × List Byte × Bool)
  deriving DecidableEq, Repr

def Port.empty : Port :=
  { wait := false, outside := none, badVa := none, hbmBad := false, miss := [], waitOn := [], faults := [], reads := [], voids := [], blocks := [], scaleVoid := [], sat := [], slots := [],
    engine := false, step := 0, pair := 0, untied := false, cached := false, decoded := [] }
/-- What two series of reads have met, the first one first. -/
def Port.join (a b : Port) : Port :=
  let more {α : Type} [DecidableEq α] (l k : List α) : List α := l ++ k.filter fun x => !l.contains x
  { a with wait := a.wait || b.wait, outside := a.outside.orElse fun _ => b.outside, badVa := a.badVa.orElse fun _ => b.badVa,
           hbmBad := a.hbmBad || b.hbmBad, miss := more a.miss b.miss, waitOn := more a.waitOn b.waitOn,
           faults := a.faults ++ b.faults, reads := more a.reads b.reads, voids := more a.voids b.voids,
           blocks := more a.blocks b.blocks, scaleVoid := a.scaleVoid ++ b.scaleVoid, sat := a.sat ++ b.sat,
           slots := more a.slots b.slots, decoded := a.decoded ++ b.decoded }

/-- Reads that collect what they meet. -/
abbrev Rd := StateM Port

/-- The reads of `f` are made by the tile's stream engine. -/
def byEngine {α : Type} (f : Rd α) : Rd α := do
  modify fun p => { p with engine := true }
  let a ← f
  modify fun p => { p with engine := false }
  return a

def addNew {α : Type} [DecidableEq α] (l : List α) (a : α) : List α := if l.contains a then l else l ++ [a]
def noWord : WordRead := { data := List.replicate 32 0, tag := 0, found := .clean }

/-- One word of a handle's buffer at byte offset `off`, in the part that tile `t` uses, or in job virtual memory (R250, R254,
R257, R542). A read outside the buffer is a violation of the tile's port (R469), and so is a read of another tile's store by
anything but the stream engine (Table 1.5). `tagged` reads pass their slot tag; of the others, only those of a save area deliver
the words of a VOIDED slot as they are (R146, R257). -/
def readW (m : Mem) (c : Ctl) (j : Job) (tagged : Bool) (h t off : Nat) : Rd WordRead := do
  match j.handle? h with
  | none => modify fun p => { p with outside := p.outside.orElse fun _ => some t }; return noWord
  | some e =>
    if e.place = 2 then
      let va := e.base + off / 32 * 32
      match j.page? va with
      | none => modify fun p => { p with badVa := p.badVa.orElse fun _ => some t }; return noWord
      | some pg =>
        if e.slotBytes < off / 32 * 32 + 32 then
          modify fun p => { p with badVa := p.badVa.orElse fun _ => some t }
          return noWord
        else if pg.flash ∧ !pg.resident ∧ !c.installed (pg.flashAddr + (va - pg.va)) then
          modify fun p => { p with badVa := p.badVa.orElse fun _ => some t }
          return noWord
        else if pg.flash ∧ !pg.resident then
          modify fun p => { p with wait := true, miss := addNew p.miss (t, va) }
          return noWord
        else if c.hbmFailed (pg.frame + (va - pg.va)) 1 then
          modify fun p => { p with hbmBad := true }
          return noWord
        else if c.inFlight t (pg.frame + (va - pg.va)) 32 false then
          modify fun p => { p with wait := true }
          return noWord
        else
          let w := (pg.frame + (va - pg.va)) / 32
          modify fun p => { p with reads := addNew p.reads (99, w) }
          return m.readWord w
    else if e.bytes < off / 32 * 32 + 32 || (e.place == 1 && e.home != t && !(← get).engine) then
      modify fun p => { p with outside := p.outside.orElse fun _ => some t }
      return noWord
    else
      let slot := off / e.slotBytes
      let k := e.slotKey t slot
      if tagged && !c.slotFull k then
        modify fun p => { p with wait := true, waitOn := addNew p.waitOn (h, k) }
        return noWord
      else
        let w := e.addr t (off / 32 * 32) / 32
        modify fun p =>
          let store := if e.place = 1 ∧ e.home ≠ t then 98 else t
          { p with reads := addNew p.reads (store, w), slots := addNew p.slots (h, slot) }
        let r := m.readWord w
        return (if !(← get).untied && c.slotVoided k then { r with tag := r.tag % 8 + 8 } else r)

/-- Words of a packed block slot (Table 10.1). -/
def blockWords (fmt : Nat) : Nat := match fmt with | 6 => 3 | 7 => 2 | _ => 4
/-- Bytes of a stored row of `n` elements: whole blocks when packed, else from a byte boundary on (log entry 18). -/
def rowBytes (fmt n : Nat) : Nat := if isPacked fmt then cdiv n 128 * blockWords fmt * 32 else cdiv (n * halfBytes fmt) 2
/-- Byte offset of element `i` in its row, and its place there: nibble or block element. -/
def place (fmt i : Nat) : Nat × Nat :=
  if isPacked fmt then (i / 128 * blockWords fmt * 32, i % 128) else if fmt = 1 then (i / 2, i % 2) else (i * halfBytes fmt / 2, 0)

/-- Status of a packing fault (Table 10.7). -/
def PackFault.status : PackFault → KS
  | .overrun => .packOverrun
  | .padding => .packPadding
  | .format => .packFormat

/-- The elements of a block from its words as read: the tag FORMATs must be `want` (R322, R323, R326, R328). -/
def decodeBlock (fmt : Nat) (ws : List WordRead) : Except PackFault (List Byte) :=
  let bytes := ws.flatMap (·.data)
  let tags (f : Nat) (r : Except PackFault (List Byte)) : Except PackFault (List Byte) :=
    match r with
    | .ok es => if ws.all fun w => w.format == f then .ok es else .error .format
    | .error e => .error e
  if fmt = 8 then
    match ws.head?.map (·.format) with
    | some 3 => tags 3 (decodeZm bytes)
    | some 0 => tags 0 (.ok bytes)
    | _ => .error .format
  else tags (if fmt = 7 then 2 else 1) (decodeExp (fmt = 7) bytes)

/-- Words of a block that the expander reads, given word 0. -/
def wordsToRead (fmt : Nat) (w0 : WordRead) : Nat :=
  if fmt ≠ 8 then blockWords fmt else if w0.format = 3 then zmUsedWords w0.data else if w0.format = 0 then 4 else 1

/-- Read a list of values in order. -/
def readAll {α β : Type} (f : α → Rd β) : List α → Rd (List β)
  | [] => return []
  | a :: as => do
    let b ← f a
    let bs ← readAll f as
    return b :: bs

/-- A block that a tile decodes in a pass: the tile, the operand, its place, and the step whose rows hold it (R327). -/
def blockMark (user : Nat) (weight : Bool) (h t off step : Nat) : Nat :=
  ((((user * 2 + b2n weight) * 256 + h) * 16 + t) * 2 ^ 32 + off) * 16 + step
/-- The tile of a block's mark. -/
def blockUser (k : Nat) : Nat := k / 16 / 2 ^ 32 / 16 / 256 / 2

/-- Add a fault to those met: a block that faults is needed first by the least row pair that reads it (R330). -/
def addFault (f : HeldFault) (l : List HeldFault) : List HeldFault :=
  let same (g : HeldFault) : Bool := g.tile == f.tile && g.weight == f.weight && g.handle == f.handle && g.offset == f.offset
  if l.any same then l.map fun g => if same g then { g with pair := min g.pair f.pair } else g else l ++ [f]

/-- A packed block at offset `off`, read from the store and decoded by tile `user`: its 128 elements and whether it is void (R325 to
R327, R329). -/
def decodeAt (m : Mem) (c : Ctl) (j : Job) (tagged : Bool) (fmt h t off user : Nat) (weight : Bool) : Rd (List Byte × Bool) := do
  let w0 ← readW m c j tagged h t off
  let n := if w0.poison then 1 else wordsToRead fmt w0
  let rest ← readAll (fun i => readW m c j tagged h t (off + 32 * (i + 1))) (List.range (n - 1))
  let ws := w0 :: rest
  if ws.any (·.poison) then
    modify fun p => { p with blocks := addNew p.blocks (blockMark user weight h t off p.step) }
    return (List.replicate 128 0x80#8, true)
  else
    match decodeBlock fmt ws with
    | .ok es => return (es, false)
    | .error e =>
      modify fun p =>
        -- where a slot held back the read, what it returned says nothing
        if p.wait ∨ p.outside.isSome then p
        else
          let f : HeldFault :=
            { tile := user, weight := weight, handle := h, offset := off, status := e.status.code, pair := p.pair }
          { p with faults := addFault f p.faults }
      return (List.replicate 128 0, false)

/-- Key of a band block in the window cache of tile `t`. -/
def bandKey (t off : Nat) : Nat := off * 16 + t
/-- A packed block as the operand port delivers it: from the window cache, where the pass has decoded it there (R190). -/
def readBlock (m : Mem) (c : Ctl) (j : Job) (tagged : Bool) (fmt h t off user : Nat) (weight : Bool) : Rd (List Byte × Bool) := do
  let p ← get
  match (if p.cached then j.exec.band.find? fun x => x.1 == bandKey user off else none) with
  | some x => return x.2
  | none =>
    let b ← decodeAt m c j tagged fmt h t off user weight
    modify fun q =>
      if !p.cached || q.wait || q.outside.isSome || q.faults != p.faults || q.decoded.any (fun x => x.1 == bandKey user off) then q
      else { q with decoded := q.decoded ++ [(bandKey user off, b)] }
    return b

/-- The raw value of element `sub` at byte `off` of the part, and whether its word is poisoned. -/
def readElem (m : Mem) (c : Ctl) (j : Job) (tagged : Bool) (fmt h t user : Nat) (weight : Bool) (loc : Nat × Nat) :
    Rd (Nat × Bool) := do
  if isPacked fmt then
    let (es, bad) ← readBlock m c j tagged fmt h t loc.1 user weight
    return ((es.getD loc.2 0).toNat, bad)
  else
    let w ← readW m c j tagged h t loc.1
    let v := leNat (slice w.data (loc.1 % 32) (cdiv (halfBytes fmt) 2))
    return (if fmt = 1 then bits v (4 * loc.2 + 3) (4 * loc.2) else v, w.poison)

/-- A scale byte (R43, R215, R218). -/
def readScale (m : Mem) (c : Ctl) (j : Job) (tagged : Bool) (h t off user : Nat) : Rd Int := do
  let w ← readW m c j tagged h t off
  if w.poison then
    modify fun p => { p with scaleVoid := p.scaleVoid ++ [user] }
    return voidScale
  else return signed 8 (w.data.getD (off % 32) 0).toNat

/-! ### Conversion to SP8 (R48, R65 to R67, R79) -/

/-- A raw binary16, bfloat16 or binary32 element as binary32. -/
def widen (fmt v : Nat) : F32 := if fmt = 3 then f16to32 v else if fmt = 4 then bf16to32 v else BitVec.ofNat 32 v
def isFloat (fmt : Nat) : Bool := fmt == 3 || fmt == 4 || fmt == 5

/-- A group of raw elements, none where padding supplies zero, as SP8 codes with their scale. Float activations are converted in
groups of the size that GSEL selects (R66; R213 says 128 whatever GSEL says: DESIGN CHOICE, log entry 139). -/
def convert (fmt user : Nat) (els : List (Option (Nat × Bool))) (scale : Int) : Rd (List Byte × Int) := do
  if isFloat fmt then
    let xs := els.map fun x => match x with
      | none => (0#32 : F32)
      | some (v, p) => if p then f32Void else widen fmt v
    let g := portScale xs
    let cs := xs.map fun x => toSp8 x g
    modify fun p => { p with sat := p.sat ++ [(user, (cs.map (·.2)).sum)] }
    return (cs.map (·.1), g)
  else
    return (els.map fun x => match x with
      | none => 0x00#8
      | some (v, p) => if p then 0x80#8 else if fmt = 1 then sp4Widen v else if fmt = 2 then int8ToSp8 (byte v) scale else byte v,
      scale)

/-- Read and convert, for the cells of tile `user`, a group of `locs` (none: padding) with its scale; tile `dec` decodes
packed blocks (R325). -/
def readGroup (m : Mem) (c : Ctl) (j : Job) (tagged : Bool) (fmt h t dec user : Nat) (weight : Bool)
    (locs : List (Option (Nat × Nat))) (scale : Rd Int) (k0 : Nat) : Rd (List Byte × Int) := do
  let els ← readAll (fun i => match locs.getD i none with
    | none => return none
    | some loc => do
      modify fun p => { p with pair := i }
      return some (← readElem m c j tagged fmt h t dec weight loc)) (List.range locs.length)
  let sc ← (if isFloat fmt then return 0 else scale)
  let bad := (List.range els.length).filter fun i => match els.getD i none with | some (_, p) => p | none => false
  modify fun p => { p with voids := p.voids ++ (bad.map fun i => (user, k0 + i)) }
  convert fmt user els sc

/-! ### Where the operands of an array command lie (R86 to R92, R151, R183, R185, R216, R217; log entry 18) -/

def rLanes (r : Nat) : Nat := 256 * rRho r
/-- Channels of an input pixel. -/
def rChans (r : Nat) : Nat := (rWin r).inC * (rWin r).groups
/-- First input channel of lane block `b` (R183). -/
def rC0 (r b : Nat) : Nat :=
  if rOp r = 0x13 ∨ rOp r = 0x14 then
    (if rNg r < rLanes r then b * rQ r * (rWin r).inC else b * rLanes r / max 1 (rNg r) * (rWin r).inC)
  else 0
/-- Stored index of a reduction index: window weights leave out tap padding (R185). -/
def storedK (r k : Nat) : Nat :=
  if isWindow (rOp r) then k / rCblk r * (rQ r * (rWin r).inC) + min (k % rCblk r) (rQ r * (rWin r).inC) else k
/-- A reduction index that padding supplies (R79, R183). -/
def paddedK (r k : Nat) : Bool := rKw r ≤ k || (isWindow (rOp r) && rQ r * (rWin r).inC ≤ k % rCblk r)

/-- The lanes that tile `t` computes in pass `p`: lane block, its number among the tile's own blocks, first lane, lanes. -/
def passBlock (r p t : Nat) : Option (Nat × Nat × Nat × Nat) :=
  let own := p % rLanePasses r
  let b := if rMap r = 0 then own else own * 16 + t
  if b * rLanes r < rN r then some (b, own, b * rLanes r, min (rLanes r) (rN r - b * rLanes r)) else none
/-- Positions of a tile's part. -/
def tileRows (r t : Nat) : Nat := if rMap r = 0 then min (rMt r) (rM r - t * rMt r) else rM r
/-- Rows that tile `t` computes in pass `p`: row in the pass, position, row in the part. -/
def passRows (r p t : Nat) : List (Nat × Nat × Nat) :=
  let first := p / rLanePasses r * 256
  (List.range (min 256 (tileRows r t - first))).map fun i => (i, (if rMap r = 0 then t * rMt r else 0) + first + i, first + i)
/-- Lanes that tile `t`'s part holds. -/
def tileLanes (r t : Nat) : Nat :=
  if rMap r = 0 then rN r
  else ((List.range (cdiv (rN r) (16 * rLanes r))).map fun i => min (rLanes r) (rN r - (i * 16 + t) * rLanes r)).sum

/-- The home tile of the slice that tile `t` takes in step `s` (R90). -/
def homeOf (c : Ctl) (r t s : Nat) : Nat :=
  if rMap r = 0 then c.ringOrder.getD ((c.ringPos t + 16 - s % 16) % 16) 0 else t
/-- First reduction index of group `g` of step `s` for tile `t`. -/
def groupK (c : Ctl) (r t s g : Nat) : Nat :=
  if rMap r = 0 then homeOf c r t s * rKs r + g * rG r else s * 4096 + g * rG r

/-- A row of A in the part of tile `t` (R151, R217). In stripe spread the pitch of a transposed part and of its scale plane is M_t in
every tile, the last one included (DESIGN CHOICE, log entry 110). -/
def matLocs (r row k0 : Nat) : List (Option (Nat × Nat)) × Nat :=
  let f := rFmtA r
  let trans := bit (rWord1 r) 0
  let rows := if rMap r = 0 then rMt r else rM r
  let pitch := rowBytes f (if trans then rows else rK r)
  let locs := (List.range (rG r)).map fun i =>
    let k := k0 + i
    if rK r ≤ k then none
    else
      let l := place f (if trans then row else k)
      some (l.1 + (if trans then k else row) * pitch, l.2)
  let b := k0 / rG r
  (locs, if rGsel r = 3 then row else if trans then b * rows + row else row * cdiv (rK r) (rG r) + b)

/-- The pixel under a tap, in the rows of the part of tile `t`: none in zero padding (R180, R191; log entry 18). Under PAD_MODE 1
a row that lies before the part's first reads that first row (DESIGN CHOICE, log entry 138). -/
def tapPixel (w : Win) (ow tap pos base : Nat) : Option (Nat × Nat) :=
  let iy : Int := (pos / ow * w.sh : Nat) - (w.padT : Int) + (tap / w.kw * w.dh : Nat)
  let ix : Int := (pos % ow * w.sw : Nat) - (w.padL : Int) + (tap % w.kw * w.dw : Nat)
  let inside : Bool := 0 ≤ iy && iy < w.inH && 0 ≤ ix && ix < w.inW
  if !inside && !w.edge then none
  else
    let iy := max 0 (min iy ((w.inH : Int) - 1))
    let ix := max 0 (min ix ((w.inW : Int) - 1))
    -- the part's row 0 is the first row that the tile's stripe reaches, padding rows counted
    some ((iy + (w.padT : Int) - base).toNat, ix.toNat)
/-- Input row, padding counted, at which the part of a tile that starts at position `pos` begins. -/
def stripeBase (w : Win) (ow pos : Nat) : Nat := pos / ow * w.sh

def winLocs (r t pos b k0 : Nat) : Option (List (Option (Nat × Nat)) × Nat) :=
  let w := rWin r
  let f := rFmtA r
  let base := if rMap r = 0 then stripeBase w w.ow (t * rMt r) else w.padT
  match tapPixel w w.ow (k0 / rCblk r) pos base with
  | none => none
  | some (y, x) =>
    let j0 := k0 % rCblk r
    let c0 := rC0 r b
    if rChans r ≤ c0 + j0 then none
    else
      let line := alignWord (rowBytes f (w.inW * rChans r))
      let locs := (List.range (rG r)).map fun i =>
        if rQ r * w.inC ≤ j0 + i ∨ rChans r ≤ c0 + j0 + i then none
        else
          let l := place f (x * rChans r + c0 + j0 + i)
          some (y * line + l.1, l.2)
      let s := if rGsel r = 3 then 1 else cdiv (rChans r) (rG r)
      some (locs, (y * w.inW + x) * s + (if rGsel r = 3 then 0 else (c0 + j0) / rG r))
where
  /-- Lines start on a word boundary (R185). -/
  alignWord (n : Nat) : Nat := cdiv n 32 * 32

/-- Zero padding of a whole group. -/
def zeroGroup (r : Nat) : List Byte × Int := (List.replicate (rG r) 0, 0)

/-- The activation group of one position at reduction index `k0` (R180, R183, R189). The source tile of a channel-spread window
command decodes the rows that it broadcasts (R325). A void scale byte counts once for each tile that consumes it and each group
that takes it (R218; DESIGN CHOICE, log entry 139). -/
def actGroup (m : Mem) (c : Ctl) (j : Job) (r t b k0 : Nat) (row : Nat × Nat × Nat) : Rd (List Byte × Int) :=
  let st := if rMap r = 0 then t else rSrc r
  let dec := if isWindow (rOp r) then st else t
  let read (p : List (Option (Nat × Nat)) × Nat) : Rd (List Byte × Int) := do
    modify fun p => { p with step := 0, cached := isWindow (rOp r) && isPacked (rFmtA r) && decide (rBand r ≤ 2048) }
    let g ← readGroup m c j true (rFmtA r) (rHandle r 0) st dec t false p.1 (readScale m c j true (rHandle r 1) st p.2 t) k0
    modify fun p => { p with cached := false }
    return g
  if rKw r ≤ k0 then return zeroGroup r
  else if isWindow (rOp r) then
    match winLocs r t row.2.1 b k0 with
    | some p => read p
    | none => return zeroGroup r
  else read (matLocs r row.2.2 k0)

/-- Where lane `l` of a tile's own lane block `own`, stored index `i`, lies: in the home slice, or in a ring buffer, which
holds the rows of one lane block (R90, R151, R185, R216). `len` is the stored length of the slice, `lanes` the block's lanes. -/
def weightLoc (r : Nat) (ring : Bool) (len total own lanes l i : Nat) : Nat × Nat :=
  let f := rFmtW r
  if isWindow (rOp r) then
    let p := place f l
    ((if ring then 0 else own * len * rowBytes f (rLanes r)) + i * rowBytes f lanes + p.1, p.2)
  else if bit (rWord1 r) 1 then
    let p := place f (if ring then l else own * rLanes r + l)
    (i * rowBytes f (if ring then lanes else total) + p.1, p.2)
  else
    let p := place f i
    ((if ring then l else own * rLanes r + l) * rowBytes f len + p.1, p.2)

/-- First reduction index and length of the slice that a tile's weight buffer holds. -/
def sliceOf (r home : Nat) : Nat × Nat := if rMap r = 0 then (home * rKs r, rKs r) else (0, rKc r)

/-- The weight group of lane `l` at reduction index `k0`, consumed by tile `t` in step `s` (R90, R216). -/
def weightGroup (m : Mem) (c : Ctl) (j : Job) (r t s own lanes k0 l : Nat) : Rd (List Byte × Int) :=
  let home := homeOf c r t s
  let (base, len) := sliceOf r home
  let ring := rMap r = 0 && s ≠ 0
  let s0 := storedK r base
  let slen := storedK r (base + len) - s0
  let total := tileLanes r home
  let locs := (List.range (rG r)).map fun i =>
    if paddedK r (k0 + i) then none else some (weightLoc r ring slen total own lanes l (storedK r (k0 + i) - s0))
  let nl := own * rLanes r + l
  let gb := (k0 - base) / rG r
  let soff := if !isWindow (rOp r) && bit (rWord1 r) 1 then gb * total + nl else nl * (len / rG r) + gb
  if rKw r ≤ k0 then return zeroGroup r
  else if ring then
    -- scales travel with their rows (R78): the byte that the home tile was granted in step 0, whatever its slot's tag is now (R256)
    let sc : Rd Int := do
      let p ← get
      let v ← readScale m c j false (rHandle r 3) home soff home
      set p
      return v
    do
      modify fun p => { p with step := s }
      readGroup m c j false (rFmtW r) (rHandle r (if s % 2 = 1 then 4 else 5)) t t t true locs sc k0
  else do
    modify fun p => { p with step := 0 }
    readGroup m c j true (rFmtW r) (rHandle r 2) home t t true locs (readScale m c j true (rHandle r 3) home soff home) k0

/-! ### One group (R53 to R56, R78, R93, R195) -/

/-- Reduction indices of a group whose products the cell of lane `n` takes (R195). -/
def gated (r b k0 n : Nat) : List Nat :=
  (List.range (rG r)).filter fun i =>
    !(rOp r == 0x13 || rOp r == 0x14) ||
      (!paddedK r (k0 + i) && (rC0 r b + (k0 + i) % rCblk r) / max 1 (rWin r).inC == n / max 1 (rNg r))

def sumKey (t i l : Nat) : Nat := (t * 256 + i) * 512 + l

/-- The contribution of a lane whose cell takes the products `ps`; a cell that takes none gets +0, whatever the scales (R195). -/
def laneSum (ps : List (Byte × Byte)) (ga gw : Int) : F32 × Nat :=
  if ps = [] then (0#32, 0) else contribution (innerSum ps) ga gw

/-- The contributions of one group on tile `t`: (key, contribution, saturations). A tile without lanes takes the broadcast rows
of channel spread all the same (Table 3.1). -/
def tileGroup (m : Mem) (c : Ctl) (j : Job) (r : Nat) (e : Exec) (t : Nat) : Rd (List (Nat × F32 × Nat)) :=
  match passBlock r e.pass t with
  | none => do
    let b := e.pass % rLanePasses r * 16 + t
    let _ ← readAll (fun row => actGroup m c j r t b (groupK c r t e.step e.grp) row) (passRows r e.pass t)
    return []
  | some (b, own, n0, lanes) => do
    let k0 := groupK c r t e.step e.grp
    let ws ← readAll (fun l => weightGroup m c j r t e.step own lanes k0 l) (List.range lanes)
    let rows := passRows r e.pass t
    let as_ ← readAll (fun row => actGroup m c j r t b k0 row) rows
    if rKw r ≤ k0 then return []
    else
      return (rows.zip as_).flatMap fun (row, a, ga) =>
        (List.range lanes).map fun l =>
          let (w, gw) := ws.getD l ([], 0)
          let (x, ev) := laneSum ((gated r b k0 (n0 + l)).map fun i => (a.getD i 0, w.getD i 0)) ga gw
          (sumKey t row.1 l, x, ev)

/-- The contributions of one group on all tiles. -/
def allGroups (m : Mem) (c : Ctl) (j : Job) (r : Nat) (e : Exec) : Rd (List (Nat × F32 × Nat)) := do
  let l ← readAll (fun t => tileGroup m c j r e t) (List.range 16)
  return l.flatten

/-- Running sums take contributions: the sums and the saturations by tile (R56, R57). -/
def addContributions : Sums → List (Nat × F32 × Nat) → Sums × List (Nat × Nat)
  | sums, [] => (sums, [])
  | sums, (k, x, ev) :: r =>
    let (y, ev') := runningAdd (SMap.get 0#32 sums k) x
    let (s, l) := addContributions (SMap.insert sums k y) r
    (s, if ev + ev' = 0 then l else (k / 131072, ev + ev') :: l)

/-! ### What reads raise (R98 to R104, R131, R218, R229, R245) -/

/-- The safety core's signal for a 1 ms interval (R104, R501). -/
def raiseHolds : Nat → Ctl → Ctl
  | 0, c => c
  | n + 1, c =>
    let c := count .plnHold 0 1 c
    let c := c.withPlane fun p => { p with holds := p.holds + 1, intervalHolds := p.intervalHolds + 1 }
    let c := if !c.plane.signalled && c.param 0x0303 < c.plane.intervalHolds then
        count .svcHoldAlarm 0 1 (c.withPlane fun p => { p with signalled := true, windowSignals := p.windowSignals + 1 })
      else c
    raiseHolds n c

/-- Corrections of operand reads, by store: the window counts, the excess ones and their holds. Excess corrections of
different tiles share a hold where they fall in the same plane clock, which the model leaves free (log entry 19). -/
def corrections (m : Mem) (reads : List (Nat × Nat)) (c : Ctl) : Ctl :=
  let hit := reads.filter fun x => x.1 < 16 && (m.readWord x.2).found = .corrected
  let step (a : Ctl × List Nat) (x : Nat × Nat) : Ctl × List Nat :=
    -- a correction of a word that waits for its write-back is a correction in the store too (R274)
    let c := if a.1.store.writeBacks.contains x.2 then count .tstCorr x.1 1 a.1 else a.1
    let c := count .plnCorr x.1 1 c
    let n := SMap.get 0 c.plane.windowCorr x.1 + 1
    let c := c.withPlane fun p => { p with windowCorr := SMap.put 0 p.windowCorr x.1 n }
    if n ≤ 2 then (c, a.2)
    else
      let c := count .plnCorrExcess x.1 1 c
      (c.withPlane fun p => { p with windowExcess := addAt p.windowExcess x.1 1 }, a.2 ++ [x.1])
  let (c, ex) := hit.foldl step (c, [])
  if ex = [] then c
  else
    let most := ((List.range 16).map fun t => ex.count t).foldl max 0
    let (f, c) := if most = ex.length then (0, c) else takeFree c
    raiseHolds (most + f % (ex.length - most + 1)) c

/-- Everything that reads which were granted raise: corrections, write-backs, counters, the slots read (R131). -/
def noteReadsOf (m : Mem) (no idx : Nat) (p : Port) (c : Ctl) : Ctl :=
  let c := noteReads m (p.reads.map (·.2)) (corrections m p.reads c)
  let c := p.scaleVoid.foldl (fun c t => count .plnScaleVoid t 1 c) c
  let c := p.sat.foldl (fun c x => count .plnSatPort x.1 x.2 c) c
  c.mapJob no fun k =>
    { k with exec := { k.exec with readSlots := p.slots.foldl (fun l x => addNew l (idx, x.1, x.2)) k.exec.readSlots } }

end Sys2Proof.Machine
end

