-- ==== Sys2Proof/Machine/Stages.lean ====
section
/-! DEFINITION. The vector unit's functions on one row of binary32 values: fused stages, row-wide functions, output
conversions and packing (05_matrix_vector_ops.md R154 to R161; 07_scales_requant.md R222 to R226; 10_packing.md R316 to
R321). -/

namespace Sys2Proof.Machine

/-- What the vector units have counted: saturations of functions, and rows made wholly void, by logical tile. -/
structure VCount where
  sat : List (Nat × Nat)
  rowVoid : List Nat
  deriving DecidableEq, Repr

/-- A computation of vector units. -/
abbrev Vec := StateM VCount

def VCount.zero : VCount := { sat := [], rowVoid := [] }

/-- Run an operation in tile `t`, which counts its saturation events (R229). -/
def onTile {α : Type} (t : Nat) (f : Sat α) : Vec α := do
  let (a, n) := f.run 0
  modify fun v => if n = 0 then v else { v with sat := v.sat ++ [(t, n)] }
  return a

/-- A row as the vector units hold it: position, first lane, the tile that holds each lane, lanes of a whole row. -/
structure RowCtx where
  pos : Nat
  n0 : Nat
  owner : Nat → Nat
  total : Nat

/-- Map a list with its indices, in order. -/
def mapIdx {α β : Type} (f : Nat → α → Vec β) : Nat → List α → Vec (List β)
  | _, [] => return []
  | i, a :: as => do
    let b ← f i a
    let bs ← mapIdx f (i + 1) as
    return b :: bs

/-- Apply a function to every lane in the tile that holds it. -/
def eachLane (k : RowCtx) (f : Nat → F32 → Sat F32) (xs : List F32) : Vec (List F32) :=
  mapIdx (fun i x => onTile (k.owner (k.n0 + i)) (f i x)) 0 xs

/-! ### Activation functions (Table 5.2, R156 to R158) -/

def valMax (a b : Val) : Val := if a.lt b then b else a
def valMin (a b : Val) : Val := if b.lt a then b else a

def reluF (x : F32) : Sat F32 :=
  match f32Val x with
  | .void => return f32Void
  | v => tick (emit32 (valMax v (.num ⟨0, 1⟩)))
def clampF (lo hi : F32) (x : F32) : Sat F32 :=
  match f32Val x with
  | .void => return f32Void
  | v => tick (emit32 (valMin (valMax v (f32Val lo)) (f32Val hi)))
/-- Leaky ReLU; its limit at −∞ is +0 where a is 0 (R156). -/
def leakyF (a : F32) (x : F32) : Sat F32 :=
  match f32Val x with
  | .void => return f32Void
  | .inf true => if (f32Q a).num = 0 then return 0#32 else tick (emit32 ((f32Val a).mul (.inf true)))
  | v => if v.lt (.num ⟨0, 1⟩) then tick (emit32 ((f32Val a).mul v)) else tick (emit32 v)
/-- A value passed on by the vector unit: a NaN as void, an infinity saturated, −0 as +0 (R156). -/
def passF (x : F32) : Sat F32 := tick (emit32 (f32Val x))

/-- Table activation on knots y₀ to y₂₅₆ (R158). -/
def tableF (knots : List F32) (x0 h : F32) (x : F32) : Sat F32 :=
  let y (i : Nat) : F32 := knots.getD i 0#32
  match f32Val x with
  | .void => return f32Void
  | .inf neg => passF (if neg then y 0 else y 256)
  | .num _ => do
    let d ← subF x x0
    let u ← divF d h
    let q := f32Q u
    if q.num < 0 then passF (y 0)
    else if (Q.ofInt 256).le q then passF (y 256)
    else
      let i := q.floor.toNat
      let r := (round32 (q.sub (Q.ofInt i))).1
      let dy ← subF (y (i + 1)) (y i)
      let p ← mulF r dy
      addF (y i) p

/-- The function of an OP_S_ACT slot. -/
def actF (s : Nat) (knots : List F32) (x : F32) : Sat F32 :=
  let a := sArg s
  match sSel s with
  | 0x01 => reluF x
  | 0x02 => clampF (f16to32 (bits a 15 0)) (f16to32 (bits a 31 16)) x
  | 0x03 => leakyF (f16to32 (bits a 15 0)) x
  | 0x04 => sigmoidF x
  | 0x05 => tanhF x
  | 0x06 => geluF x
  | 0x07 => siluF x
  | 0x08 => exp2F x
  | 0x09 => log2F x
  | 0x0A => recipF x
  | 0x0B => rsqrtF x
  | _ => tableF knots (f16to32 (bits a 15 0)) (f16to32 (bits a 31 16)) x

/-! ### Row-wide functions (R159 to R161) -/

/-- The tiles that hold lanes of the row, in ascending logical order. -/
def RowCtx.tiles (k : RowCtx) (n : Nat) : List Nat :=
  (List.range 16).filter fun t => (List.range n).any fun i => k.owner (k.n0 + i) = t
/-- Combined results are formed in the lowest of them (log entry 21). -/
def RowCtx.lead (k : RowCtx) (n : Nat) : Nat := (k.tiles n).headD 0

def foldF : F32 → List F32 → Sat F32
  | a, [] => return a
  | a, x :: xs => do foldF (← addF a x) xs
/-- A sum over the lanes of a row: in ascending lane order in each tile, the partial sums in ascending tile order (R161). Each sum
starts at +0 (DESIGN CHOICE, log entry 110: the spec does not say whether it starts there or at its first term, which differ
where a term is infinite). -/
def rowSum (k : RowCtx) (n : Nat) (xs : List (Nat × F32)) : Vec F32 := do
  let parts ← mapIdx (fun _ t => onTile t (foldF 0#32 ((xs.filter fun p => k.owner (k.n0 + p.1) = t).map (·.2)))) 0 (k.tiles n)
  onTile (k.lead n) (foldF 0#32 parts)

/-- A void lane makes the whole row void (R159, R160); a row not wholly void before counts once (R176). -/
def voidRow (k : RowCtx) (xs : List F32) : Vec (List F32) := do
  if xs.all f32IsVoid then return xs.map fun _ => f32Void
  else
    modify fun v => { v with rowVoid := v.rowVoid ++ [k.lead xs.length] }
    return xs.map fun _ => f32Void

/-- log2(e) as binary32 (R159). -/
def log2eF : F32 := 0x3FB8AA3B#32

/-- The larger of two values by exact value. -/
def maxF (a b : F32) : F32 := if (f32Val a).lt (f32Val b) then b else a

/-- Softmax over a row (R159). -/
def softmaxRow (k : RowCtx) (s : Nat) (xs : List F32) : Vec (List F32) := do
  if xs.any f32IsVoid then voidRow k xs
  else
    let beta : F32 := BitVec.ofNat 32 (bits (sArg s) 31 0)
    let o := bits (sArg s) 47 32
    let valid (i : Nat) : Bool := sSel s == 0 || decide (k.n0 + i ≤ k.pos + o)
    let n := xs.length
    let zs ← eachLane k (fun i x => if valid i then mulF beta x else return 0#32) xs
    let vs := ((List.range n).zip zs).filter fun p => valid p.1
    match vs with
    | [] => return xs.map fun _ => 0#32
    | v :: vr =>
      let mx := vr.foldl (fun a p => maxF a p.2) v.2
      let es ← eachLane k (fun i z => if valid i then do
        let d ← subF z mx
        exp2F (← mulF d log2eF)
        else return 0#32) zs
      let sum ← rowSum k n (((List.range n).zip es).filter fun p => valid p.1)
      let rc ← onTile (k.lead n) (recipF sum)
      eachLane k (fun i e => if valid i then mulF e rc else return 0#32) es

/-- RMS norm and layer norm over a row (R160). A row that a void γ or β alone makes void is not counted in CNT_PLN_ROW_VOID (R176;
DESIGN CHOICE, log entry 137). -/
def normRow (k : RowCtx) (s : Nat) (gamma beta : List F32) (xs : List F32) : Vec (List F32) := do
  if xs.any f32IsVoid then voidRow k xs
  else
    let n := xs.length
    let cnt := ofIntF k.total
    let eps : F32 := BitVec.ofNat 32 (bits (sArg s) 31 0)
    let idx (l : List F32) : List (Nat × F32) := (List.range n).zip l
    if sSel s = 0 then
      let sq ← eachLane k (fun _ x => mulF x x) xs
      let q ← rowSum k n (idx sq)
      let r ← onTile (k.lead n) (do rsqrtF (← addF (← divF q cnt) eps))
      eachLane k (fun i x => do mulF (← mulF x r) (gamma.getD i 0#32)) xs
    else
      let sum ← rowSum k n (idx xs)
      let mu ← onTile (k.lead n) (divF sum cnt)
      let ds ← eachLane k (fun _ x => subF x mu) xs
      let sq ← eachLane k (fun _ d => mulF d d) ds
      let v ← rowSum k n (idx sq)
      let r ← onTile (k.lead n) (do rsqrtF (← addF (← divF v cnt) eps))
      eachLane k (fun i d => do addF (← mulF (← mulF d r) (gamma.getD i 0#32)) (beta.getD i 0#32)) ds

/-! ### The chain (R126, R155) -/

/-- Operands of the stages, read for the lanes of the row. -/
structure StageIn where
  bias : List F32
  aux : List F32
  /-- The table each tile loaded from its own part, by tile. -/
  knots : List (Nat × List F32)
  deriving DecidableEq, Repr

def StageIn.table (inp : StageIn) (t : Nat) : List F32 := ((inp.knots.find? (·.1 = t)).map (·.2)).getD []

/-- One stage on a row; OP_S_REQUANT and packing are the output's (R126). -/
def stageRow (k : RowCtx) (inp : StageIn) (s : Nat) (xs : List F32) : Vec (List F32) :=
  match sOp s with
  | 0x80 => eachLane k (fun i x => addF x (inp.bias.getD i 0#32)) xs
  | 0x81 => eachLane k (fun i x => actF s (inp.table (k.owner (k.n0 + i))) x) xs
  | 0x82 => eachLane k (fun i x => addF x (inp.aux.getD i 0#32)) xs
  | 0x83 => eachLane k (fun i x => mulF x (if sSel s = 4 then BitVec.ofNat 32 (bits (sArg s) 31 0) else inp.aux.getD i 0#32)) xs
  | 0x84 => softmaxRow k s xs
  | 0x85 => normRow k s inp.aux inp.bias xs
  | _ => return xs

def chainRow (k : RowCtx) (inp : StageIn) : List Nat → List F32 → Vec (List F32)
  | [], xs => return xs
  | s :: ss, xs => do chainRow k inp ss (← stageRow k inp s xs)

/-! ### Output conversions (R70 to R72, R222 to R225, R316 to R321) -/

/-- A row as written: pieces (offset in the row, bytes, tag FORMAT), group scales, and the counted events. -/
structure Enc where
  data : List (Nat × List Byte × Nat)
  scales : List Int
  satOut : Nat
  clamp : Nat
  flush : Nat
  blockVoid : Nat
  p4Top : Nat
  dense : Nat
  deriving DecidableEq, Repr

/-- Runs of `n` elements. -/
def runsOf {α : Type} (n : Nat) (l : List α) : List (List α) :=
  if n = 0 then [l] else (List.range (cdiv l.length n)).map fun i => (l.drop (i * n)).take n

/-- Pairs of four-bit codes, the even lane in the low half. -/
def nibbles (cs : List Nat) : List Byte :=
  (List.range (cdiv cs.length 2)).map fun i => byte (cs.getD (2 * i) 0 + 16 * cs.getD (2 * i + 1) 0)

/-- Packed blocks of an SP8 row (R316 to R321). -/
def packRow (fmt : Nat) (bs : List Byte) (e : Enc) : Enc :=
  let blocks := (runsOf 128 bs).map fun b => b ++ List.replicate (128 - b.length) 0
  let step (a : Enc × Nat) (b : List Byte) : Enc × Nat :=
    let (e, off) := a
    if fmt = 8 then
      let (d, dense) := encodeZm b
      ({ e with data := e.data ++ [(off, d, if dense then 0 else 3)], dense := e.dense + b2n dense }, off + 128)
    else
      let p4 : Bool := fmt == 7
      let r := b.map fun x => if p4 then p4Round x else (x, 0)
      let p := encodeExp p4 (r.map (·.1))
      ({ e with data := e.data ++ [(off, p.bytes, if p4 then 2 else 1)], flush := e.flush + p.flushed,
                blockVoid := e.blockVoid + p.blockVoid, p4Top := e.p4Top + (r.map (·.2)).sum },
        off + (if p4 then 64 else 96))
  (blocks.foldl step (e, 0)).1

def Enc.empty : Enc :=
  { data := [], scales := [], satOut := 0, clamp := 0, flush := 0, blockVoid := 0, p4Top := 0, dense := 0 }

/-- The sum of the events of a list of conversions. -/
def evs {α : Type} (l : List (α × Nat)) : Nat := (l.map Prod.snd).sum

/-- A row of binary32 values in storage format `fmt` (0, 1, 3, 5, or packed 6, 7, 8); SP8 and SP4 take one scale per `gp`
lanes, chosen with the fixed flag and argument of R223. -/
def encodeRow (fmt gp : Nat) (fixed : Bool) (sarg : Int) (xs : List F32) : Enc :=
  if fmt = 5 then
    { Enc.empty with data := [(0, xs.flatMap fun x => toLe 4 (if f32IsVoid x then f32Void else x).toNat, 6)] }
  else if fmt = 3 then
    let cs : List (Nat × Nat) := xs.map f32to16
    { Enc.empty with data := [(0, (cs.map Prod.fst).flatMap (toLe 2), 5)], satOut := evs cs }
  else
    let gs : List (List F32 × Int × Nat) := (runsOf gp xs).map fun g => (g, requantScale g fixed sarg)
    let e := { Enc.empty with scales := gs.map (Prod.fst ∘ Prod.snd), clamp := evs (gs.map Prod.snd) }
    if fmt = 1 then
      let cs : List (Nat × Nat) := gs.flatMap fun g => g.1.map fun x => toSp4 x g.2.1
      { e with data := [(0, nibbles (cs.map Prod.fst), 4)], satOut := evs cs }
    else
      let cs : List (Byte × Nat) := gs.flatMap fun g => g.1.map fun x => toSp8 x g.2.1
      let e := { e with satOut := evs cs }
      if isPacked fmt then packRow fmt (cs.map Prod.fst) e else { e with data := [(0, cs.map Prod.fst, 0)] }

/-- Storage format of a command's output: FMT_O, or the packed form of its last stage (R120). -/
def rStored (r : Nat) : Nat :=
  match (rChain r).getLast? with
  | some s => if sOp s = 0x89 then 8 else if sOp s = 0x8A then (if bit (sSel s) 0 then 7 else 6) else rFmtO r
  | none => rFmtO r

/-- The OP_S_REQUANT slot of a chain. -/
def rRequant (r : Nat) : Option Nat := (rChain r).find? fun s => sOp s == 0x88
/-- Lanes of an output group, the whole row under per-row scales: of OP_S_REQUANT, or GSEL's (R198, R200, R223). -/
def outGroup (r total : Nat) : Nat :=
  let sel := match rRequant r with | some s => bits (sSel s) 1 0 | none => rGsel r
  if sel = 3 then max 1 total else groupLen sel
/-- MODE and SARG of the output (R223, R225). -/
def outMode (r : Nat) : Bool × Int :=
  match rRequant r with
  | some s => (bits (sSel s) 3 2 == 1, signed 8 (bits (sArg s) 7 0))
  | none => (false, 0)

end Sys2Proof.Machine
end

