-- ==== Sys2Proof/Machine/Vector.lean ====
section
/-! DEFINITION. Output rows of array and vector-only commands: where they lie, what they read, and what is written
(05 R153, R155, R162 to R168, R173, R174; 06 R197 to R209; 07 R215, R227; 10 R316). Placement follows log entries 18 and 20. -/

namespace Sys2Proof.Machine

/-! ### Rows and where their outputs lie -/

/-- A row of output: the tile that computes it, its row in the tile's part, its position, its first lane, its lanes, its
row among the pass's 256, and the number of its lane block among the tile's own. -/
structure RowAt where
  tile : Nat
  row : Nat
  pos : Nat
  n0 : Nat
  lanes : Nat
  i : Nat
  own : Nat
  deriving DecidableEq, Repr

/-- LAYOUT of OP_ELEMENTWISE; rows in runs for every other vector-only command (R163, R168, R173, R201). -/
def rLayout (r : Nat) : Nat := if rOp r = 0x4A then bits (rWord1 r) 193 192 else 0
def rDest (r : Nat) : Nat := bits (rWord1 r) 199 196
/-- Rows of tile `t` in LAYOUT 0. -/
def runRows (r t : Nat) : Nat := min (rMt r) (rM r - t * rMt r)
/-- Lanes of tile `t` in LAYOUT 1. -/
def blockLanes (r t : Nat) : Nat := ((List.range (cdiv (rN r) 4096)).map fun i => min 256 (rN r - (i * 16 + t) * 256)).sum

/-- The rows whose outputs pass `p` of a command gives, in drain order. -/
def rowsAt (r p : Nat) : List RowAt :=
  if opKind (rOp r) = .array then
    (List.range 16).flatMap fun t =>
      match passBlock r p t with
      | none => []
      | some (_, own, n0, lanes) => (passRows r p t).map fun x =>
          { tile := t, row := x.2.2, pos := x.2.1, n0 := n0, lanes := lanes, i := x.1, own := own : RowAt }
  else if rLayout r = 0 then
    (List.range 16).flatMap fun t => (List.range (runRows r t)).map fun i =>
      { tile := t, row := i, pos := t * rMt r + i, n0 := 0, lanes := rN r, i := i, own := 0 : RowAt }
  else (List.range (rM r)).map fun i =>
    { tile := 0, row := i, pos := i, n0 := 0, lanes := rN r, i := i, own := 0 : RowAt }

/-- A run of lanes of a row: the tile that converts it, its place in the row's list, its lanes, and where its elements and
its scales go. -/
structure Seg where
  conv : Nat
  at' : Nat
  lanes : Nat
  tile : Nat
  off : Nat
  len : Nat
  soff : Nat
  slen : Nat
  deriving DecidableEq, Repr

/-- Byte offset of element `i` of a stored row. -/
def placeByte (f i : Nat) : Nat := (place f i).1
/-- A scale span at the end of its plane takes the zero bytes up to its word's end (R215). -/
def padSpan (off len total : Nat) : Nat := if len ≠ 0 ∧ off + len = total then cdiv total 32 * 32 - off else len

/-- Format in which a command stores its output, and whether it has a scale plane. -/
def outFmt (r : Nat) : Nat := rStored r
def outScaled (r : Nat) : Bool := rFmtO r ≤ 1 || (rOp r == 0x46 && rFmtO r == 2)

/-- The segments of a row (R86, R87, R153, R163, R215, R227). -/
def segsOf (r : Nat) (x : RowAt) : List Seg :=
  let f := outFmt r
  let g := outGroup r (rN r)
  let s := cdiv (rN r) g
  let sl (n : Nat) : Nat := if outScaled r then n else 0
  if opKind (rOp r) = .array then
    let width := if rMap r = 0 then rN r else tileLanes r x.tile
    let first := if rMap r = 0 then x.n0 else x.own * rLanes r
    let rows := if rMap r = 0 then tileRows r x.tile else rM r
    let so := x.row * s + x.n0 / g
    [{ conv := x.tile, at' := 0, lanes := x.lanes, tile := x.tile, off := x.row * rowBytes f width + placeByte f first,
       len := rowBytes f x.lanes, soff := so, slen := padSpan so (sl (cdiv x.lanes g)) (rows * s) }]
  else if rLayout r = 0 then
    let so := x.row * s
    [{ conv := x.tile, at' := 0, lanes := x.lanes, tile := x.tile, off := x.row * rowBytes f (rN r),
       len := rowBytes f (rN r), soff := so, slen := padSpan so (sl s) (runRows r x.tile * s) }]
  else
    (List.range (cdiv (rN r) 256)).map fun b =>
      let t := b % 16
      let lanes := min 256 (rN r - b * 256)
      let dest := if rLayout r = 2 then rDest r else t
      let width := if rLayout r = 2 then rN r else blockLanes r t
      let first := if rLayout r = 2 then b * 256 else b / 16 * 256
      let perRow : Bool := s == 1
      let so := x.row * s + (if perRow then 0 else b * 256 / g)
      let n := if perRow then b2n (b == 0 || (rLayout r == 1 && decide (b < 16))) else cdiv lanes g
      { conv := t, at' := b * 256, lanes := lanes, tile := dest, off := x.row * rowBytes f width + placeByte f first,
        len := rowBytes f lanes, soff := so, slen := padSpan so (sl n) (rM r * s) : Seg }

/-- A stretch of a buffer that a row writes through a tagged handle. -/
structure Span where
  handle : Nat
  tile : Nat
  off : Nat
  len : Nat
  scale : Bool
  deriving DecidableEq, Repr

/-- The handle of maximum values of OP_ARGMAX_CHAN. -/
def rVal (r : Nat) : Nat := bits (rWord1 r) 23 16

/-- What a row writes through tagged handles (R130, R219). OP_SCATTER's rows go where its indices say. -/
def spansOf (r : Nat) (x : RowAt) : List Span :=
  if rOp r = 0x49 ∨ rHandle r 6 = 0xFF then []
  else if rOp r = 0x45 then
    { handle := rHandle r 6, tile := x.tile, off := 2 * x.row, len := 2, scale := false : Span } ::
      (if rVal r = 0xFF then [] else [{ handle := rVal r, tile := x.tile, off := 4 * x.row, len := 4, scale := false }])
  else
    (segsOf r x).flatMap fun s =>
      { handle := rHandle r 6, tile := s.tile, off := s.off, len := s.len, scale := false : Span } ::
        (if s.slen = 0 then []
         else [{ handle := rHandle r 7, tile := s.tile, off := s.soff, len := s.slen, scale := true }])

/-- The last byte, from the start of slot 0 of tile `t`'s part, of what record `r` places in that slot through handle `h`
(R410); a whole slot where the data say it. -/
def partExtent (r h : Nat) (e : Handle) (t : Nat) : Nat :=
  if rOp r = 0x49 ∨ (rOp r = 0x4B ∧ rHandle r 6 ≠ h) then e.slotBytes
  else
    let part (u : Nat) : Bool := e.place == 1 || u == t
    let ends := (List.range (if opKind (rOp r) = .array then rPasses r else 1)).flatMap fun p =>
      (rowsAt r p).flatMap fun x =>
        ((spansOf r x).filter fun s => s.handle == h && part s.tile && decide (s.off < e.slotBytes)).map fun s => s.off + s.len
    min e.slotBytes (ends.foldl max 0)

/-! ### What a row writes -/

/-- Bytes of one run into a handle's buffer. -/
structure OutRun where
  handle : Nat
  tile : Nat
  off : Nat
  data : List Byte
  fmt : Nat
  poison : Bool
  deriving DecidableEq, Repr

/-- Counted events of a row: counter, instance, events. -/
abbrev Events := List (Cnt × Nat × Nat)

/-- What a row gives: its runs and its events. -/
abbrev RowOut := List OutRun × Events

def vecEvents (v : VCount) : Events :=
  (v.sat.map fun p => (Cnt.plnSatStage, p.1, p.2)) ++ (v.rowVoid.map fun t => (Cnt.plnRowVoid, t, 1))

def encEvents (t : Nat) (e : Enc) : Events :=
  [(.plnSatOut, t, e.satOut), (.plnScaleClamp, t, e.clamp), (.pakFlush, t, e.flush), (.pakBlockVoid, t, e.blockVoid),
   (.pakP4Top, t, e.p4Top), (.pakDense, t, e.dense)]

/-- The runs of an encoded segment. -/
def segRuns (r : Nat) (s : Seg) (e : Enc) : List OutRun :=
  (e.data.map fun d =>
    { handle := rHandle r 6, tile := s.tile, off := s.off + d.1, data := d.2.1, fmt := d.2.2, poison := false : OutRun })
  ++ (if s.slen = 0 then []
      else
        let bytes := slice (e.scales.map fun g => BitVec.ofInt 8 g) 0 s.slen
        [{ handle := rHandle r 7, tile := s.tile, off := s.soff, data := bytes, fmt := 0, poison := false }])

/-- Convert and place a row of results (R126, R223, R226). -/
def writeRow (r : Nat) (x : RowAt) (xs : List F32) : RowOut :=
  let (fixed, sarg) := outMode r
  let g := outGroup r (rN r)
  let row := requantScale xs fixed sarg
  let one : Bool := outScaled r && g == max 1 (rN r)
  let segs := segsOf r x
  let outs := segs.map fun s =>
    let v := (xs.drop s.at').take s.lanes
    let e := if one then encodeRow (outFmt r) (max 1 (rN r)) true row.1 v else encodeRow (outFmt r) g fixed sarg v
    (segRuns r s e, encEvents s.conv e)
  (outs.flatMap (·.1), (if one then [(Cnt.plnScaleClamp, ((segs.map (·.conv)).headD 0), row.2)] else []) ++ outs.flatMap (·.2))

/-! ### Reads of the vector units -/

/-- A stored element as binary32 (R200). -/
def elemF (f v : Nat) (poison : Bool) (scale : Int) : F32 :=
  if poison then f32Void
  else if isFloat f then widen f v
  else if scale = voidScale then f32Void
  else if f = 2 then (round32 (int8Q (byte v) scale)).1
  else sp8To32 (if f = 1 then sp4Widen v else byte v) scale

/-- Raw elements of a row that starts at byte `base`: elements `i0` on, each with its scale. Scale bytes are read once. -/
def readRaw (m : Mem) (c : Ctl) (j : Job) (f ha hs t base i0 n sb ch0 g : Nat) : Rd (List (Nat × Bool × Int)) := do
  let els ← readAll (fun i => readElem m c j true f ha t t false (base + (place f (i0 + i)).1, (place f (i0 + i)).2))
    (List.range n)
  if isFloat f then return els.map fun e => (e.1, e.2, 0)
  else
    let s0 := ch0 / g
    let scs ← readAll (fun i => readScale m c j true hs t (sb + s0 + i) t) (List.range ((ch0 + n - 1) / g + 1 - s0))
    return (List.range n).map fun i => let e := els.getD i (0, false); (e.1, e.2, scs.getD ((ch0 + i) / g - s0) 0)

def readF (m : Mem) (c : Ctl) (j : Job) (f ha hs t base i0 n sb ch0 g : Nat) : Rd (List F32) := do
  let es ← readRaw m c j f ha hs t base i0 n sb ch0 g
  return es.map fun e => elemF f e.1 e.2.1 e.2.2

/-- A binary32 or binary16 vector in a part, from byte `off`. -/
def readVec (m : Mem) (c : Ctl) (j : Job) (tagged : Bool) (f h t off n : Nat) : Rd (List F32) := do
  let es ← readAll (fun i => readElem m c j tagged f h t t false (off + i * halfBytes f / 2, 0)) (List.range n)
  return es.map fun e => elemF f e.1 e.2 0

/-- Group length and scales of an input row of `n` channels (Table 7.2). -/
def inGroup (r n : Nat) : Nat × Nat := if rGsel r = 3 then (max 1 n, 1) else (rG r, cdiv n (rG r))

/-- Segments of the lanes of a row with the tile that reads stage operands for each: (tile, first lane in the row's list,
lanes, offset of its first lane in a tile's tensor part in elements, lanes of a part's row). -/
def stageParts (r : Nat) (x : RowAt) : List (Nat × Nat × Nat × Nat × Nat) :=
  if opKind (rOp r) = .array then
    [(x.tile, 0, x.lanes, if rMap r = 0 then x.n0 else x.own * rLanes r, if rMap r = 0 then rN r else tileLanes r x.tile)]
  else if rLayout r = 0 then [(x.tile, 0, x.lanes, 0, rN r)]
  else (List.range (cdiv (rN r) 256)).map fun b =>
    (b % 16, b * 256, min 256 (rN r - b * 256), b / 16 * 256, blockLanes r (b % 16))

/-- A stage operand of a row: a lane vector or a tensor in binary32 or binary16 (R155). -/
def readStage (m : Mem) (c : Ctl) (j : Job) (r : Nat) (x : RowAt) (h f : Nat) (tensor : Bool) : Rd (List F32) := do
  let l ← readAll (fun (p : Nat × Nat × Nat × Nat × Nat) =>
    let (t, at', n, first, width) := p
    let off := if tensor then x.row * rowBytes f width + first * halfBytes f / 2 else (x.n0 + at') * halfBytes f / 2
    readVec m c j true f h t off n) (stageParts r x)
  return l.flatten

/-- The stage operands of a row (R154, R155). -/
def stageIn (m : Mem) (c : Ctl) (j : Job) (r : Nat) (knots : List (Nat × List F32)) (x : RowAt) : Rd StageIn := do
  let half (s : Nat) : Nat := if bit (sSel s) 0 then 3 else 5
  let ch := rChain r
  let bias ← match ch.find? (fun s => sOp s == 0x80 || (sOp s == 0x85 && sSel s == 1)) with
    | some s => readStage m c j r x (rHandle r 10) (if sOp s = 0x80 then half s else 5) false
    | none => pure []
  let aux ← match ch.find? (fun s => sOp s == 0x82 || (sOp s == 0x83 && decide (sSel s < 4)) || sOp s == 0x85) with
    | some s =>
      if sOp s = 0x85 then readStage m c j r x (rHandle r 9) 5 false
      else readStage m c j r x (rHandle r 9) (half s) (sSel s < 2)
    | none => pure []
  return { bias := bias, aux := aux, knots := knots }

/-- The vector unit's view of a row. -/
def rowCtx (r : Nat) (x : RowAt) : RowCtx :=
  { pos := x.pos, n0 := x.n0, total := rN r, owner := fun n => if rLayout r = 0 then x.tile else n / 256 % 16 }

/-- A row through its stages to its outputs. An infinite input that no stage changes is saturated here, before the output
conversion, and counted as a stage saturation (DESIGN CHOICE, log entry 137). -/
def finishRow (r : Nat) (x : RowAt) (inp : StageIn) (xs : List F32) : RowOut :=
  let (ys, v) := (do
    let ys ← chainRow (rowCtx r x) inp (rChain r) xs
    eachLane (rowCtx r x) (fun _ y => passF y) ys).run VCount.zero
  let (runs, ev) := writeRow r x ys
  (runs, vecEvents v ++ ev)

/-- A row of an array command's drain: its values are the drained sums (R94, R126). -/
def arrayRow (m : Mem) (c : Ctl) (j : Job) (r : Nat) (d : Drain) (x : RowAt) : Rd RowOut := do
  let inp ← stageIn m c j r d.table x
  return finishRow r x inp ((List.range x.lanes).map fun l => SMap.get 0#32 d.vals (sumKey x.tile x.i l))

/-- The input lanes of a row of OP_ELEMENTWISE (R162, R163). -/
def elementIn (m : Mem) (c : Ctl) (j : Job) (r : Nat) (x : RowAt) : Rd (List F32) := do
  let f := rFmtA r
  let (g, s) := inGroup r (rN r)
  let l ← readAll (fun (p : Nat × Nat × Nat × Nat × Nat) =>
    let (t, at', n, first, width) := p
    readF m c j f (rHandle r 0) (rHandle r 1) t (x.row * rowBytes f width) first n (x.row * s) at' g) (stageParts r x)
  return l.flatten

/-- A row of OP_ELEMENTWISE. -/
def elementRow (m : Mem) (c : Ctl) (j : Job) (r : Nat) (d : Drain) (x : RowAt) : Rd RowOut := do
  let xs ← elementIn m c j r x
  let inp ← stageIn m c j r d.table x
  return finishRow r x inp xs

/-! ### Window commands of the vector units (R200 to R209) -/

/-- A pixel's channels in binary32: row `y` of the part, column `px`. -/
def readPixel (m : Mem) (c : Ctl) (j : Job) (r t w ch y px : Nat) : Rd (List F32) :=
  let f := rFmtA r
  let (g, s) := inGroup r ch
  let line := cdiv (rowBytes f (w * ch)) 32 * 32
  readF m c j f (rHandle r 0) (rHandle r 1) t (y * line) (px * ch) ch ((y * w + px) * s) 0 g

/-- Results of a window command: void outputs are counted (R201). -/
def windowOut (r : Nat) (x : RowAt) (f : Vec (List F32)) : RowOut :=
  let (ys, v) := f.run VCount.zero
  let (runs, ev) := writeRow r x ys
  (runs, vecEvents v ++ ev ++ [(.plnWinVoid, x.tile, (ys.filter f32IsVoid).length)])

/-- OP_POOL_MAX and OP_POOL_AVG (R202). -/
def poolRow (m : Mem) (c : Ctl) (j : Job) (r : Nat) (x : RowAt) : Rd RowOut := do
  let w := rWin r
  let base := stripeBase w w.ow (x.tile * rMt r)
  let taps ← readAll (fun tap => match tapPixel w w.ow tap x.pos base with
    | none => pure (List.replicate w.inC 0#32)
    | some (y, px) => readPixel m c j r x.tile w.inW w.inC y px) (List.range (w.kh * w.kw))
  let lane (i : Nat) : List F32 := taps.map fun t => t.getD i 0#32
  let one (i : Nat) : Sat F32 := do
    let vs := lane i
    if vs.any f32IsVoid then return f32Void
    else if rOp r = 0x40 then passF ((vs.drop 1).foldl maxF (vs.headD 0#32))
    else divF (← foldF (vs.headD 0#32) (vs.drop 1)) (ofIntF (w.kh * w.kw : Nat))
  return windowOut r x (eachLane (rowCtx r x) (fun i _ => one i) (List.replicate w.inC 0#32))

/-- The fields of the resampling commands (Table 6.6). -/
structure Samp where
  inH : Nat
  inW : Nat
  inC : Nat
  outH : Nat
  outW : Nat
  border : Bool
  deriving DecidableEq, Repr
def rSamp (r : Nat) : Samp :=
  let w := rWord1 r
  { inH := bits w 15 0, inW := bits w 31 16, inC := bits w 47 32, outH := bits w 63 48, outW := bits w 79 64,
    border := bit w 80 }

def halfF : F32 := 0x3F000000#32
/-- A coordinate of R206: (d + 0.5) × (n / out) − 0.5, clamped. -/
def sampleAt (d n out : Nat) : Sat F32 := do
  let q ← divF (ofIntF n) (ofIntF out)
  let a ← addF (ofIntF d) halfF
  let p ← mulF a q
  let s ← subF p halfF
  return clampCoord s n
where
  clampCoord (s : F32) (n : Nat) : F32 :=
    if (f32Q s).num < 0 then 0#32 else if (Q.ofInt ((n : Int) - 1)).lt (f32Q s) then ofIntF ((n : Int) - 1) else s

/-- A coordinate of R207 before its clamp: y1 + (i + 0.5) × ((y2 − y1) / out) − 0.5. -/
def boxAt (a b : F32) (i out : Nat) : Sat F32 := do
  let d ← subF b a
  let q ← divF d (ofIntF out)
  let k ← addF (ofIntF i) halfF
  let p ← mulF k q
  let s ← addF a p
  subF s halfF

/-- The four pixels and two fractions of bilerp at clamped coordinates (R206). -/
def corners (sy sx : F32) (h w : Nat) : (Nat × Nat) × (Nat × Nat) × F32 × F32 :=
  let y0 := (f32Q sy).floor.toNat
  let x0 := (f32Q sx).floor.toNat
  ((y0, min (y0 + 1) (h - 1)), (x0, min (x0 + 1) (w - 1)), (round32 ((f32Q sy).sub (Q.ofInt y0))).1,
    (round32 ((f32Q sx).sub (Q.ofInt x0))).1)

/-- bilerp on the four values of a channel (R206). -/
def bilerp (v00 v01 v10 v11 fy fx : F32) : Sat F32 := do
  let d0 ← subF v01 v00
  let t0 ← mulF fx d0
  let top ← addF v00 t0
  let d1 ← subF v11 v10
  let t1 ← mulF fx d1
  let bot ← addF v10 t1
  let d ← subF bot top
  let p ← mulF fy d
  addF top p

/-- The bilinear result at clamped coordinates; `base` is the first input row of the part. -/
def bilerpRow (m : Mem) (c : Ctl) (j : Job) (r : Nat) (x : RowAt) (s : Samp) (base : Nat) (sy sx : F32) :
    Rd (Vec (List F32)) := do
  let engine : Bool := rOp r == 0x44
  let ((y0, y1), (x0, x1), fy, fx) := corners sy sx s.inH s.inW
  let px (y q : Nat) : Rd (List F32) :=
    let f := readPixel m c j r x.tile s.inW s.inC (y - base) q
    if engine then byEngine f else f
  let a ← px y0 x0
  let b ← px y0 x1
  let d ← px y1 x0
  let e ← px y1 x1
  return eachLane (rowCtx r x) (fun i v => bilerp v (b.getD i 0#32) (d.getD i 0#32) (e.getD i 0#32) fy fx) a

/-- OP_UPSAMPLE_NEAREST (R205). Row 0 of a tile's part is the first input row of the tile's first position (DESIGN CHOICE, log
entry 138). -/
def nearestRow (m : Mem) (c : Ctl) (j : Job) (r : Nat) (x : RowAt) : Rd RowOut := do
  let s := rSamp r
  let row (pos : Nat) : Nat := pos / s.outW * s.inH / s.outH
  let vs ← readPixel m c j r x.tile s.inW s.inC (row x.pos - row (x.tile * rMt r)) (x.pos % s.outW * s.inW / s.outW)
  return windowOut r x (eachLane (rowCtx r x) (fun _ v => passF v) vs)

/-- OP_UPSAMPLE_BILINEAR (R206). Row 0 of a tile's part is the floor of the sample row of the tile's first position (DESIGN CHOICE, log
entry 138). -/
def bilinearRow (m : Mem) (c : Ctl) (j : Job) (r : Nat) (x : RowAt) : Rd RowOut := do
  let s := rSamp r
  let (sy, n1) := (sampleAt (x.pos / s.outW) s.inH s.outH).run 0
  let (sx, n2) := (sampleAt (x.pos % s.outW) s.inW s.outW).run 0
  let first := ((sampleAt (x.tile * rMt r / s.outW) s.inH s.outH).run 0).1
  let f ← bilerpRow m c j r x s (f32Q first).floor.toNat sy sx
  let (runs, ev) := windowOut r x f
  return (runs, (.plnSatStage, x.tile, n1 + n2) :: ev)

/-- OP_CROP_RESIZE (R207): a box's row. Under PLACE 0 every tile's part holds the whole box list, box b at byte 16 × b, and the
whole map (DESIGN CHOICE, log entry 138). -/
def cropRow (m : Mem) (c : Ctl) (j : Job) (r : Nat) (x : RowAt) : Rd RowOut := do
  let s := rSamp r
  let box := x.pos / (s.outH * s.outW)
  let k := x.pos % (s.outH * s.outW)
  let cs ← byEngine (readVec m c j true 5 (bits (rWord1 r) 95 88) x.tile (16 * box) 4)
  let co (i : Nat) : F32 := cs.getD i 0#32
  if cs.any fun v => f32IsVoid v || f32IsInf v then
    let (runs, ev) := writeRow r x (List.replicate s.inC f32Void)
    return (runs, (.plnBoxVoid, 0, b2n (k == 0)) :: ev)
  else
    let (sy, n1) := (boxAt (co 0) (co 2) (k / s.outW) s.outH).run 0
    let (sx, n2) := (boxAt (co 1) (co 3) (k % s.outW) s.outW).run 0
    let out (v : F32) (n : Nat) : Bool :=
      (f32Q v).lt ⟨-1, 2⟩ || (⟨2 * (n : Int) - 1, 2⟩ : Q).lt (f32Q v)
    if !s.border && (out sy s.inH || out sx s.inW) then
      let (runs, ev) := writeRow r x (List.replicate s.inC 0#32)
      return (runs, (.plnSatStage, x.tile, n1 + n2) :: ev)
    else
      let f ← bilerpRow m c j r x s 0 (sampleAt.clampCoord sy s.inH) (sampleAt.clampCoord sx s.inW)
      let (runs, ev) := windowOut r x f
      return (runs, (.plnSatStage, x.tile, n1 + n2) :: ev)

/-- Index and value of the largest of a list by exact value, the lowest index first (R209). -/
def argmax : List F32 → Nat → Nat × F32 → Nat × F32
  | [], _, b => b
  | v :: vs, i, b => argmax vs (i + 1) (if (f32Val b.2).lt (f32Val v) then (i, v) else b)

/-- OP_ARGMAX_CHAN (R209). -/
def argmaxRow (m : Mem) (c : Ctl) (j : Job) (r : Nat) (x : RowAt) : Rd RowOut := do
  let ch := bits (rWord1 r) 15 0
  let f := rFmtA r
  let (g, s) := inGroup r ch
  let vs ← readF m c j f (rHandle r 0) (rHandle r 1) x.tile (x.row * rowBytes f ch) 0 ch (x.row * s) 0 g
  let bad := vs.any f32IsVoid
  let best := argmax (vs.drop 1) 1 (0, vs.headD 0#32)
  let (v, n) := (passF best.2).run 0
  let run (h off : Nat) (d : List Byte) (fmt : Nat) : OutRun :=
    { handle := h, tile := x.tile, off := off, data := d, fmt := fmt, poison := false }
  let idx := run (rHandle r 6) (2 * x.row) (toLe 2 (if bad then 0xFFFF else best.1)) 0
  let mx := run (rVal r) (4 * x.row) (toLe 4 (if bad then f32Void else v).toNat) 6
  return (if rVal r = 0xFF then [idx] else [idx, mx],
    [(.plnWinVoid, x.tile, b2n bad), (.plnSatStage, x.tile, if bad ∨ rVal r = 0xFF then 0 else n)])

/-- Runs of bytes of equal POISON. -/
def poisonRuns (h t off fmt : Nat) (bs : List (Byte × Bool)) : List OutRun :=
  (List.range bs.length).map fun i =>
    let b := bs.getD i (0, false)
    { handle := h, tile := t, off := off + i, data := [b.1], fmt := fmt, poison := b.2 : OutRun }

/-! ### OP_SPACE_TO_CHAN (R197, R198) -/

/-- An SP8 code re-encoded with a scale `k` turns higher. -/
def recodeSp8 (b : Byte) (k : Nat) : Byte :=
  if sp8IsVoid b || sp8IsZero b then b
  else
    let s := if sp8Neg b then 128 else 0
    if 8 * k < sp8Mag b then byte (s + sp8Mag b - 8 * k) else if 8 * k < sp8Mag b + 8 then byte (s + 1) else 0x00#8
/-- A four-bit SP4 code re-encoded with a scale `k` turns higher. -/
def recodeSp4 (n k : Nat) : Nat :=
  let s := n / 8 * 8
  let q := n % 8
  if q = 0 then n else if 2 * k < q then s + q - 2 * k else if 2 * k ≤ q + 1 then s + 1 else 0
/-- An INT8 element v × 2^(−k), rounded. -/
def recodeInt8 (b : Byte) (k : Nat) : Byte := BitVec.ofInt 8 (Q.dyadic b.toInt (-(k : Int))).round

/-- A copied element of a group. -/
structure Copied where
  code : Nat
  /-- It was re-encoded with the group's larger scale. -/
  recoded : Bool
  /-- It is void and its format has no void code: its word is written poisoned (R67, R235). -/
  poison : Bool
  /-- Saturations of the function, and of the output conversion (R156, R72). -/
  sat : Nat
  satOut : Nat
  deriving DecidableEq, Repr

/-- One element of a group with scale `go` (R198, R200, R201). A binary16 element goes through binary32, as R200 says. A void INT8
element keeps its byte and poisons the word that it is written into (DEDUCED, log entry 110). -/
def recode (f : Nat) (go : Int) (e : Nat × Bool × Int) : Copied :=
  let (v, bad, gs) := e
  if f = 3 then
    let (y, n) := (passF (if bad then f32Void else f16to32 v)).run 0
    let (h, k) := f32to16 y
    { code := h, recoded := false, poison := false, sat := n, satOut := k }
  else
    let k := (go - gs).toNat
    let void : Bool := bad || (gs == voidScale && go != voidScale)
    let code : Nat :=
      if f = 2 then (if void then v else (recodeInt8 (byte v) k).toNat)
      else if f = 1 then (if void then 8 else recodeSp4 v k)
      else (if void then 0x80 else (recodeSp8 (byte v) k).toNat)
    { code := code, recoded := decide (gs < go), poison := void && f == 2, sat := 0, satOut := 0 }

/-- OP_SPACE_TO_CHAN's row. Row 0 of a tile's part is the first input row of the tile's first position (DESIGN CHOICE, log entry
138). -/
def s2cRow (m : Mem) (c : Ctl) (j : Job) (r : Nat) (x : RowAt) : Rd RowOut := do
  let w := rWord1 r
  let inH := bits w 15 0
  let inW := bits w 31 16
  let ic := bits w 47 32
  let bh := bits w 51 48
  let bw := bits w 55 52
  let f := rFmtA r
  let ow := cdiv inW bw
  let base := x.tile * rMt r / ow * bh
  let (g, s) := inGroup r ic
  let line := cdiv (rowBytes f (inW * ic)) 32 * 32
  let px ← readAll (fun q =>
    let y := x.pos / ow * bh + q / bw
    let xx := x.pos % ow * bw + q % bw
    if inH ≤ y ∨ inW ≤ xx then pure (List.replicate ic none)
    else do
      let es ← readRaw m c j f (rHandle r 0) (rHandle r 1) x.tile ((y - base) * line) (xx * ic) ic
        (((y - base) * inW + xx) * s) 0 g
      return es.map some) (List.range (bh * bw))
  let els := px.flatten ++ List.replicate (rN r - bh * bw * ic) none
  let og := outGroup r (rN r)
  let groups := (runsOf og els).map fun (l : List (Option (Nat × Bool × Int))) =>
    let scs := l.filterMap fun e => e.map fun a => a.2.2
    let go := (scs.drop 1).foldl max (scs.headD 0)
    (go, l.map fun e => match e with
      | none => { code := 0, recoded := false, poison := false, sat := 0, satOut := 0 : Copied }
      | some a => recode f go a)
  let codes := groups.flatMap (·.2)
  let vs := codes.map (·.code)
  let data := if f = 1 then nibbles vs else if f = 3 then vs.flatMap (toLe 2) else vs.map byte
  let enc := { Enc.empty with data := [(0, data, if f = 1 then 4 else if f = 3 then 5 else 0)], scales := groups.map (·.1) }
  let voids := (els.filter fun e => match e with
    | some (v, bad, gs) => bad || (f ≠ 3 && (gs = voidScale || (f = 0 && v = 0x80) || (f = 1 && v = 8))) || (f = 3 && f32IsVoid (f16to32 v))
    | none => false).length
  -- the runs of INT8 codes, cut where POISON changes
  let mark (q : OutRun) : List OutRun :=
    if q.handle ≠ rHandle r 6 ∨ !(codes.any (·.poison)) then [q]
    else poisonRuns q.handle q.tile q.off q.fmt (q.data.zip (codes.map (·.poison)))
  return ((segsOf r x).flatMap fun sg => (segRuns r sg enc).flatMap mark,
    [(.plnS2cRecode, 0, codes.countP (·.recoded)), (.plnWinVoid, x.tile, voids),
     (.plnSatStage, x.tile, (codes.map (·.sat)).sum), (.plnSatOut, x.tile, (codes.map (·.satOut)).sum)])

/-! ### Gather and scatter (R165 to R167) -/

/-- Bytes of a buffer, each with the POISON of its word. -/
def readBytes (m : Mem) (c : Ctl) (j : Job) (tagged : Bool) (h t off n : Nat) : Rd (List (Byte × Bool)) := do
  let ws ← readAll (fun i => readW m c j tagged h t (off / 32 * 32 + 32 * i)) (List.range (cdiv (off % 32 + n) 32))
  return ((ws.flatMap fun w => w.data.map fun b => (b, w.poison)).drop (off % 32)).take n

def tagFmt (f : Nat) : Nat := match f with | 1 => 4 | 3 => 5 | 5 => 6 | _ => 0
/-- A void row of `n` elements. -/
def voidElems (f n : Nat) : List Byte :=
  match f with
  | 1 => nibbles (List.replicate n 8)
  | 3 => (List.replicate n 0x7E01).flatMap (toLe 2)
  | 5 => (List.replicate n f32Void.toNat).flatMap (toLe 4)
  | _ => List.replicate n 0x80#8
/-- An index of the list: none where its word is poisoned (log entry 22). Index p of the M indices lies at 4 × p of the buffer, under
PLACE 0 of the part of the tile that handles row p, so that every part holds the whole list (DESIGN CHOICE, log entry 110). -/
def readIndex (m : Mem) (c : Ctl) (j : Job) (r : Nat) (x : RowAt) : Rd (Option Nat) := do
  let bs ← byEngine (readBytes m c j true (bits (rWord1 r) 39 32) x.tile (4 * x.pos) 4)
  let p ← get
  return if bs.any (·.2) || p.wait then none else some (leNat (bs.map (·.1)))

/-- Scale bytes of a row to copy: poisoned ones are the void scale (R218). -/
def readScales (m : Mem) (c : Ctl) (j : Job) (tagged : Bool) (h t off n : Nat) : Rd (List Byte) := do
  let bs ← readBytes m c j tagged h t off n
  modify fun p => { p with scaleVoid := p.scaleVoid ++ List.replicate (bs.countP (·.2)) t }
  return bs.map fun b => if b.2 then 0x80#8 else b.1

def gatherRow (m : Mem) (c : Ctl) (j : Job) (r : Nat) (x : RowAt) : Rd RowOut := do
  let f := rFmtA r
  let n := rowBytes f (rN r)
  let rows := bits (rWord1 r) 31 0
  let (_, s) := inGroup r (rN r)
  let idx ← readIndex m c j r x
  let fill (d : List Byte) (sc : Byte) (ev : Events) : RowOut :=
    ((segsOf r x).flatMap fun sg =>
      segRuns r sg { Enc.empty with data := [(0, d, tagFmt f)], scales := List.replicate s sc.toInt }, ev)
  match idx with
  | some i =>
    if i < rows then
      let d ← byEngine (readBytes m c j true (rHandle r 0) x.tile (i * n) n)
      let sc ← if hasScale f then byEngine (readScales m c j true (rHandle r 1) x.tile (i * s) s) else pure []
      return ((segsOf r x).flatMap fun sg =>
        poisonRuns (rHandle r 6) sg.tile sg.off (tagFmt f) d
          ++ (if sg.slen = 0 then [] else
              [{ handle := rHandle r 7, tile := sg.tile, off := sg.soff, data := slice sc 0 sg.slen, fmt := 0, poison := false }]), [])
    else if i = 0xFFFFFFFF then return fill (List.replicate n 0) 0 []
    else return fill (voidElems f (rN r)) 0x80#8 [(.plnIndexRange, 0, 1)]
  | none => return fill (voidElems f (rN r)) 0x80#8 [(.plnIndexRange, 0, 1)]

/-- OP_SCATTER: what one list position writes into the table; MODE 1 reads the table as `m` holds it. -/
def scatterRow (m : Mem) (c : Ctl) (j : Job) (r : Nat) (x : RowAt) : Rd RowOut := do
  let f := rFmtA r
  let n := rowBytes f (rN r)
  let (_, s) := inGroup r (rN r)
  let add := bit (rWord1 r) 40
  let idx ← readIndex m c j r x
  match idx with
  | some i =>
    if i < bits (rWord1 r) 31 0 then
      if add then
        let a ← readVec m c j true 5 (rHandle r 0) x.tile (x.row * n) (rN r)
        let b ← byEngine (readVec m c j false 5 (rHandle r 6) x.tile (i * n) (rN r))
        let (ys, v) := (eachLane (rowCtx r x) (fun l y => addF y (a.getD l 0#32)) b).run VCount.zero
        return ([{ handle := rHandle r 6, tile := x.tile, off := i * n, data := ys.flatMap fun y => toLe 4 y.toNat,
                   fmt := 6, poison := false }], vecEvents v)
      else
        let d ← readBytes m c j true (rHandle r 0) x.tile (x.row * n) n
        let sc ← if hasScale f then readScales m c j true (rHandle r 1) x.tile (x.row * s) s else pure []
        return (poisonRuns (rHandle r 6) x.tile (i * n) (tagFmt f) d
          ++ (if hasScale f then
                [{ handle := rHandle r 7, tile := x.tile, off := i * s, data := sc, fmt := 0, poison := false }]
              else []), [])
    else return ([], [(.plnIndexRange, 0, b2n (i ≠ 0xFFFFFFFF))])
  | none => return ([], [(.plnIndexRange, 0, 1)])

/-! ### OP_ADAPT_UPDATE (R174) -/

/-- Fields of Table 5.6. -/
structure Adapt where
  lr : F32
  beta1 : F32
  beta2 : F32
  eps : F32
  gradMul : F32
  step : Nat
  adam : Bool
  deriving DecidableEq, Repr
def rAdapt (r : Nat) : Adapt :=
  let w := rWord1 r
  let f (hi lo : Nat) : F32 := BitVec.ofNat 32 (bits w hi lo)
  { lr := f 31 0, beta1 := f 63 32, beta2 := f 95 64, eps := f 127 96, gradMul := f 159 128, step := bits w 191 160,
    adam := bits w 199 192 == 1 }

def oneF : F32 := 0x3F800000#32
/-- 1 − exp2(step × log2(beta)); a STEP above 2^24 is first rounded to binary32 (DESIGN CHOICE, log entry 137). -/
def adaptTerm (step : Nat) (beta : F32) : Sat F32 := do
  let l ← log2F beta
  let p ← mulF (ofIntF step) l
  let e ← exp2F p
  subF oneF e
/-- c1 and c2, computed once per command. -/
def adaptTerms (a : Adapt) : Sat (F32 × F32) := do
  let c1 ← adaptTerm a.step a.beta1
  let c2 ← adaptTerm a.step a.beta2
  return (c1, c2)

/-- One element: new w, m and v. -/
def adaptElem (a : Adapt) (c : F32 × F32) (g w mo v : F32) : Sat (F32 × F32 × F32) := do
  let g ← mulF g a.gradMul
  let bm ← mulF a.beta1 mo
  if !a.adam then
    let m1 ← addF bm g
    let d ← mulF a.lr m1
    let w1 ← subF w d
    return (w1, m1, v)
  else
    let k1 ← subF oneF a.beta1
    let t1 ← mulF k1 g
    let m1 ← addF bm t1
    let bv ← mulF a.beta2 v
    let k2 ← subF oneF a.beta2
    let gg ← mulF g g
    let t2 ← mulF k2 gg
    let v1 ← addF bv t2
    let rc1 ← recipF c.1
    let rc2 ← recipF c.2
    let mh ← mulF m1 rc1
    let vh ← mulF v1 rc2
    let s ← if vh = 0#32 then pure 0#32 else do
      let q ← rsqrtF vh
      mulF vh q
    let se ← addF s a.eps
    let q ← recipF se
    let p ← mulF mh q
    let d ← mulF a.lr p
    let w1 ← subF w d
    return (w1, m1, v1)

/-- Saturations of the elements that `kept` marks in a row that is converted under the scales of the whole row. -/
def keptSats (r : Nat) (ys : List F32) (kept : List Bool) : Nat :=
  let (fixed, sarg) := outMode r
  let g := outGroup r (rN r)
  ((runsOf g ys).zip (runsOf g kept)).foldl (fun n b =>
    let s := (encodeRow (outFmt r) g fixed sarg b.1).scales.headD 0
    n + (encodeRow (outFmt r) g true s ((b.1.zip b.2).map fun y => if y.2 then y.1 else 0#32)).satOut) 0

/-- A row of OP_ADAPT_UPDATE: weights and moments are read and written in place, without slot tags (log entry 23). The scale of an
SP8 inference copy is chosen as MODE 0 of R223 chooses it, in GSEL's groups, over all weights of the group, those of skipped
elements included; the scale byte is written and a skipped element's code stays (DESIGN CHOICE, log entry 110). -/
def adaptRow (m : Mem) (c : Ctl) (j : Job) (r : Nat) (x : RowAt) : Rd RowOut := do
  let a := rAdapt r
  let n := rN r
  let gr ← readF m c j (rFmtA r) (rHandle r 0) (rHandle r 1) x.tile (x.row * rowBytes (rFmtA r) n) 0 n 0 0 1
  let own (h : Nat) : Rd (List F32) := readVec m c j false 5 (rHandle r h) x.tile (x.row * 4 * n) n
  let ws ← own 2
  let ms ← own 9
  let vs ← if a.adam then own 10 else pure (List.replicate n 0#32)
  let (terms, termSat) := (adaptTerms a).run 0
  let ((out : List (Option (F32 × F32 × F32))), v) := (mapIdx (fun i g => onTile x.tile (do
    if f32IsVoid g then return none
    else return some (← adaptElem a terms g (ws.getD i 0#32) (ms.getD i 0#32) (vs.getD i 0#32)))) 0 gr).run VCount.zero
  let four (h i : Nat) (y : F32) : OutRun :=
    { handle := rHandle r h, tile := x.tile, off := (x.row * n + i) * 4, data := toLe 4 y.toNat, fmt := 6, poison := false }
  let inPlace := (List.range n).flatMap fun i => match out.getD i none with
    | some (w1, m1, v1) => [four 2 i w1, four 9 i m1] ++ (if a.adam then [four 10 i v1] else [])
    | none => []
  let skipped := out.countP Option.isNone
  -- the terms are computed once per command, where its first row is (log entry 110)
  let ev := (Cnt.plnAdaptVoid, 0, skipped) :: (.plnSatStage, x.tile, if x.pos = 0 then termSat else 0) :: vecEvents v
  if rHandle r 6 = 0xFF then return (inPlace, ev)
  else
    let w' := (List.range n).map fun i => match out.getD i none with | some o => o.1 | none => ws.getD i 0#32
    let (runs, ev2) := writeRow r x w'
    -- a skipped element is not converted: it takes part in the scales alone
    let ev2 := (ev2.filter fun y => y.1 != .plnSatOut)
      ++ [(.plnSatOut, x.tile, keptSats r w' ((List.range n).map fun i => (out.getD i none).isSome))]
    let eb := halfBytes (rFmtO r) / 2
    -- out[e] of a skipped element stays as it was
    let keep (q : OutRun) : List OutRun :=
      if q.handle ≠ rHandle r 6 then [q]
      else (List.range n).filterMap fun i =>
        if (out.getD i none).isNone then none
        else some { q with off := q.off + i * eb, data := slice q.data (i * eb) eb }
    return (inPlace ++ runs.flatMap keep, ev ++ ev2)

/-- A row of any command that writes. -/
def outRow (m : Mem) (c : Ctl) (j : Job) (r : Nat) (d : Drain) (x : RowAt) : Rd RowOut :=
  match rOp r with
  | 0x40 | 0x41 => poolRow m c j r x
  | 0x42 => nearestRow m c j r x
  | 0x43 => bilinearRow m c j r x
  | 0x44 => cropRow m c j r x
  | 0x45 => argmaxRow m c j r x
  | 0x46 => s2cRow m c j r x
  | 0x48 => gatherRow m c j r x
  | 0x49 => scatterRow m c j r x
  | 0x4A => elementRow m c j r d x
  | 0x4B => adaptRow m c j r x
  | _ => arrayRow m c j r d x

end Sys2Proof.Machine
end

