-- ==== Sys2Proof/Machine/Drain.lean ====
section
/-! DEFINITION. The drain: outputs of a pass or of a vector-only command written through their handles, slot by slot, and the
save area (03 R94, R97, R108; 04 R130, R145, R148; 07 R219). -/

namespace Sys2Proof.Machine

/-! ### The list of a job -/

def Job.cmd (j : Job) (i : Nat) : Nat := j.cmds.getD i 0
def Job.now (j : Job) : Nat := j.cmd j.exec.pc
def Job.kind (j : Job) : OpKind := opKind (rOp j.now)
/-- Change a job's place in its list; a master of its run has moved. -/
def onExec (no : Nat) (f : Exec → Exec) (c : Ctl) : Ctl := noteMove no (c.mapJob no fun j => { j with exec := f j.exec })

/-! ### Slots and the passes that write them -/

def Handle.part (e : Handle) (t : Nat) : Nat := if e.place = 1 then e.home else t
/-- Slots that a span touches. -/
def Span.slots (e : Handle) (s : Span) : List Nat :=
  if s.len = 0 ∨ e.slotBytes = 0 then []
  else
    let a := s.off / e.slotBytes
    (List.range ((s.off + s.len - 1) / e.slotBytes + 1 - a)).map (a + ·)
def Span.hits (h : Nat) (e : Handle) (scale : Bool) (t slot : Nat) (s : Span) : Bool :=
  s.handle == h && s.scale == scale && e.part s.tile == t && (s.slots e).contains slot

def passesOf (r : Nat) : Nat := if opKind (rOp r) = .array then rPasses r else 1

/-- Last pass that writes elements of slot `slot` in part `t` of handle `h`. -/
def outLast (r h : Nat) (e : Handle) (t slot : Nat) : Option Nat :=
  ((List.range (passesOf r)).filter fun p => (rowsAt r p).any fun x => (spansOf r x).any (Span.hits h e false t slot)).getLast?

/-- Last pass that writes scales of a scale slot, or elements they cover (R219). -/
def scaleLast (j : Job) (r h : Nat) (e : Handle) (t slot : Nat) : Option Nat :=
  let ps := (List.range (passesOf r)).flatMap fun p => (rowsAt r p).flatMap fun x =>
    if !(spansOf r x).any (Span.hits h e true t slot) then []
    else
      p :: ((spansOf r x).filter fun s => !s.scale).flatMap fun s =>
        match j.handle? s.handle with
        | some eo => (s.slots eo).filterMap fun k => outLast r s.handle eo (eo.part s.tile) k
        | none => []
  match ps with
  | [] => none
  | p :: q => some (q.foldl max p)

def slotLast (j : Job) (r h : Nat) (e : Handle) (scale : Bool) (t slot : Nat) : Option Nat :=
  if scale then scaleLast j r h e t slot else outLast r h e t slot

/-- Parts of a slot that pass `p` completes: those whose last output it writes and, with the last of them, those that no
output reaches (R130). -/
def slotDone (j : Job) (r h : Nat) (e : Handle) (scale : Bool) (p slot : Nat) : List Nat :=
  let last := e.tiles.map fun t => (t, slotLast j r h e scale t slot)
  let most := last.foldl (fun a x => match x.2 with | some q => max a (q + 1) | none => a) 0
  (last.filter fun x => match x.2 with | some q => q == p | none => most == p + 1).map (·.1)

/-- The tagged handles that a record writes, each with whether it holds scales. -/
def outHandles (r : Nat) : List (Nat × Bool) :=
  (if rHandle r 6 = 0xFF then [] else [(rHandle r 6, false)])
    ++ (if rHandle r 7 = 0xFF then [] else [(rHandle r 7, true)])
    ++ (if rOp r = 0x45 ∧ rVal r ≠ 0xFF then [(rVal r, false)] else [])
/-- Header handle fields through which OP_ADAPT_UPDATE writes in place. -/
def inPlace (r : Nat) : List Nat := if rOp r = 0x4B then [rHandle r 2, rHandle r 9] ++ (if rHandle r 10 = 0xFF then [] else [rHandle r 10]) else []
/-- Every handle that a record writes through. -/
def rWrites (r : Nat) : List Nat := (outHandles r).map (·.1) ++ inPlace r

/-- The tag keys that a row's spans touch. -/
def rowKeys (j : Job) (r : Nat) (x : RowAt) : List Nat :=
  (spansOf r x).flatMap fun s =>
    match j.handle? s.handle with
    | some e => (s.slots e).map fun k => e.slotKey s.tile k
    | none => []

/-- A slot that a pass completes: its handle, the tag keys to set full, and the last row of the pass that writes it. -/
structure DoneSlot where
  handle : Nat
  scale : Bool
  slot : Nat
  keys : List Nat
  last : Nat
  deriving DecidableEq, Repr

/-- The slots that pass `p` completes and has not filled (R130, R219). -/
def doneSlots (j : Job) (r p : Nat) (filled : List Nat) : List DoneSlot :=
  (outHandles r).flatMap fun hs =>
    match j.handle? hs.1 with
    | none => []
    | some e =>
      (List.range e.slotCount).filterMap fun s =>
        let ks := ((slotDone j r hs.1 e hs.2 p s).map fun t => e.slotKey t s).filter fun k => !filled.contains k
        let rows := (rowsAt r p).filter fun x => (spansOf r x).any fun q =>
          q.handle == hs.1 && q.scale == hs.2 && (q.slots e).contains s && ks.contains (e.slotKey q.tile s)
        if ks = [] then none
        else some { handle := hs.1, scale := hs.2, slot := s, keys := ks, last := (rows.map (·.i)).foldl max 0 }

/-- A scale slot waits for the slots that hold the elements its scales cover: those of every pass that writes it (R219). -/
def coversUnfilled (j : Job) (r p : Nat) (filled : List Nat) (q : DoneSlot) : Bool :=
  q.scale &&
  match j.handle? q.handle with
  | none => false
  | some e =>
    (List.range (passesOf r)).any fun n => (rowsAt r n).any fun x =>
      (spansOf r x).any (fun s => s.handle == q.handle && s.scale && (s.slots e).contains q.slot
        && q.keys.contains (e.slotKey s.tile q.slot)) &&
      (spansOf r x).any fun s => !s.scale &&
        (match j.handle? s.handle with
         | some eo => (s.slots eo).any fun k =>
             outLast r s.handle eo (eo.part s.tile) k == some p && !filled.contains (eo.slotKey s.tile k)
         | none => false)

/-! ### Runs -/

/-- A run cut at multiples of `n` bytes of its buffer. -/
def OutRun.cut (n : Nat) (q : OutRun) : List OutRun :=
  if n = 0 ∨ q.data = [] then []
  else
    let a := q.off / n
    (List.range ((q.off + q.data.length - 1) / n + 1 - a)).map fun i =>
      let lo := max q.off ((a + i) * n)
      let hi := min (q.off + q.data.length) ((a + i + 1) * n)
      { q with off := lo, data := slice q.data (lo - q.off) (hi - lo) }

/-- Join runs that follow one another. -/
def joinRuns : List OutRun → List OutRun
  | [] => []
  | a :: rest =>
    match joinRuns rest with
    | [] => [a]
    | b :: bs =>
      if a.off + a.data.length = b.off ∧ a.fmt = b.fmt ∧ a.poison = b.poison then
        { a with data := a.data ++ b.data } :: bs
      else a :: b :: bs
/-- Runs grouped by buffer and part, consecutive ones joined: the vector unit gathers the rows of a drain into whole words
(log entry 20). -/
def gatherRuns (qs : List OutRun) : List OutRun :=
  ((qs.map fun q => (q.handle, q.tile)).eraseDups).flatMap fun k =>
    joinRuns (qs.filter fun q => (q.handle, q.tile) = k)

/-- Why a drain does not go on. -/
inductive DrainStop where
  | operandWait (miss : List (Nat × Nat)) (on : List (Nat × Nat))
  | drainWait (on : List (Nat × Nat))
  /-- A port or a vector unit of the tile leaves its ranges or the buffers of the command (R33, R469). -/
  | outside (tile : Nat)
  /-- The tile writes through a handle with WRITE 0 (Table 8.5, R30). -/
  | noWrite (tile : Nat)
  /-- The tile's stream engine meets a bad address (R305), a closed window (R264) or a failed pseudo-channel (R348). -/
  | badVa (tile : Nat)
  | noWindow (tile : Nat)
  | hbmFault
  deriving DecidableEq, Repr

/-- The stop ends the command; the others wait. -/
def DrainStop.fails : DrainStop → Bool
  | .operandWait _ _ | .drainWait _ => false
  | _ => true

/-- Where a run of a command of opcode `op` goes: (device address, run) pieces, or what stops it. Into PLACE 2, and into
another tile's store for OP_SCATTER, the stream engine writes (R168, R542); all else the vector unit does, into its own tile
store (Table 1.5). -/
def OutRun.target (c : Ctl) (j : Job) (op : Nat) (q : OutRun) : Except DrainStop (List (Nat × OutRun)) :=
  match j.handle? q.handle with
  | none => .error (.outside q.tile)
  | some e =>
    if e.place = 2 then
      if !e.write ∨ e.slotBytes < q.off + q.data.length then .error (.badVa q.tile)
      else
        (q.cut 32).foldr (fun w acc =>
          match j.page? (e.base + w.off), acc with
          | some p, .ok l =>
            let a := p.frame + (e.base + w.off - p.va)
            if !j.mayWrite p then .error (.badVa q.tile)
            else if c.hbmFailed (a / 32 * 32) 1 then .error .hbmFault
            else if c.inFlight q.tile a w.data.length true then .error (.operandWait [] [])
            else .ok ((a, w) :: l)
          | none, _ => .error (.badVa q.tile)
          | _, .error s => .error s) (.ok [])
    else if !e.write then .error (.noWrite q.tile)
    else if e.bytes < q.off + q.data.length then .error (.outside q.tile)
    else if e.place = 1 ∧ e.home ≠ q.tile then
      if op ≠ 0x49 then .error (.outside q.tile)
      else if windowOpen c q.tile (e.addr q.tile q.off) q.data.length then .ok [(e.addr q.tile q.off, q)]
      else .error (.noWindow q.tile)
    else .ok [(e.addr q.tile q.off, q)]
/-- The tag key of a run's bytes, where its buffer has tags. -/
def OutRun.key (j : Job) (q : OutRun) : Option Nat :=
  match j.handle? q.handle with
  | some e => if e.place = 2 ∨ e.slotBytes = 0 then none else some (e.slotKey q.tile (q.off / e.slotBytes))
  | none => none
/-- What the writes of a list position of OP_SCATTER charge its tile's engine, HBM and NoC: one transfer of each (R168, R291;
DESIGN CHOICE, log entry 111). -/
def runsCost (j : Job) (qs : List OutRun) : Nat × Nat :=
  let bytes (f : Handle → OutRun → Bool) : Nat :=
    (qs.map fun q => match j.handle? q.handle with | some e => if f e q then q.data.length else 0 | none => 0).sum
  (hbmCharge (bytes fun e _ => e.place == 2), nocCharge (bytes fun e q => e.place == 1 && e.home != q.tile))

/-- What a write would take back. -/
def undoOf (m : Mem) : Wr → Wr
  | .data a _ => .data a (m.byteAt a)
  | .tag w _ => .tag w (m.tagAt w)
  | .flaw k _ => .flaw k (SMap.get 0 m.flaws k)

/-- Write runs: the memories and the control state after, and the writes that take them back, last first. -/
def writeRuns : List (Nat × OutRun) → Mem → Ctl → Mem × Ctl × List Wr
  | [], m, c => (m, c, [])
  | (a, q) :: qs, m, c =>
    let ws := runWrite m a q.data q.fmt q.poison
    let back := ws.map (undoOf m)
    let c := if regionOf a = .hbm then touchHbm (a / 32 * 32) (cdiv (a % 32 + q.data.length) 32) c else c
    let c := noteReads m (mergedWords a q.data.length) c
    let (m', c', u) := writeRuns qs (m.apply ws) (emit ws c)
    (m', c', u ++ back.reverse)

/-! ### One attempt of the drain -/

/-- The outcome of an attempt: the control state that it leaves, or what stops it and the control state that stays. -/
abbrev Attempt (α : Type) := Except (DrainStop × Ctl) α

/-- Consecutive words as (first, count). -/
def wordRuns : List Nat → List (Nat × Nat)
  | [] => []
  | w :: ws =>
    match wordRuns ws with
    | (v, n) :: rest => if v = w + 1 then (w, n + 1) :: rest else (w, 1) :: (v, n) :: rest
    | [] => [(w, 1)]
/-- What reads of the vector units and of the engines that serve them raise: corrections and write-backs, row buffers, counters,
the slots read (R131, R218, R245, R343). -/
def noteVector (m : Mem) (no idx : Nat) (p : Port) (c : Ctl) : Ctl :=
  let c := noteReads m (p.reads.map (·.2)) c
  let c := (wordRuns ((p.reads.filter fun x => x.1 = 99).map (·.2))).foldl (fun c x => touchHbm (32 * x.1) x.2 c) c
  let c := touchFrames ((p.reads.filter fun x => x.1 = 99).map (·.2)) c
  let c := p.scaleVoid.foldl (fun c t => count .plnScaleVoid t 1 c) c
  c.mapJob no fun k =>
    { k with exec := { k.exec with readSlots := p.slots.foldl (fun l x => addNew l (idx, x.1, x.2)) k.exec.readSlots } }

def countEvents (ev : Events) (c : Ctl) : Ctl := ev.foldl (fun c e => count e.1 e.2.1 e.2.2 c) c

/-- A stop that reads ask for. -/
def Port.stop (p : Port) (op : Nat) (inputWaits : Bool) : Option DrainStop :=
  match p.outside, p.badVa with
  | some t, _ => some (.outside t)
  | none, some t => some (.badVa t)
  | none, none =>
    if p.hbmBad then some .hbmFault
    else if !p.wait then none
    else if opKind op = .vector ∧ (op ≠ 0x4A ∨ inputWaits) then some (.operandWait p.miss p.waitOn) else some (.drainWait p.waitOn)
/-- What the reads of a row charge its tile's engine, HBM and NoC: the words of one row in HBM, or in other tiles' stores,
are one transfer of each (R168, R208, R291; DESIGN CHOICE, log entry 111). -/
def Port.cost (p : Port) : Nat × Nat :=
  (hbmCharge (32 * p.reads.countP fun x => x.1 = 99), nocCharge (32 * p.reads.countP fun x => x.1 = 98))

/-- The engines of the tiles take what the governor allows of the charges `need`, (tile, HBM, NoC); whether all of it is
granted. What a window grants stays granted while the rest waits (R168, R294 to R296). -/
def payFor (cls : Nat) (need : List (Nat × Nat × Nat)) (c : Ctl) : Bool × Ctl :=
  (List.range 16).foldl (fun (a : Bool × Ctl) t =>
    let mine := need.filter fun x => x.1 == t
    let paid (k : Nat) : Nat := match a.2.plane.drain with | some d => SMap.get 0 d.paid (2 * t + k) | none => 0
    let h := (mine.map (·.2.1)).sum - paid 0
    let n := (mine.map (·.2.2)).sum - paid 1
    if h = 0 ∧ n = 0 then a
    else
      let gh := min h (hbmLeft a.2 t cls)
      let gn := min n (nocLeft a.2 t cls n)
      let c := (chargeEngine t cls gh gn a.2).withPlane fun p =>
        { p with drain := p.drain.map fun d => { d with paid := addAt (addAt d.paid (2 * t) gh) (2 * t + 1) gn } }
      if gh < h ∨ gn < n then (false, count .strGovWait (t * 3 + cls) 1 c) else (a.1, c)) (true, c)

/-- Write pieces of runs of one or more rows: each run is cut at slots, `want` says which tag keys are written, and no slot of
them may be full. -/
def putRuns (j : Job) (op : Nat) (want : Option Nat → Bool) (qs : List OutRun) (tagged : Bool) (m : Mem) (c : Ctl) :
    Except DrainStop (Mem × Ctl × List Wr) :=
  let sb (q : OutRun) : Nat := match j.handle? q.handle with | some e => if e.place = 2 then 2 ^ 48 else e.slotBytes | none => 0
  match qs.findSome? fun q => match q.target c j op with | .error s => some s | .ok _ => none with
  | some s => .error s
  | none =>
    let pieces := (qs.flatMap fun q => q.cut (sb q)).filter fun q => want (q.key j)
    let full := pieces.filter fun q => match q.key j with | some k => c.slotFull k | none => false
    if tagged ∧ full ≠ [] then .error (.drainWait (full.filterMap fun q => (q.key j).map fun k => (q.handle, k)).eraseDups)
    else .ok (writeRuns ((gatherRuns pieces).flatMap fun q => match q.target c j op with | .ok l => l | .error _ => []) m c)

/-- Compute rows, all against the same memories: each with what its reads meet. -/
def computeRows (m : Mem) (c : Ctl) (j : Job) (r : Nat) (d : Drain) (xs : List RowAt) : List (RowAt × RowOut × Port) :=
  xs.map fun x => (x, (outRow m c j r d x).run Port.empty)

/-- In-place runs of OP_ADAPT_UPDATE pass no tag (log entry 23). -/
def splitTagged (r : Nat) (qs : List OutRun) : List OutRun × List OutRun :=
  (qs.filter fun q => !(inPlace r).contains q.handle, qs.filter fun q => (inPlace r).contains q.handle)

/-- The rows of a save area: every running sum of the pass (R97; log entry 18). -/
def saveRuns (r p : Nat) (vals : Sums) : List OutRun :=
  (rowsAt r p).map fun x =>
    { handle := rHandle r 8, tile := x.tile, off := x.i * rLanes r * 4,
      data := (List.range x.lanes).flatMap fun l => toLe 4 (SMap.get 0#32 vals (sumKey x.tile x.i l)).toNat,
      fmt := 6, poison := false : OutRun }
/-- Read a save area back. -/
def loadSums (m : Mem) (c : Ctl) (j : Job) (r p : Nat) : Rd Sums := do
  modify fun p => { p with untied := true }
  let l ← readAll (fun (x : RowAt) => do
    let vs ← readVec m c j false 5 (rHandle r 8) x.tile (x.i * rLanes r * 4) x.lanes
    return (List.range x.lanes).map fun l => (sumKey x.tile x.i l, vs.getD l 0#32)) (rowsAt r p)
  return l.flatten.foldl (fun s x => SMap.insert s x.1 x.2) []

/-- The rows of the drain in progress whose input is awaited, for a wait of OP_ELEMENTWISE. -/
def inputWaits (m : Mem) (c : Ctl) (j : Job) (r : Nat) (xs : List RowAt) : Bool :=
  rOp r = 0x4A && ((readAll (fun x => elementIn m c j r x) xs).run Port.empty).2.wait

/-- Write rows of a drain where `want` names the tag key: each row is computed, its reads and its engine's charges are granted,
and its outputs are written. The events of a row, those of its reads among them, are counted the first time that the drain computes
it, and stay counted where the command then ends (R229, R230). -/
def writeRows (m : Mem) (d : Drain) (j : Job) (xs : List RowAt) (want : Option Nat → Bool) (c : Ctl) : Attempt (Ctl × List Wr) :=
  let r := j.cmds.getD d.idx 0
  let rows := computeRows m c j r d xs
  let fresh := rows.filter fun y => rOp r == 0x4B || !(rowKeys j r y.1).any d.filled.contains
  let all (l : List (RowAt × RowOut × Port)) : Port := l.foldl (fun p y => p.join y.2.2) Port.empty
  let seen (l : List (RowAt × RowOut × Port)) (c : Ctl) : Ctl :=
    countEvents (l.flatMap fun y => y.2.1.2) (noteVector m j.no d.idx (all l) c)
  match (all rows).stop (rOp r) (inputWaits m c j r xs) with
  | some s => .error (s, if s.fails then seen (fresh.takeWhile fun y => (y.2.2.stop (rOp r) true).isNone) c else c)
  | none =>
    match payFor j.cls (fresh.map fun y => (y.1.tile, y.2.2.cost)) c with
    | (false, c) => .error (.operandWait [] [], c)
    | (true, c) =>
      let (tq, uq) := splitTagged r (rows.flatMap fun y => y.2.1.1)
      let fail (s : DrainStop) : Attempt (Ctl × List Wr) := .error (s, if s.fails then seen fresh c else c)
      match putRuns j (rOp r) want tq true m c with
      | .error s => fail s
      | .ok (m', c', w) =>
        match putRuns j (rOp r) (fun _ => true) uq false m' c' with
        | .error s => fail s
        | .ok (_, c', w') => .ok (seen fresh c', w' ++ w)

/-- OP_SCATTER, list position by list position (R167): the memories and the control state after, what its engines are charged, and the
writes that take it back. -/
def scatterRows (j : Job) (r : Nat) (d : Drain) :
    List RowAt → List (Nat × Nat × Nat) → List Wr → Mem → Ctl → Ctl → Attempt (Ctl × List (Nat × Nat × Nat) × List Wr)
  | [], need, undo, _, c, _ => .ok (c, need, undo)
  | x :: xs, need, undo, m, c, c0 =>
    let ((qs, ev), p) := (outRow m c j r d x).run Port.empty
    -- the events of the positions before stay counted where the command ends
    let fail (s : DrainStop) (f : Ctl → Ctl) : Attempt (Ctl × List (Nat × Nat × Nat) × List Wr) :=
      .error (s, if s.fails then f { c with wq := c0.wq, slotTags := c0.slotTags } else c0)
    let note (c : Ctl) : Ctl := countEvents ev (noteVector m j.no d.idx p c)
    match p.stop (rOp r) true with
    | some s => fail s id
    | none =>
      match putRuns j (rOp r) (fun _ => true) qs (!bit (rWord1 r) 40) m c with
      | .error s => fail s note
      | .ok (m', c', w) =>
        scatterRows j r d xs (need ++ [(x.tile, p.cost), (x.tile, runsCost j qs)]) (w ++ undo) m' (note c') c0

/-- Slots that each list position of OP_SCATTER writes through their tags, as (handle, slot), or what holds the list back; MODE 1
passes no tag (R130, R167). -/
def scatterTouch (m : Mem) (c : Ctl) (j : Job) (r : Nat) (d : Drain) : Except DrainStop (List (List (Nat × Nat))) :=
  (rowsAt r 0).foldr (fun x acc =>
    let ((qs, _), p) := (outRow m c j r d x).run Port.empty
    match p.stop (rOp r) true, acc with
    | some s, _ => .error s
    | none, .error s => .error s
    | none, .ok l =>
      .ok ((qs.flatMap fun q => match j.handle? q.handle with
        | some e => if bit (rWord1 r) 40 ∨ e.place = 2 then [] else (q.cut e.slotBytes).map fun w => (q.handle, w.off / e.slotBytes)
        | none => []).eraseDups :: l)) (.ok [])
/-- The slots of OP_SCATTER that are not filled: each with every part of it, and the last list position that writes it (R130). -/
def scatterSlots (j : Job) (r : Nat) (filled : List Nat) (l : List (List (Nat × Nat))) : List DoneSlot :=
  l.flatten.eraseDups.filterMap fun k =>
    match j.handle? k.1 with
    | none => none
    | some e =>
      let ks := (e.slotKeys k.2).filter fun x => !filled.contains x
      if ks = [] then none
      else some { handle := k.1, scale := k.1 == rHandle r 7, slot := k.2, keys := ks,
                  last := ((List.range l.length).filter fun i => (l.getD i []).contains k).foldl max 0 }
/-- A scale slot of OP_SCATTER waits for the slots of the elements that its scales cover (R219). -/
def scatterHeld (l : List (List (Nat × Nat))) (all : List DoneSlot) (q : DoneSlot) : Bool :=
  q.scale && all.any fun o => !o.scale && l.any fun ks => ks.contains (q.handle, q.slot) && ks.contains (o.handle, o.slot)

/-- The drain registers are free. -/
def freeRegisters (c : Ctl) : Ctl := c.withPlane fun p => { p with drain := none, drainWait := none, atPassEnd := false }
/-- A drain has ended: the registers are free, and nothing of it is cut off any more (R145). -/
def freeDrain (c : Ctl) : Ctl :=
  match c.plane.drain with
  | none => freeRegisters c
  | some d =>
    let past (e : Exec) : Exec := { e with cut := e.cut.filter fun x => x.idx ≠ d.idx || x.pass ≠ d.pass }
    freeRegisters (if d.toSave then c else c.mapJob d.job fun j => { j with exec := past j.exec })

/-- Write the rest of a drain and set its slots full; the drain registers are then free (R94, R130). -/
def completeDrain (m : Mem) (d : Drain) (j : Job) (c : Ctl) : Attempt Ctl :=
  let r := j.cmds.getD d.idx 0
  if d.toSave then
    match putRuns j (rOp r) (fun _ => true) (saveRuns r d.pass d.vals) false m c with
    | .ok (_, c, _) => .ok (freeDrain c)
    | .error s => .error (s, c)
  else if rOp r = 0x49 then
    match scatterRows j r d ((rowsAt r 0).drop d.rows) [] [] m c c with
    | .error s => .error s
    | .ok (c', need, _) =>
      let ks := match scatterTouch m c j r d with | .ok l => (scatterSlots j r d.filled l).flatMap (·.keys) | .error _ => []
      match payFor j.cls need c with
      | (false, c) => .error (.operandWait [] [], c)
      | (true, c) => .ok (freeDrain (setAll setFull ks { c' with charges := c.charges }))
  else
    let left := (rowsAt r d.pass).filter fun x =>
      if rOp r = 0x4B then decide (d.rows ≤ x.i) else spansOf r x = [] || !(rowKeys j r x).all d.filled.contains
    let want (k : Option Nat) : Bool := match k with | some k => !d.filled.contains k | none => true
    match writeRows m d j left want c with
    | .error s => .error s
    | .ok (c, _) => .ok (freeDrain (setAll setFull ((doneSlots j r d.pass d.filled).flatMap (·.keys)) c))

/-- Of the slots `all` that may fill, the one named: slots fill in drain order, and one that is `held` back by others holds none of
them back (R130, R219). -/
def pickSlot (all : List DoneSlot) (held : DoneSlot → Bool) (h slot : Nat) (scale : Bool) : Option DoneSlot :=
  (all.find? fun q => q.handle == h && q.scale == scale && q.slot == slot).filter fun q =>
    !held q && all.all fun o => held o || decide (q.last ≤ o.last)

/-- The slot of the command's first output handle, or of its second (scales, or maximum values), that the drain may fill now: a scale
slot after its elements (R130, R219). -/
def nextSlot (j : Job) (r : Nat) (d : Drain) (slot : Nat) (second : Bool) : Option DoneSlot :=
  if d.toSave ∨ rOp r = 0x49 then none
  else
    match (outHandles r)[b2n second]? with
    | none => none
    | some (h, sc) => pickSlot (doneSlots j r d.pass d.filled) (coversUnfilled j r d.pass d.filled) h slot sc

/-- The slot is full: the drain has written `rows`, which `w` would take back. -/
def slotFilled (d : Drain) (q : DoneSlot) (rows : Nat) (w : List Wr) (c : Ctl) : Ctl :=
  (setAll setFull q.keys c).withPlane fun p =>
    { p with drain := some { d with filled := d.filled ++ q.keys, rows := rows, undo := w ++ d.undo, paid := [] }, drainWait := none,
             atPassEnd := false }

/-- Write the list positions of OP_SCATTER up to the last that writes a slot, and set it full (R130, R167). -/
def fillScatter (m : Mem) (d : Drain) (j : Job) (slot : Nat) (second : Bool) (c : Ctl) : Attempt Ctl :=
  let r := j.cmds.getD d.idx 0
  match scatterTouch m c j r d with
  | .error s => .error (s, c)
  | .ok l =>
    let all := scatterSlots j r d.filled l
    match pickSlot all (scatterHeld l all) (rHandle r (if second then 7 else 6)) slot second with
    | none => .ok c
    | some q =>
      let n := max d.rows (q.last + 1)
      match scatterRows j r d (((rowsAt r 0).take n).drop d.rows) [] [] m c c with
      | .error s => .error s
      | .ok (c', need, w) =>
        match payFor j.cls need c with
        | (false, c) => .error (.operandWait [] [], c)
        | (true, c) => .ok (slotFilled d q n w { c' with charges := c.charges })

/-- Write the outputs of one slot and set it full (R130, R219); the state is unchanged where the slot is not the next of the
drain's to fill. OP_ADAPT_UPDATE, which updates in place, writes all of its rows up to the slot's last. -/
def fillSlot (m : Mem) (d : Drain) (j : Job) (slot : Nat) (second : Bool) (c : Ctl) : Attempt Ctl :=
  let r := j.cmds.getD d.idx 0
  if rOp r = 0x49 ∧ !d.toSave then fillScatter m d j slot second c
  else
    match nextSlot j r d slot second with
    | none => .ok c
    | some q =>
      let adapt : Bool := rOp r == 0x4B
      let n := if adapt then max d.rows (q.last + 1) else d.rows
      let xs := (rowsAt r d.pass).filter fun x =>
        if adapt then decide (d.rows ≤ x.i) && decide (x.i < n) else (rowKeys j r x).any q.keys.contains
      let want (k : Option Nat) : Bool := adapt || match k with | some k => q.keys.contains k | none => false
      match writeRows m d j xs want c with
      | .error s => .error s
      | .ok (c, w) => .ok (slotFilled d q n w c)

/-! ### Completion (R131, R149, R174) -/

/-- No drain of the command is left, in the drain registers or cut off. -/
def Ctl.drainOver (c : Ctl) (j : Job) (i : Nat) : Bool :=
  (match c.plane.drain with | some d => d.job != j.no || d.idx != i | none => true)
    && (match j.exec.cut with | some d => d.idx != i | none => true)

/-- What completion does in the command's own slots and counters: its releases and its signal (R131, R149, R174). -/
def closeCommand (j : Job) (i : Nat) (c : Ctl) : Ctl :=
  let r := j.cmd i
  let read (h : Nat) : List Nat := (j.exec.readSlots.filter fun x => x.1 = i && x.2.1 = h).map (·.2.2)
  let release (h : Nat) (c : Ctl) : Ctl :=
    match j.handle? h with | some e => setAll setEmpty ((read h).flatMap e.slotKeys) c | none => c
  let c := if rRelA r then release (rHandle r 0) c else c
  let c := if rRelAux r then release (rHandle r 9) c else c
  let c := match rSignalDone r, j.handle? (rHandle r 12) with
    | true, some e => setAll setFull (e.slotKeys 0) c
    | _, _ => c
  let c := count .plnCmdDone j.cls 1 c
  let c := if opKind (rOp r) = .vector then count .plnVecCmd j.cls 1 c else c
  let c := if rOp r = 0x4B then count .plnAdaptStep 0 1 c else c
  onExec j.no (fun e =>
    { e with incomplete := e.incomplete.filter (· ≠ i), readSlots := e.readSlots.filter (·.1 ≠ i),
             pc := if 2 ≤ e.phase ∧ e.pc = i then i + 1 else e.pc, phase := if 2 ≤ e.phase ∧ e.pc = i then 0 else e.phase }) c

/-- The commands of a job before record `idx` whose row pairs and drains are done are complete (R139, R147). -/
def closeEarlier (no idx : Nat) (c : Ctl) : Ctl :=
  match c.job? no with
  | none => c
  | some j0 =>
    (j0.exec.incomplete.filter (· < idx)).foldl (fun c i =>
      match c.job? no with
      | some j => if c.drainOver j i ∧ (j.exec.pc ≠ i ∨ 2 ≤ j.exec.phase) then closeCommand j i c else c
      | none => c) c

/-! ### When a job leaves (R139, R148) -/

/-- The drain of a command earlier than record `idx` completes, unless it waits (R139). -/
def finishDrain (m : Mem) (c : Ctl) : Ctl :=
  match c.plane.drain with
  | none => c
  | some d =>
    match c.job? d.job with
    | none => freeDrain c
    | some j =>
      match completeDrain (m.apply c.wq) d j c with
      | .ok c => c
      | .error _ => c

/-- An incomplete drain of a command that faults writes nothing: what it wrote is taken back, and its slots are not full
(R108, R148). -/
def undoDrain (c : Ctl) : Ctl :=
  match c.plane.drain with
  | none => c
  | some d => freeDrain (setAll setEmpty d.filled (emit d.undo c))

/-- The sums of a drain that a stop cut off: those of an earlier command than record `idx` are written, unless they wait; those of the
command that is hit write nothing (R139, R145, R148). -/
def settleCut (m : Mem) (no idx : Nat) (c : Ctl) : Ctl :=
  match c.job? no with
  | none => c
  | some j =>
    match j.exec.cut with
    | none => c
    | some d =>
      let c0 := c.mapJob no fun k => { k with exec := { k.exec with cut := none } }
      if idx ≤ d.idx then setAll setEmpty d.filled (emit d.undo c0)
      else
        let m := m.apply c.wq
        let vals := if opKind (rOp (j.cmd d.idx)) = .array then ((loadSums m c j (j.cmd d.idx) d.pass).run Port.empty).1 else d.vals
        -- the drain registers, which another job may hold, stay as they are
        match completeDrain m { d with vals := vals } j (c0.withPlane fun p => { p with drain := none }) with
        | .ok t => t.withPlane fun p => { p with drain := c.plane.drain, drainWait := c.plane.drainWait, atPassEnd := c.plane.atPassEnd }
        | .error _ => c

/-- The record from which on a job that ends at record `idx` has written nothing whole: a command still in its passes has not
(R148). -/
def Exec.hitFrom (e : Exec) (idx : Nat) : Nat := if e.phase = 1 then min e.pc idx else idx
/-- A job whose command at record `idx` is hit: the drain of that command or of a later one writes nothing, and the earlier
ones complete (R139, R148). -/
def settleDrain (m : Mem) (no idx : Nat) (c : Ctl) : Ctl :=
  let idx := match c.job? no with | some j => j.exec.hitFrom idx | none => idx
  let c := match c.plane.drain with
    | some d => if d.job ≠ no then c else if d.idx < idx then finishDrain m c else undoDrain c
    | none => c
  closeEarlier no idx (settleCut m no idx c)
/-- What is left of the drains of a job that ends writes nothing (R148). -/
def dropDrain (no : Nat) (c : Ctl) : Ctl :=
  let c := match c.plane.drain with
    | some d => if d.job = no then undoDrain c else c
    | none => c
  match (c.job? no).bind (·.exec.cut) with
  | some d => setAll setEmpty d.filled (emit d.undo (c.mapJob no fun k => { k with exec := { k.exec with cut := none } }))
  | none => c

/-! ### The preemption points (R97, R140, R143) -/

/-- Record index of the command that begins next. -/
def Job.next (j : Job) : Nat := if j.exec.phase = 0 then j.exec.pc else j.exec.pc + 1
/-- The command waits for every earlier one to be complete (R132). -/
def serial (j : Job) (i : Nat) : Bool :=
  rFence (j.cmd i) || opKind (rOp (j.cmd i)) != .array || (0 < i && opKind (rOp (j.cmd (i - 1))) != .array)
/-- How the Plane can stop at present. -/
inductive StopAt where
  | no
  /-- Between commands or passes, or in OP_WAIT_FULL: nothing is to be saved. -/
  | clean
  /-- At a step boundary: the running sums are saved. -/
  | inside
  /-- In an operand or drain wait: the pass in progress is abandoned. -/
  | abandon
  deriving DecidableEq, Repr
/-- The list stands in an OP_WAIT_FULL, which is not complete. -/
def Job.inWaitFull (j : Job) : Bool := j.exec.phase != 0 && rOp j.now == 0x02

/-- The preemption points of R140, with those of R97, and the stops in a wait of R143. A command boundary, and the end of a
pass, is one while the drain registers are empty; so is the end of a pass whose sums have just moved to them. -/
def stopAt (c : Ctl) (j : Job) : StopAt :=
  let e := j.exec
  let empty : Bool := c.plane.drain.isNone
  if j.inWaitFull then .clean
  else if c.plane.operandWait.isSome ∨ c.plane.drainWait.isSome then .abandon
  else if c.plane.atPassEnd then .clean
  else if j.kind = .array ∧ e.phase = 1 then
    if e.grp ≠ 0 ∨ rSteps j.now ≤ e.step then .no
    else if e.step = 0 then (if empty then .clean else .no)
    else if empty ∧ e.savedState ≠ 1 then .inside
    else .no
  -- a command boundary: the commands before it are complete, or it overlaps (R135)
  else if empty ∧ (e.phase = 0 ∨ (j.kind = .array ∧ !serial j j.next)) then .clean
  else .no

end Sys2Proof.Machine
end

