-- ==== Sys2Proof/Machine/Links.lean ====
section
/-! DEFINITION. Crosswind links as the rest of the block sees them: routes, packets put on a link, windows, credits and the
reductions of a destination handle (14_crosswind_groups.md R430 to R444; 08 R263 to R265). -/

namespace Sys2Proof.Machine

/-! ### Link entries (Table 14.6) -/

def lSrc (l : Nat) : Nat := bits l 7 0
def lDst (l : Nat) : Nat := bits l 15 8
def lSrcHandle (l : Nat) : Nat := bits l 23 16
def lDstHandle (l : Nat) : Nat := bits l 31 24
def lReduce (l : Nat) : Bool := bits l 39 32 == 1
def lScale (l : Nat) : Nat := bits l 47 40
def lEmpties (l : Nat) : Bool := bit l 48
def Job.link (j : Job) (i : Nat) : Nat := j.links.getD i 0
/-- A job admitted by its group table entry (R440, R459). -/
def Job.grouped (j : Job) : Bool := 0x8000 ≤ j.index

/-- This part's member number (R436). -/
def Ctl.member (c : Ctl) : Nat := c.param 0x0E00
/-- This part leads a formed group. -/
def Ctl.isLead (c : Ctl) : Bool := c.group.formed && c.group.lead == c.member
/-- Another member of the formed group, in service. -/
def Ctl.peersUp (c : Ctl) : List Nat :=
  if c.group.formed then (List.range 4).filter fun k => k ≠ c.member && c.group.state.getD k 0xFF == 0 else []

/-! ### Routes (R434, R435) -/

/-- XW_PORT_p: enabled, spare, peer member. -/
def portEnabled (c : Ctl) (p : Nat) : Bool := bit (c.param (0x0E04 + p)) 0
def portSpare (c : Ctl) (p : Nat) : Bool := bit (c.param (0x0E04 + p)) 1
def portPeer (c : Ctl) (p : Nat) : Nat := bits (c.param (0x0E04 + p)) 3 2
/-- Ports that serve a member: enabled, up, and not a spare that stands by. -/
def portsTo (c : Ctl) (member : Nat) : List Nat :=
  (List.range 4).filter fun p =>
    portEnabled c p && portPeer c p == member && (c.port p).up && (!portSpare c p || c.group.spareFor.isSome)
/-- A spare port stands by: it carries nothing (R434). -/
def portStands (c : Ctl) (p : Nat) : Bool := portSpare c p && c.group.spareFor.isNone
/-- A spare port that stands by can take over the traffic to a member. -/
def spareReady (c : Ctl) (member : Nat) : Bool :=
  (List.range 4).any fun p => portEnabled c p && portStands c p && portPeer c p == member && (c.port p).up
/-- The links of member `k` to another are up, as it says (log entry 37). -/
def Ctl.reaches (c : Ctl) (k member : Nat) : Bool := bit (SMap.get 0xF c.group.reach k) member
/-- Ports towards the lowest-numbered member whose links to both ends are up (R435). -/
def relaysTo (c : Ctl) (member : Nat) : List Nat :=
  ((List.range 4).find? fun k => k ≠ member && k ≠ c.member && c.reaches k member && portsTo c k ≠ []).elim [] (portsTo c)
/-- Port that carries a LINK's traffic to a member: bonded ports share it by LINK; with none, and no spare that can take over, it is
relayed (R435). -/
def portTo (c : Ctl) (member link : Nat) : Option Nat :=
  let ways := match portsTo c member with
    | [] => if spareReady c member then [] else relaysTo c member
    | ps => ps
  ways[link % max 1 ways.length]?

/-! ### Packets (R430, R431) -/

def XwPacket.empty : XwPacket :=
  { port := 0, flags := 0, src := 0, dst := 0, jobNo := 0, link := 0, slot := 0, tile := 0, wordOffset := 0, count := 0,
    reserved := 0, seq := 0, groupEpoch := 0, words := [], corrected := 0, uncorrectable := 0, tag := [] }

/-- The header block of a packet (Table 14.3). -/
def packetHeader (type : Nat) (pk : XwPacket) : List Byte :=
  [byte type, byte pk.flags, byte pk.src, byte pk.dst] ++ toBe 2 pk.jobNo ++ toBe 2 pk.link ++ toBe 4 pk.slot
    ++ [byte pk.tile] ++ toBe 3 pk.wordOffset ++ toBe 2 pk.count ++ toBe 2 pk.reserved ++ toBe 8 pk.seq
    ++ toBe 4 pk.groupEpoch
/-- The data blocks of a packet, then its tag blocks: the tag bytes of each 32 words, the last filled with 0 (R430). -/
def packetBody (pk : XwPacket) : List Byte :=
  pk.words.flatMap (fun w => slice w.data 0 32) ++ slice (pk.words.map (·.tag)) 0 (32 * cdiv pk.words.length 32)

/-- Product of two blocks in the field of GCM. -/
def gcmMul (x y : Nat) : Nat :=
  ((List.range 128).foldl (fun (a : Nat × Nat) i =>
    (if bit x (127 - i) then a.1 ^^^ a.2 else a.1, if bit a.2 0 then a.2 / 2 ^^^ 0xE1 * 2 ^ 120 else a.2 / 2)) (0, y)).1
/-- The pad that AES-256 gives for counter block `i` of a nonce. -/
def gcmPad (key nonce : List Byte) (i : Nat) : List Byte := slice (Config.aesEncrypt key (nonce ++ toBe 4 i)) 0 16
/-- Block `i` of 16 bytes. -/
def gcmBlock (l : List Byte) (i : Nat) : List Byte := (l.drop (16 * i)).take 16
/-- AES-256 in GCM mode: the ciphertext of `plain` under a key and a 12-byte nonce (R430). -/
def gcmCipher (key nonce plain : List Byte) : List Byte :=
  (List.range (cdiv plain.length 16)).flatMap fun i => List.zipWith (· ^^^ ·) (gcmBlock plain i) (gcmPad key nonce (i + 2))
/-- The 16-byte tag of a ciphertext and what it authenticates besides. -/
def gcmTag (key nonce aad cipher : List Byte) : List Byte :=
  let h := beNat (slice (Config.aesEncrypt key (List.replicate 16 0)) 0 16)
  let hashed := slice aad 0 (16 * cdiv aad.length 16) ++ slice cipher 0 (16 * cdiv cipher.length 16)
    ++ toBe 8 (8 * aad.length) ++ toBe 8 (8 * cipher.length)
  let sum := (List.range (cdiv hashed.length 16)).foldl (fun y i => gcmMul (y ^^^ beNat (gcmBlock hashed i)) h) 0
  List.zipWith (· ^^^ ·) (toBe 16 sum) (gcmPad key nonce 1)
/-- The data and tag blocks of a packet as they are enciphered under the key and salt of a direction: the nonce is the salt, then
SEQ (R430, R455). -/
def packetCipher (key : List Byte) (pk : XwPacket) : List Byte := gcmCipher (key.take 32) (key.drop 32 ++ toBe 8 pk.seq) (packetBody pk)
/-- The tag that its trailer carries; the header is authenticated with it. -/
def packetTag (key : List Byte) (type : Nat) (pk : XwPacket) : List Byte :=
  gcmTag (key.take 32) (key.drop 32 ++ toBe 8 pk.seq) (packetHeader type pk) (packetCipher key pk)
/-- A packet as it goes into the codewords: its header block, the sealed data and tag blocks, and the trailer block. -/
def wireBlocks (key : List Byte) (type : Nat) (pk : XwPacket) : List Byte :=
  packetHeader type pk ++ packetCipher key pk ++ packetTag key type pk ++ List.replicate 16 0

/-- Bytes of a packet on the link: header, data, tag blocks and trailer (R430). -/
def packetBytes (n : Nat) : Nat := 32 * (2 + n + cdiv n 32)
def replayBytes (x : XwPort) : Nat := (x.replay.map fun q => packetBytes q.2.words.length).sum
/-- The replay buffer takes a packet of `n` words more (R431). -/
def replayRoom (x : XwPort) (n : Nat) : Bool := replayBytes x + packetBytes n ≤ 524288
/-- The active lanes: lane 4 in the place of one that was replaced (R428, R433). -/
def XwPort.lanes (x : XwPort) : List Nat := (List.range 4).map fun k => if x.swapped = some k then 4 else k
/-- `n` blocks have left port `p`: every 4,096th codeword, after 4,095 of 20 blocks, is an alignment codeword, whose blocks name the
lane, the port and the codeword count (R428). -/
def XwPort.passed (x : XwPort) (p n : Nat) : XwPort :=
  let b := x.blocks + n
  let k := b / (4095 * 20)
  { x with
    blocks := b
    control := x.control ++ (if k = x.blocks / (4095 * 20) then []
      else (List.range 20).map fun i => (0x01, [x.lanes.getD (i % 4) 0, p, 4096 * k])) }
/-- A packet goes out on a link: new, or sent again. -/
def XwPort.emit (x : XwPort) (q : Nat × XwPacket) : XwPort :=
  ({ x with out := x.out ++ [q], wire := x.wire ++ [wireBlocks x.txKey q.1 q.2] }).passed q.2.port (packetBytes q.2.words.length / 32)
/-- A packet of a TYPE takes the next SEQ, goes out, and stays in the replay buffer until it is acknowledged. -/
def launch (port type : Nat) (pk : XwPacket) (c : Ctl) : Ctl :=
  let x := c.port port
  let q := (type, { pk with port := port, seq := x.txSeq })
  c.setPort port ({ x with txSeq := x.txSeq + 1, replay := x.replay ++ [q] }.emit q)
/-- Queue a control block on a port (Table 14.2). -/
def pushControl (port kind : Nat) (fields : List Nat) (c : Ctl) : Ctl :=
  let x := c.port port
  c.setPort port ({ x with control := x.control ++ [(kind, fields)] }.passed port 1)

/-! ### Slot parts that links send (R432, R441, R444) -/

/-- Tiles whose parts of a slot link `i` moves in one transfer: every part of the source of a reduction (log entry 25), tile `t`'s of a
copy. -/
def linkTiles (j : Job) (i t : Nat) (e : Handle) : List Nat := if lReduce (j.link i) then e.tiles else [t]
/-- Words that a link moves for one slot part: the scale words of a reduce source, then its data. -/
def linkWords (j : Job) (i : Nat) (e : Handle) : Nat := j.linkScales.getD i 0 + (linkTiles j i 0 e).length * (e.slotBytes / 32)
/-- Slot of the scale plane that serves slot `s`: slot 0 where it has one slot. -/
def scaleSlot (f : Handle) (s : Nat) : Nat := if f.slotCount ≤ s then 0 else s
/-- The scale plane of a link, where it has one. -/
def linkPlane (j : Job) (i : Nat) : Option Handle := if j.linkScales.getD i 0 = 0 then none else j.handle? (lScale (j.link i))
/-- The tile in whose part word `k` of a transfer lies, and the word's device address. -/
def linkWordAt (j : Job) (i s t k : Nat) (e : Handle) : Nat × Nat :=
  let sw := j.linkScales.getD i 0
  let place (h : Handle) (slot ts k : Nat) (tiles : List Nat) : Nat × Nat :=
    let u := tiles.getD (k / max 1 ts) t
    (u, h.addr u (slot * h.slotBytes) + 32 * (k % max 1 ts))
  if k < sw then
    match j.handle? (lScale (j.link i)) with
    | some f => place f (scaleSlot f s) (f.slotBytes / 32) k f.tiles
    | none => (t, e.addr t (s * e.slotBytes))
  else place e s (e.slotBytes / 32) (k - sw) (linkTiles j i t e)
/-- Every slot that the part comes from is full, and no copy of a store holds a read of it (R541). -/
def partReady (c : Ctl) (j : Job) (i s t : Nat) (e : Handle) : Bool :=
  let ready (h : Handle) (slot u : Nat) : Bool := c.slotFull (h.slotKey u slot) && !c.copyHolds (h.addr u 0)
  (linkTiles j i t e).all (ready e s) &&
    match linkPlane j i with
    | some f => f.tiles.all (ready f (scaleSlot f s))
    | none => true
/-- Parts of a link that are full: (slot, tile). -/
def fullParts (c : Ctl) (j : Job) (i : Nat) : List (Nat × Nat) :=
  match j.handle? (lSrcHandle (j.link i)) with
  | none => []
  | some e => (List.range e.slotCount).flatMap fun s =>
      ((if e.place = 0 ∧ !lReduce (j.link i) then List.range 16 else [0]).filter fun t => partReady c j i s t e).map fun t => (s, t)
/-- The credit of a part has arrived, on any port (R435, R441). -/
def Ctl.credited (c : Ctl) (k : Nat × Nat × Nat × Nat) : Bool := c.group.ports.any fun x => x.credits.contains k
/-- What a port could send: (job, link, slot, tile), each with whether its credit is held. -/
def sendable (c : Ctl) (p : Nat) : List ((Nat × Nat × Nat × Nat) × Bool) :=
  c.jobs.flatMap fun j =>
    if j.ended then [] else
      ((List.range j.links.length).filter fun i =>
        lSrc (j.link i) == c.member && lDst (j.link i) != c.member && portTo c (lDst (j.link i)) i == some p).flatMap fun i =>
          ((fullParts c j i).filter fun q => !(c.port p).frozen.contains (j.no, i, q.1, q.2)).map fun q =>
            ((j.no, i, q.1, q.2), c.credited (j.no, i, q.1, q.2))

/-- Send a packet on a port, or let it wait: a full replay buffer pauses sending (R431), and parts that are ready take their turn
(R432). -/
def pushPacket (port type : Nat) (pk : XwPacket) (c : Ctl) : Ctl :=
  let x := c.port port
  if x.waiting = [] ∧ replayRoom x pk.words.length ∧ (bit pk.flags 0 || (sendable c port).all fun k => !k.2) then launch port type pk c
  else c.setPort port { x with waiting := x.waiting ++ [(type, pk)] }
/-- Send a packet of a group job without slot data to each other member in service. -/
def tellMembers (type : Nat) (j : Job) (words : List XwWord) (c : Ctl) : Ctl :=
  c.peersUp.foldl (fun c k =>
    match portTo c k 0 with
    | none => c
    | some p =>
      pushPacket p type { XwPacket.empty with
        flags := b2n (j.cls == 0), src := c.member, dst := k, jobNo := j.no, count := words.length,
        groupEpoch := c.group.epoch % 2 ^ 32, words := words } c) c
/-- The words of a run of bytes, the last filled with zeros. -/
def xwWords (bs : List Byte) : List XwWord := (List.range (cdiv bs.length 32)).map fun i => { tag := 0, data := slice bs (32 * i) 32 }
/-- A configuration relay to member `k` at group epoch `e`: two bytes of length, the TYPE code of the request that it stands for,
a zero byte, then the payload; SLOT holds the number of a change of the group (R438; log entry 25). -/
def sendConfig (k e code jobNo : Nat) (payload : List Byte) (c : Ctl) (number : Nat := 0) : Ctl :=
  let words := xwWords (toBe 2 payload.length ++ [byte code, 0] ++ payload)
  match portTo c k 0 with
  | none => c
  | some p =>
    pushPacket p 5 { XwPacket.empty with
      src := c.member, dst := k, jobNo := jobNo, slot := number, count := words.length, groupEpoch := e % 2 ^ 32, words := words } c
/-- What the lead relays goes to every other member in service. -/
def relayConfig (code jobNo : Nat) (payload : List Byte) (c : Ctl) (number : Nat := 0) : Ctl :=
  c.peersUp.foldl (fun c k => sendConfig k c.group.epoch code jobNo payload c number) c
/-- A word on a change of the group goes to them at group epoch `e`. -/
def relayConfigAt (e code number : Nat) (c : Ctl) : Ctl := c.peersUp.foldl (fun c k => sendConfig k e code 0 [] c number) c
/-- The one word of a run start: the requester and the trigger time, big-endian (R443; log entry 25). -/
def startWord (who : Peer) (time : Nat) : XwWord :=
  { tag := 0, data := slice (toBe 16 who.addr ++ toBe 2 who.udp ++ toBe 8 time) 0 32 }
/-- The one word of a run end: its status, a byte that says whether the job itself ends, and the run's number (R442; log entry 25). -/
def endWord (status : Nat) (job : Bool) (seq : Nat) : XwWord :=
  { tag := 0, data := slice (toBe 2 status ++ [byte (b2n job)] ++ toBe 4 seq) 0 32 }

/-! ### Credits and reductions (R441, R444) -/

/-- Reduce links of a job with one destination handle, in ascending SRC_MEMBER. -/
def Job.reducers (j : Job) (h : Nat) : List Nat :=
  let ls := (List.range j.links.length).filter fun i => lReduce (j.link i) && lDstHandle (j.link i) == h
  (List.range 4).flatMap fun k => ls.filter fun i => lSrc (j.link i) == k
/-- The reduction of slot `s` of a handle: the contributing links that are done. -/
def Group.done? (g : Group) (job h s : Nat) : Option (List Nat) :=
  (g.reduces.find? fun r => r.1 = job && r.2.1 = h && r.2.2.1 = s).map (·.2.2.2)
def Group.setDone (g : Group) (job h s : Nat) (l : List Nat) : Group :=
  { g with reduces := (g.reduces.filter fun r => !(r.1 = job && r.2.1 = h && r.2.2.1 = s)) ++ [(job, h, s, l)] }
def Group.endReduce (g : Group) (job h s : Nat) : Group :=
  { g with reduces := g.reduces.filter fun r => !(r.1 = job && r.2.1 = h && r.2.2.1 = s) }
/-- The link whose contribution to a slot comes next. -/
def nextReducer (c : Ctl) (j : Job) (h s : Nat) : Option Nat :=
  (c.group.done? j.no h s).bind fun d => (j.reducers h).find? fun i => !d.contains i

/-- Give the credit of a part on the port towards its sender, once. -/
def giveCredit (j : Job) (i s t : Nat) (c : Ctl) : Ctl :=
  match portTo c (lSrc (j.link i)) i with
  | none => c
  | some p =>
    let x := c.port p
    let k := (j.no, i, s, t)
    if x.granted.contains k then c
    else pushControl p 0x04 [j.no, i, s, t] (c.setPort p { x with granted := x.granted ++ [k] })

/-- +0 in every word of an accumulator slot. -/
def zeroSlot (e : Handle) (s : Nat) : List Wr :=
  (List.range (e.slotBytes / 32)).flatMap fun i => wholeWord (e.addr 0 (s * e.slotBytes) / 32 + i) (List.replicate 32 0) 6

/-- The credits of one link of a job, and the start of the reductions of its destination. -/
def grantLink (j : Job) (i : Nat) (c : Ctl) : Ctl :=
  let l := j.link i
  match j.handle? (lDstHandle l) with
  | none => c
  | some e =>
    if lDst l ≠ c.member then c
    else if !lReduce l then
      (List.range e.slotCount).foldl (fun c s => e.tiles.foldl (fun c t =>
        if c.slotFull (e.slotKey t s) then c else giveCredit j i s (if e.place = 0 then t else 0) c) c) c
    else
      (List.range e.slotCount).foldl (fun c s =>
        if c.slotFull (e.slotKey 0 s) ∨ c.copyHolds (e.addr 0 0) then c
        else
          let c := if (c.group.done? j.no (lDstHandle l) s).isNone then
              emit (zeroSlot e s) (c.withGroup fun g => g.setDone j.no (lDstHandle l) s [])
            else c
          if nextReducer c j (lDstHandle l) s = some i ∧ lSrc l ≠ c.member then giveCredit j i s 0 c else c) c

/-- Every credit that this member can give now, at admission or later (R441, R444). -/
def grantCredits (c : Ctl) : Ctl :=
  c.jobs.foldl (fun c j =>
    if j.ended ∨ j.admitReq.isSome then c else (List.range j.links.length).foldl (fun c i => grantLink j i c) c) c

/-- What a job leaves behind on the links when it ends. -/
def dropLinks (no : Nat) (c : Ctl) : Ctl :=
  c.withGroup fun g =>
    { g with
      reduces := g.reduces.filter fun r => r.1 ≠ no
      scales := g.scales.filter fun r => r.1 ≠ no
      ports := g.ports.map fun x =>
        { x with credits := x.credits.filter fun k => k.1 ≠ no, granted := x.granted.filter fun k => k.1 ≠ no,
                 sending := x.sending.filter fun k => k.1 ≠ no, waits := x.waits.filter fun w => w.1.1 ≠ no } }

end Sys2Proof.Machine
end

