-- ==== Sys2Proof/Machine/Params.lean ====
section
/-! DEFINITION. Parameter values as they read, and the checks a PARAM_WRITE makes of each (13_host_protocol.md R414 and the
parameter table of every chapter). -/

namespace Sys2Proof.Machine

/-! ### Read-only values kept elsewhere in the state -/

/-- PLN_STATE (Table 3.6). While a hold and a wait stand together it reads 2 (DESIGN CHOICE, log entry 115); a command runs until it is
complete, its drain included. -/
def planeState (c : Ctl) : Nat :=
  if c.inService < 16 then 4
  else if 0 < c.plane.holds then 2
  else if c.plane.operandWait.isSome || c.plane.drainWait.isSome || c.plane.passWait then 3
  else
    let runs (j : Job) : Bool := j.exec.phase == 1 || j.exec.incomplete != []
    b2n (c.plane.drain.isSome || ((c.plane.holder.bind c.job?).map runs).getD false)

/-- PLN_STEER_p (Table 3.7). -/
def steer (t : Tile) : Nat :=
  let f (l : List Nat) (i lo : Nat) : Nat := l.getD i 0x1FF * 2 ^ lo
  b2n t.logical.isSome * 2 ^ 63 + b2n t.retired * 2 ^ 62 + f t.retCols 1 48 + f t.retCols 0 32 + f t.retRows 1 16
    + f t.retRows 0 0

def minOf (l : List Nat) (d : Nat) : Nat := l.foldl min d
def maxOf (l : List Nat) : Nat := l.foldl max 0

/-- The power state code (R479). -/
def powerState (c : Ctl) : Nat :=
  match c.power.stage with
  | .entering | .powerDown => 5
  | _ => b2n c.power.idle

/-- Spare erase blocks left in the worst channel of a stack (Table 11.4). -/
def flashSpareLeft (c : Ctl) (stack : Nat) : Nat :=
  246 - maxOf (((List.range 34).filter fun ch => ch / 17 = stack).map fun ch => SMap.get 0 c.store.sparesUsed ch)
/-- HBM_PPR_LEFT of a stack (Table 11.4). -/
def repairsLeft (c : Ctl) (stack : Nat) : Nat :=
  Config.repairsPerBank - maxOf ((c.store.repairsUsed.filter fun p => p.1 / (32 * 48) = stack).map (·.2))

/-- The value of an RO parameter that the state keeps elsewhere. With fewer than 16 tiles in service, the byte of PLN_TILE_MAP of a
number that no tile holds and the last bytes of PLN_RING_ORDER read 0 (DESIGN CHOICE, log entry 115). -/
def liveParam (c : Ctl) (id : Nat) : Option Nat :=
  if id = 0x0300 then some (planeState c)
  else if id = 0x0301 then some (leNat ((List.range 16).map fun t => byte ((c.physical t).getD 0)))
  else if id = 0x0302 then some (leNat ((List.range 16).map fun i => byte (c.ringOrder.getD i 0)))
  else if id = 0x0304 then some c.spares.length
  else if 0x0310 ≤ id ∧ id ≤ 0x0321 then some (steer (c.tile (id - 0x0310)))
  else if 0x0810 ≤ id ∧ id ≤ 0x0821 then
    let l := (c.tile (id - 0x0810)).retBanks
    some (l.getD 0 0x7F + 256 * l.getD 1 0x7F)
  else if id = 0x0882 then some (c.store.cstRetBank.getD 0x7F)
  else if id = 0x0B04 then some c.store.retiredFrames.length
  else if id = 0x0B05 ∨ id = 0x0B06 then some (repairsLeft c (id - 0x0B05))
  else if id = 0x0B82 ∨ id = 0x0B83 then some (flashSpareLeft c (id - 0x0B82))
  else if id = 0x0B84 ∨ id = 0x0B85 then
    some (maxOf ((c.store.wear.filter fun p => p.1 / 4096 / 17 = id - 0x0B84).map (·.2)))
  else if id = 0x0B86 then
    some (0x40000 - 4 * (c.store.blocksRetired.foldl (fun a p => a + (p.2 - min p.2 246)) 0))
  else if id = 0x0B87 then some ((c.store.bundles.filter fun b => b.kind = 0).foldl (fun a b => a + cdiv b.size 0x100000) 0)
  else if id = 0x0D07 then some c.proto.epoch
  else if id = 0x0D08 then some c.clk.device
  else if id = 0x0D09 then some c.proto.sync
  else if id = 0x0D90 then some c.service.leeCause
  else if id = 0x0E08 then some c.group.epoch
  else if id = 0x0E09 then some (leNat (c.group.state.map byte))
  else if id = 0x0E0A then some c.group.lead
  else if id = 0x0E0B then some ((c.group.offset % (2 : Int) ^ 32).toNat)
  else if id = 0x0F00 then some (b2n c.sec.claimed)
  else if id = 0x0F01 then some c.sec.svn
  else if id = 0x0F02 then some (c.sec.bootSlot + 2 * b2n c.sec.fallback)
  else if id = 0x0F04 then some (0x10000 - c.sec.journal.length)
  else if id = 0x0F05 then some c.sec.head
  else if id = 0x0F06 then some c.sec.lost
  else if id = 0x0F07 then some c.sec.frozen.length
  else if id = 0x1000 then some (powerState c)
  else if id = 0x1002 then some c.power.opNow
  else if id = 0x1008 then some c.power.resetCause
  else if id = 0x1009 then some c.power.wakeCause
  else none

/-- A parameter as a read returns it. -/
def readParam (c : Ctl) (id : Nat) : Nat := (liveParam c id).getD (c.param id)

/-! ### Intake configuration fields (Tables 12.2, 12.5, 12.8, 12.10, 12.11) -/

structure IntakeCfg where
  enable : Bool
  force : Bool
  gale : Bool
  stamps : Bool
  land : Nat
  fmt : Nat
  home : Nat
  topSkip : Nat
  lines : Nat
  scale : Nat
  base : Nat
  slots : Nat
  tagBase : Nat
  slotWords : Nat
  scaleBase : Nat
  scaleWords : Nat
  src : Nat
  deriving DecidableEq, Repr

def intakeCfg (v : Nat) : IntakeCfg :=
  { enable := bit v 0, force := bit v 1, gale := bit v 2, stamps := bit v 3, land := bits v 5 4, fmt := bits v 7 6,
    home := bits v 11 8, topSkip := bits v 15 12, lines := bits v 31 16, scale := bits v 39 32, base := bits v 63 40,
    slots := bits v 79 64, tagBase := bits v 95 80, slotWords := bits v 119 96, scaleBase := bits v 151 128,
    scaleWords := bits v 175 152, src := bits v 255 192 }
/-- The configuration of a context that is committed. -/
def Ctl.config (c : Ctl) (n : Nat) : IntakeCfg := intakeCfg (c.param (0x0C00 + n))
/-- The configuration under which a context works: a frame in progress goes on under that of its start (R388). -/
def Ctl.cfg (c : Ctl) (n : Nat) : IntakeCfg := intakeCfg ((c.intake n).layout.getD (c.param (0x0C00 + n)))

/-- INT_RELAY_n (Table 12.11): enable, place, home tile, base word, tag base. -/
def relayPlace0 (v : Nat) : Bool := bit v 0 && !bit v 1
/-- Parts of a landing slot: 16 under LAND 0 and under LAND 2 with a relay of PLACE 0. -/
def IntakeCfg.parts (k : IntakeCfg) (relay : Nat) : Nat := if k.land = 0 ∨ (k.land = 2 ∧ relayPlace0 relay) then 16 else 1
/-- Output bytes of a component: INT8 1, binary16 and raw 2, binary32 4. -/
def IntakeCfg.elem (k : IntakeCfg) : Nat := match k.fmt with | 0 => 1 | 3 => 4 | _ => 2
/-- Channels and depth of a CSI-2 data type (Table 12.6). -/
def csiType (dt : Nat) : Option (Nat × Nat) :=
  match dt with
  | 0x1E => some (2, 8) | 0x24 => some (3, 8) | 0x2A => some (1, 8) | 0x2B => some (1, 10) | 0x2C => some (1, 12)
  | 0x2D => some (1, 14) | 0x2E => some (1, 16) | _ => none
/-- Row pitch in bytes (R370). -/
def IntakeCfg.pitch (k : IntakeCfg) : Nat :=
  32 * cdiv (bits k.src 31 16 * ((csiType (bits k.src 9 4)).getD (1, 8)).1 * k.elem) 32

/-- Ranges of slots and of the scale slot of a context: (store class, first word, words); store class 0 to 15 a tile, 16 the
common store, 17 every tile. -/
def IntakeCfg.ranges (k : IntakeCfg) (relay : Nat) : List (Nat × Nat × Nat) :=
  let st := match k.land with | 0 => 17 | 1 => k.home | _ => 16
  let per := if k.land = 2 then k.slotWords * k.parts relay else k.slotWords
  [(st, k.base, k.slots * per)] ++ (if k.scaleWords ≠ 0 then [(st, k.scaleBase, k.scaleWords)] else [])
    ++ (if k.land = 2 then
          [((if relayPlace0 relay then 17 else bits relay 5 2), bits relay 31 8, k.slots * k.slotWords)] else [])
/-- Tags of a context: (store class, first, count). -/
def IntakeCfg.tags (k : IntakeCfg) (relay : Nat) : List (Nat × Nat × Nat) :=
  let st := match k.land with | 0 => 17 | 1 => k.home | _ => 16
  [(st, k.tagBase, k.slots + b2n (k.scaleWords ≠ 0))]
    ++ (if k.land = 2 then [((if relayPlace0 relay then 17 else bits relay 5 2), bits relay 47 32, k.slots)] else [])
def rangesMeet (a b : Nat × Nat × Nat) : Bool :=
  let same := a.1 == b.1 || (a.1 == 17 && b.1 < 16) || (b.1 == 17 && a.1 < 16)
  same && a.2.1 < b.2.1 + b.2.2 && b.2.1 < a.2.1 + a.2.2

/-- Checks of a CSI-2, Ethernet or audio SOURCE (R370, R377, R381, R384). -/
def sourceOk (get : Nat → Nat) (n : Nat) (k : IntakeCfg) (relay : Nat) : Bool :=
  let s := k.src
  if n < 32 then
    (csiType (bits s 9 4)).isSome && bits s 13 10 ≤ 8 && 1 ≤ bits s 31 16 && 1 ≤ bits s 47 32 && k.fmt ≠ 3
      && (let h := bits s 47 32
          let rows := if k.parts relay = 16 then min h k.lines else h
          (k.parts relay = 1 || h ≤ 16 * k.lines)
            && (k.topSkip + rows) * k.pitch + 32 * b2n k.stamps ≤ 32 * k.slotWords)
  else if n < 48 then
    k.fmt = 2 && (if bit s 2 then 1 ≤ bits s 15 4 && bits s 15 4 ≤ 4094 else bits s 15 4 = 0)
      && (!bit s 1 || 0x0600 ≤ bits s 31 16)
  else
    (k.fmt = 1 || k.fmt = 3) && bits s 19 4 ≠ 0
      && bits s 19 4 < 2 ^ (2 * 2 ^ bits (get (0x0C8C + bits s 1 0)) 1 0)
      && 1 ≤ bits s 32 20 && bits s 32 20 ≤ 4800

/-- Words and tags of a stream lie in the Gale partitions (R266). -/
def wordsInGale (get : Nat → Nat) (r : Nat × Nat × Nat) : Bool :=
  (if r.1 = 16 then cstBytes - get 0x0880 else tileBytes - get 0x0802) / 32 ≤ r.2.1
def tagsInGale (get : Nat → Nat) (t : Nat × Nat × Nat) : Bool := (if t.1 = 16 then 4096 - 512 else 8192 - get 0x0803) ≤ t.2.1
/-- A range of words lies in the common-store region `g`, which is valid and the intake's (R269, R367). -/
def inRegion (g : Nat) (r : Nat × Nat × Nat) : Bool :=
  bit g 0 && bits g 2 1 == 0 && bits g 24 16 * 2048 ≤ r.2.1 && r.2.1 + r.2.2 ≤ (bits g 24 16 + bits g 40 32) * 2048

/-- INT_STREAM_n against the values that will hold (R367, R386). The reset value 0 configures no stream (log entry 89). -/
def streamOk (get : Nat → Nat) (n v : Nat) : Bool :=
  let k := intakeCfg v
  let relay := get (0x0C40 + n)
  (k.land == 2) == bit relay 0 && (v = 0 ||
    ((!k.enable || !k.force) && k.land ≤ 2 && (k.land = 1 || k.home = 0)
      && (if k.parts relay = 16 then 1 ≤ k.lines else k.lines = 0)
      && k.scale ≠ 0x80 && 1 ≤ k.slots && k.slots ≤ 64 && 1 ≤ k.slotWords && k.slotWords ≤ 0x60000
      && (k.fmt = 0 || k.scaleWords = 0)
      && (k.ranges relay).all (fun r => r.2.1 + r.2.2 ≤ (if r.1 = 16 then cstBytes else tileBytes) / 32)
      && (k.tags relay).all (fun t => t.2.1 + t.2.2 ≤ (if t.1 = 16 then 4096 else 8192))
      && (!k.gale || ((k.ranges relay).all (wordsInGale get) && (k.tags relay).all (tagsInGale get)))
      && (k.land ≠ 2 || (List.range 16).any fun i =>
            (k.ranges relay).all fun r => r.1 ≠ 16 || inRegion (get (0x0890 + i)) r)
      && sourceOk get n k relay
      && (List.range 64).all fun m =>
            let k' := intakeCfg (get (0x0C00 + m))
            m = n || !k'.enable ||
              ((k.ranges relay).all (fun a => (k'.ranges (get (0x0C40 + m))).all fun b => !rangesMeet a b)
                && (k.tags relay).all (fun a => (k'.tags (get (0x0C40 + m))).all fun b => !rangesMeet a b))))

/-- CST_REGION_n (R269, R270). -/
def regionOk (get : Nat → Nat) (n v : Nat) : Bool :=
  let lo := bits v 24 16
  let hi := lo + bits v 40 32
  let edge := (cstBytes - get 0x0880) / 0x10000
  bits v 2 1 ≠ 3 &&
  (!bit v 0 ||
    (0x040 ≤ lo && 1 ≤ bits v 40 32 && bits v 40 32 ≤ 448 && hi ≤ 0x200
      && (if bit v 3 then edge ≤ lo else hi ≤ edge)
      && (List.range 16).all fun m =>
          let g := get (0x0890 + m)
          m = n || !bit g 0 || hi ≤ bits g 24 16 || bits g 24 16 + bits g 40 32 ≤ lo))

/-! ### The checks of R414 -/

/-- Reserved bits of an RW parameter hold their required value (check 4). -/
def paramReserved (id v : Nat) : Bool :=
  if 0x0890 ≤ id ∧ id ≤ 0x089F then bits v 15 4 = 0 && bits v 31 25 = 0 && bits v 63 41 = 0
  else if 0x0C00 ≤ id ∧ id ≤ 0x0C3F then
    bits v 127 120 = 0 && bits v 191 176 = 0 &&
      (if id < 0x0C20 then bits v 207 206 = 0 && bits v 255 240 = 0
       else if id < 0x0C30 then bits v 255 243 = 0
       else bits v 195 194 = 0 && bits v 255 225 = 0)
  else if 0x0C40 ≤ id ∧ id ≤ 0x0C7F then bits v 7 6 = 0 && bits v 63 48 = 0
  else if 0x0C80 ≤ id ∧ id ≤ 0x0C87 then bits v 7 3 = 0
  else if 0x0C88 ≤ id ∧ id ≤ 0x0C89 then bits v 63 51 = 0
  else if 0x0C8C ≤ id ∧ id ≤ 0x0C8F then bits v 15 10 = 0
  else if id = 0x0D06 then bits v 7 2 = 0
  else if id = 0x0D10 ∨ id = 0x0D11 then !bit v 51
  else if id = 0x0D12 ∨ id = 0x0D13 then bits v 63 39 = 0
  else if id = 0x0D14 ∨ id = 0x0D15 then bits v 255 137 = 0
  else if id = 0x0D16 then bits v 255 145 = 0
  else if 0x0D91 ≤ id ∧ id ≤ 0x0D98 then bits v 63 49 = 0
  else if id = 0x0E01 then bits v 7 4 = 0
  else if id = 0x0E02 then bits v 7 1 = 0
  else if 0x0E04 ≤ id ∧ id ≤ 0x0E07 then bits v 7 4 = 0
  else if id = 0x1004 then bits v 15 6 = 0
  else true

/-- Ranges of the RW parameters with one plain range: ID, least, most. -/
def paramRanges : List (Nat × Nat × Nat) :=
  [(0x0800, 10, 100000), (0x0801, 1000, 10000000), (0x0803, 0, 4096), (0x0804, 100, 60000), (0x0881, 100, 60000),
   (0x0900, 4000, 153600), (0x0902, 4000, 153600), (0x0903, 4000, 153600), (0x0904, 4000, 64000), (0x0905, 8, 192),
   (0x0B00, 1, 168), (0x0B01, 2, 1000), (0x0B02, 256, 16384), (0x0B80, 1, 30), (0x0B81, 50000, 1000000),
   (0x0C90, 1, 1000), (0x0D00, 1024, 65535), (0x0D01, 10, 30000), (0x0D02, 10, 10000), (0x0D03, 1376, 0x400000),
   (0x0D04, 0, 1024), (0x0D05, 0, 127), (0x0D80, 100, 100000), (0x0D81, 100, 100000), (0x0D99, 8, 10000),
   (0x0D9A, 1, 3600), (0x0E03, 1000, 10000000), (0x1001, 0, 2), (0x1003, 10, 100000), (0x1005, 0, 604800),
   (0x1006, 10, 1000), (0x1007, 90, 108)]

/-- A value is in range and consistent with the values that will hold, given by `get` (check 5). -/
def paramInRange (get : Nat → Nat) (id v : Nat) : Bool :=
  match paramRanges.find? (·.1 = id) with
  | some p => p.2.1 ≤ v && v ≤ p.2.2 && (id ≠ 0x0900 || get 0x0901 = 0 || get 0x0901 + 4000 ≤ v)
  | none =>
    if id = 0x0802 ∨ id = 0x0880 then v % 0x100000 = 0 && v ≤ 0x800000
    else if id = 0x0901 then v = 0 || (4000 ≤ v && v + 4000 ≤ get 0x0900)
    else if 0x0890 ≤ id ∧ id ≤ 0x089F then regionOk get (id - 0x0890) v
    else if 0x0C00 ≤ id ∧ id ≤ 0x0C3F then streamOk get (id - 0x0C00) v
    else if 0x0C40 ≤ id ∧ id ≤ 0x0C7F then
      (bit v 1 || bits v 5 2 = 0) && streamOk get (id - 0x0C40) (get (id - 0x40))
    else if 0x0C80 ≤ id ∧ id ≤ 0x0C87 then bits v 2 1 ≤ 2
    else if 0x0C8C ≤ id ∧ id ≤ 0x0C8F then
      -- no stream of the port keeps a slot at or above the new slot count (Table 12.10)
      bits v 3 2 ≤ 2 && !(bit v 4 && bits v 3 2 = 0) && (List.range 16).all fun i =>
        let s := (intakeCfg (get (0x0C30 + i))).src
        0x0C8C + bits s 1 0 ≠ id || bits s 19 4 < 2 ^ (2 * 2 ^ bits v 1 0)
    else if id = 0x0D10 ∨ id = 0x0D11 then
      if bit v 50 then 1 ≤ bits v 63 52 && bits v 63 52 ≤ 4094 else bits v 63 52 = 0
    else if id = 0x0D12 ∨ id = 0x0D13 then !bit v 38 || (8 ≤ bits v 37 32 && bits v 37 32 ≤ 30)
    else if id = 0x0D14 ∨ id = 0x0D15 then !bit v 136 || (16 ≤ bits v 135 128 && bits v 135 128 ≤ 127)
    else if 0x0D91 ≤ id ∧ id ≤ 0x0D98 then bits v 47 32 ≤ 0x7FFF
    else if id = 0x0E00 then v ≤ 3 || v = 0xFF
    else if 0x0E04 ≤ id ∧ id ≤ 0x0E07 then
      !bit v 1 || (List.range 4).all fun p => 0x0E04 + p = id || !bit (get (0x0E04 + p)) 1
    else true

/-- The first failing check of an entry, given how a value will read once the whole write commits (R414). -/
def checkEntry (get : Nat → Nat) (id size v : Nat) : KS :=
  match paramRow id with
  | none => .unknownId
  | some r =>
    if !r.rw then .readOnly
    else if size ≠ r.width / 8 then .badValue
    else if !paramReserved id v then .badReserved
    else if !paramInRange get id v then .badValue
    else .ok

/-- The value a parameter will have once staged changes and further entries have committed (R309). -/
def valueAfter (c : Ctl) (more : List (Nat × Nat)) (id : Nat) : Nat :=
  let staged := c.proto.staged.flatMap fun s => match s.change with | .params e => e | _ => []
  match ((staged ++ more).reverse.find? (·.1 = id)) with
  | some p => p.2
  | none => readParam c id

end Sys2Proof.Machine
end

