-- ==== Sys2Proof/Machine/Jobs.lean ====
section
/-! DEFINITION. Runs and their starts, results, freezes, and the end of a job (04 R143 to R148; 08 R257 to R262; 13 R407 to
R412, R419; 15 R465, R468, R470). -/

namespace Sys2Proof.Machine

/-! ### Results (R134, R410, R465) -/

/-- The flags of the VALID policy entry that names a bundle: [1] RUN, [2] RESULT_OUT, [3] XW_OUT; all set where there is none
(Table 15.8). -/
def Ctl.policyFlags (c : Ctl) (bundle : Nat) : Nat :=
  match c.sec.policy.find? fun e => bit (e.getD 4 0).toNat 0 && beNat (slice e 0 4) == bundle with
  | some e => (e.getD 4 0).toNat
  | none => 0x0F
def Ctl.mayRun (c : Ctl) (b : Nat) : Bool := bit (c.policyFlags b) 1
def Ctl.resultOut (c : Ctl) (b : Nat) : Bool := bit (c.policyFlags b) 2
def Ctl.xwOut (c : Ctl) (b : Nat) : Bool := bit (c.policyFlags b) 3

/-- Every slot that a reply names is full in every part: slot 0 of each handle (R250; log entry 14); and no store copy holds its
parts back (R541). -/
def replyReady (c : Ctl) (j : Job) (rp : Reply) : Bool :=
  rp.handles.all fun h => match j.handle? h with
    | some e => c.handleFull e 0 && e.tiles.all fun t => !c.copyHolds (e.addr t 0)
    | none => true

/-- The bytes that one part of a handle carries (R410). -/
def partBytes (j : Job) (rp : Reply) (h : Nat) (e : Handle) (t : Nat) : Nat :=
  match rp.writers.find? (·.1 = h) with
  | some (_, idx) =>
    partExtent (j.cmds.getD idx 0) h e t
  | none => e.slotBytes
/-- Where the data of each named handle lies, in turn: (address, bytes) of its parts in ascending logical tile order. -/
def resultSpans (c : Ctl) (j : Job) (rp : Reply) : List (List (Nat × Nat)) :=
  rp.handles.map fun h =>
    match j.handle? h with
    | none => []
    | some e => e.tiles.map fun t =>
        -- a slot filled by a stream or a host write since carries all of its bytes
        (e.addr t 0, if c.slotVoided (e.slotKey t 0) then e.slotBytes else partBytes j rp h e t)
/-- The words that a span of bytes lies in. -/
def spanWords (s : Nat × Nat) : List Nat := (List.range (cdiv (s.1 % 32 + s.2) 32)).map (s.1 / 32 + ·)
/-- The data of each named handle. -/
def resultData (m : Mem) (c : Ctl) (j : Job) (rp : Reply) : List (List Byte) :=
  (resultSpans c j rp).map fun l => l.flatMap fun s => m.bytesAt s.1 s.2

def chunks (n : Nat) (l : List Byte) : Nat → List (List Byte)
  | 0 => [l]
  | k + 1 => if l.length ≤ n then [l] else l.take n :: chunks n (l.drop n) k

/-- Send the RESULT of a reply, or withhold it; then release its slots (R134, R410, R465). Its REQ_ID is the sender's choice:
a free value, the same in every fragment (Table 13.2; log entry 28). -/
def sendResult (m : Mem) (j : Job) (rp : Reply) (c : Ctl) : Ctl :=
  let rel (c : Ctl) : Ctl :=
    if rp.release then rp.handles.foldl (fun c h =>
      match j.handle? h with | some e => setAll setEmpty (e.slotKeys 0) c | none => c) c
    else c
  if !c.resultOut j.bundle then rel (count .secWithheld 0 1 c)
  else
    let parts := resultData m c j rp
    let c := noteReads m ((resultSpans c j rp).flatten.flatMap spanWords) c
    let all := parts.flatten
    let max := c.param 0x0D03
    let trunc := max < all.length
    let c := if trunc then count .proResultTrunc 0 1 c else c
    let body := all.take max
    let sizes := (List.range 4).map fun i =>
      let before := ((parts.take i).map (·.length)).sum
      min ((parts.getD i []).length) (max - min max before)
    let pieces := chunks 1360 body body.length
    let (id, c) := takeFree c
    let c := (List.range pieces.length).foldl (fun c i =>
      let last := i + 1 = pieces.length
      send { dst := { rp.run.requester with port := c.proto.active }, src := portAddr c c.proto.active rp.run.requester.addr,
             srcUdp := c.param 0x0D00, kind := 0x20,
             flags := 2 + (if last then 4 else 0) + (if last ∧ trunc then 16 else 0), reqId := id % 2 ^ 32, status := 0, role := 0,
             epoch := c.proto.epoch,
             payload := toBe 2 j.no ++ toBe 2 rp.code ++ toBe 4 rp.run.seq ++ toBe 8 rp.run.startEpoch
               ++ toBe 8 rp.run.triggerTime ++ toBe 4 (1360 * i) ++ toBe 4 all.length ++ sizes.flatMap (toBe 4)
               ++ pieces.getD i [] } c) c
    rel c

/-- Send every reply of a job whose slots are full, before the job's slots are set empty; its others wait on (R411; log
entry 15). -/
def flushReplies (m : Mem) (j : Job) (c : Ctl) : Ctl :=
  let mine := c.proto.replies.filter fun rp => rp.job = j.no && !rp.frozen
  mine.foldl (fun c rp =>
    if replyReady c j rp then
      (sendResult m j rp c).withProto fun p => { p with replies := p.replies.erase rp }
    else c) c

/-- Something of an ended job is left: a frozen object, or a transfer of an OP_REPLY that waits (R411, R470). -/
def Ctl.leftOf (c : Ctl) (job : Nat) : Bool :=
  c.sec.frozen.any (fun f => f.job == job) || c.proto.replies.any fun rp => rp.job == job

/-! ### Freezes (R468) -/

/-- List a frozen object (R468, Table 15.10). -/
def freeze (kind : Nat) (st : KS) (job tile ctx idx tag : Nat) (c : Ctl) : Ctl :=
  let role := if kind ≤ 4 then 0 else 1
  let c := c.withSec fun s =>
    let f : Frozen := { id := s.nextObject, kind := kind, role := role, status := st.code, job := job, tile := tile,
                        ctx := ctx, idx := idx, tag := tag, time := c.clk.device }
    { s with frozen := s.frozen ++ [f], nextObject := s.nextObject + 1 }
  count .secFreeze (kind - 1) 1 c
/-- An object is frozen in a job. -/
def Ctl.frozenIn (c : Ctl) (job : Nat) : Bool := c.sec.frozen.any fun f => f.job = job
/-- The job itself is frozen (R262). -/
def Ctl.jobFrozen (c : Ctl) (job : Nat) : Bool := c.sec.frozen.any fun f => f.kind = 2 && f.job = job

/-! ### The Plane when a job leaves it (R139, R143, R148) -/

/-- Drop a job from the Plane, hit at record `idx`: the pass in progress and the drain of that command write nothing; the
commands before it complete. -/
def leavePlane (m : Mem) (j : Job) (idx : Nat) (c : Ctl) : Ctl :=
  (settleDrain m j.no idx c).withPlane fun p =>
    let held : Bool := p.holder == some j.no
    let inc : Bool := match p.switch with | some s => s.job == j.no | none => false
    { p with holder := if held then none else p.holder, switch := if inc then none else p.switch,
             stopReq := if held then false else p.stopReq, operandWait := if held then none else p.operandWait,
             drainWait := if held then none else p.drainWait, passWait := !held && p.passWait, waitFull := if held then none else p.waitFull,
             heldFaults := if held then [] else p.heldFaults, atPassEnd := !held && p.atPassEnd }

/-! ### Job ends (R148, R259, R407, R412, R470) -/

/-- Slots that a job's end sets empty: PRODUCER internal, Crosswind or host (R259). -/
def endSlots (j : Job) (c : Ctl) : Ctl :=
  j.handles.foldl (fun c p =>
    if p.2.producer = 1 ∨ p.2.place = 2 then c
    else setAll setEmpty ((List.range p.2.slotCount).flatMap p.2.slotKeys) c) c

def dropXfer (x : HostXfer) (c : Ctl) : Ctl := c.withProto fun p => { p with xfers := p.xfers.filter fun y => y ≠ x }
/-- A transfer that ends partly written leaves its slot full with VOIDED = 1 (R257, R408). -/
def voidXfer (x : HostXfer) (c : Ctl) : Ctl :=
  let c := dropXfer x c
  match (c.job? x.jobNo).bind fun j => j.handle? x.handle with
  | some h => voidPart h x.slot (h.slotKey x.tile x.slot) c
  | none => c
/-- The host transfers of a job end with it (R257, R408). -/
def voidHost (j : Job) (c : Ctl) : Ctl := (c.proto.xfers.filter fun x => x.jobNo = j.no).foldl (fun c x => voidXfer x c) c

def freeFrames (j : Job) (c : Ctl) : Ctl :=
  c.withStore fun s => { s with frames := s.frames.filter fun f => !(j.pages.any fun p => !p.flash && p.frame == f.1) }

/-- Build a reply (R395, R399, R401, R415): the last packet of it, or the only one, has LAST (R403; log entry 29); to the source, from
the port, address and UDP port that the request arrived on, and from those of a held copy; the reply is cached. -/
def replyPackets (r : Req) (kind : Nat) (st : KS) (bodies : List (List Byte)) (epoch : Nat) (port : Nat) : List Packet :=
  (List.range bodies.length).map fun i =>
    { dst := { port := port, addr := r.addr, udp := r.udp }, src := r.dst, srcUdp := r.dstUdp, kind := kind,
      flags := 1 + (if i + 1 = bodies.length then 4 else 0), reqId := r.reqId, status := st.code,
      role := r.role, epoch := epoch, payload := bodies.getD i [] : Packet }
def sameRequest (a b : Req) : Bool :=
  a.role == b.role && a.flags == b.flags && a.status == b.status && a.epoch == b.epoch && a.deadline == b.deadline
    && a.authLen == b.authLen && a.trailer == b.trailer && a.payload == b.payload
def answerAll (r : Req) (kind : Nat) (st : KS) (bodies : List (List Byte)) (c : Ctl) : Ctl :=
  let ps := replyPackets r kind st bodies c.proto.epoch r.port
  let hit (q : Cached) : Bool := q.req.addr == r.addr && q.req.udp == r.udp && q.req.reqId == r.reqId && q.reply.isNone
  let copy := (c.proto.cache.find? hit).bind (·.copyPort)
  let c := ps.foldl (fun c p => send p c) c
  let c := match copy with
    | some q => ps.foldl (fun c (p : Packet) => send { p with dst := { p.dst with port := q.1 }, src := q.2.1, srcUdp := q.2.2 } c) c
    | none => c
  c.withProto fun p => { p with cache := p.cache.map fun q => if hit q then { q with reply := some ps } else q }
def answer (r : Req) (kind : Nat) (st : KS) (body : List Byte) (c : Ctl) : Ctl := answerAll r kind st [body] c

/-- End a job (R148, R259, R407, R412): its run stops, its streams are saved and its contexts freed, its slots, pages,
handles, windows and number are released, except what a freeze keeps (R262, R470). -/
def endJobWith (detail : List Byte) (m : Mem) (no : Nat) (st : KS) (list idx tag : Nat) (c : Ctl) : Ctl :=
  match c.job? no with
  | none => c
  | some j =>
    if j.ended then c
    else
      let c := leavePlane m j idx c
      let hit : Bool := match c.job? no with | some k => k.exec.incomplete ≠ [] | none => false
      let c := if hit ∧ st ≠ .ok then count .plnCmdFault j.cls 1 c else c
      let c := deliverAll no c.xfers.length (m.apply c.wq) c
      let c := saveStreams no (voidParts m no c)
      let c := flushReplies (m.apply c.wq) j c
      -- a group run that ends here ends on every member with the same status, and the lead's job ends there too (R407, R442)
      let seq := match j.running with | some x => x.seq | none => j.runSeq
      let c := if j.grouped ∧ (j.running.isSome ∨ c.isLead) then tellMembers 4 j [endWord st.code true seq] c else c
      let c := if j.grouped then dropLinks no c else c
      let c := voidHost j c
      let kept := c.jobFrozen no
      let c := if kept then c else endSlots j c
      -- a drain of an earlier command that waited on one of these slots ends now
      let c := dropDrain no (settleDrain m no idx c)
      let c := if kept then c else freeFrames j (endSlots j c)
      let mark (k : Job) : Job :=
        { k with ended := true, running := none, waiting := none, lastStatus := st.code, lastList := list, lastIndex := idx,
                 lastTag := tag, exec := Exec.start, endReq := none, abortReq := none, admitReq := none,
                 pages := if kept then k.pages else [], handles := if kept then k.handles else [],
                 windows := if kept then k.windows else [] }
      let c := if c.leftOf no then c.mapJob no mark else { c with jobs := c.jobs.filter fun k => k.no ≠ no }
      let c := event 1 no st.code list idx tag detail [j.submitter] c
      let c := match j.endReq with | some r => answer r 0x13 st [] c | none => c
      let c := match j.admitReq with | some r => answer r 0x10 st [] c | none => c
      match j.abortReq with | some r => answer r 0x12 st [] c | none => c

def endJob (m : Mem) (no : Nat) (st : KS) (list idx tag : Nat) (c : Ctl) : Ctl := endJobWith [] m no st list idx tag c

/-- End a job at a record of its list, naming it (R148). -/
def failAt (m : Mem) (no : Nat) (st : KS) (idx : Nat) (c : Ctl) : Ctl :=
  match c.job? no with
  | some j => endJob m no st 4 idx (rTag (j.cmds.getD idx 0)) c
  | none => c

/-- The record that an abort of a job that is not on the Plane names: the command inside which its list was stopped, or the one that
comes next at a command boundary (R147). -/
def Job.abortIndex (j : Job) : Nat := if j.exec.phase = 2 ∧ j.kind = .array then j.exec.pc + 1 else j.exec.pc

/-- End a job at the command it stands at, naming the record (R148). -/
def failJob (m : Mem) (no : Nat) (st : KS) (c : Ctl) : Ctl :=
  match c.job? no with
  | some j => endJob m no st 4 j.exec.pc (rTag (j.cmds.getD j.exec.pc 0)) c
  | none => c

/-! ### Runs (R40, R409, R417, R418, R419, R481, R509) -/

/-- Gale starts of the last 1 ms of the control domain; another fits while they are below 40 (R419). -/
def galeRoom (c : Ctl) : Bool := (c.proto.galeStarts.filter fun t => c.clk.ns < t + 1000000).length < 40

/-- Epoch that a run of a job carries: the group epoch for a group run (R410, R443). -/
def runEpoch (c : Ctl) (j : Job) : Nat := if j.grouped then c.group.epoch else c.proto.epoch
/-- The pending run of a job as it starts: it carries the epoch of its start (R410, R417; DEDUCED, log entry 105). A Breeze or Lull
run is ready from now on; a Gale run keeps the time of its trigger (R39, R418). -/
def promoted (c : Ctl) (j : Job) : Option Run :=
  j.waiting.map fun x => { x with startEpoch := runEpoch c j, readyAt := if j.cls = 0 then x.readyAt else c.clk.ns }
/-- Status with which a job ends at its next run boundary: KS_NOT_PERMITTED, or KS_OK where its group's job has ended
(R407, R465). -/
def Job.endStatus (j : Job) : KS := if j.endAtRun = 0x10000 then .ok else .notPermitted
/-- A list at its start; who wrote its handles last stays known over the runs (R410). -/
def Exec.afresh (e : Exec) : Exec := { Exec.start with writers := e.writers }
/-- A run of a job: it becomes the running one, or the pending one behind it (R409). `gale` starts count (R419). -/
def beginRun (no : Nat) (who : Peer) (time : Nat) (c : Ctl) : Ctl :=
  match c.job? no with
  | none => c
  | some j =>
    let run : Run := { seq := j.runSeq, requester := who, startEpoch := runEpoch c j, triggerTime := time, readyAt := c.clk.ns }
    -- the lead starts the run on every member (R443)
    let c := if j.grouped ∧ c.isLead then tellMembers 3 j [startWord who time] c else c
    let c := if j.cls = 0 then
        c.withProto fun p => { p with galeStarts := (p.galeStarts.filter fun t => c.clk.ns < t + 1000000) ++ [c.clk.ns] }
      else c
    let c := count .svcRun j.cls 1 c
    let c := if j.running.isNone then
        c.setJob { j with running := some run, runSeq := j.runSeq + 1, exec := j.exec.afresh, saved := [], quantumUsed := 0, moved := c.clk.ns }
      else c.setJob { j with waiting := some run, runSeq := j.runSeq + 1 }
    -- a run that is ready returns the device from IDLE to RUN (R481)
    c.withPower fun p => { p with idle := false, quiet := 0 }

/-- A Gale trigger of an intake context, which carries the T_END `time` (R375, R409, R419, R483): the jobs bound to it in
ascending JOB_NO. -/
def galeTrigger (context time : Nat) (c : Ctl) : Ctl :=
  -- the trigger of a group job is a context of the lead (R443)
  (c.jobs.filter fun j => j.mode = 2 && j.trigger = context && !j.ended && j.admitReq.isNone && (!j.grouped || c.isLead)).foldl (fun c j0 =>
    match c.job? j0.no with
    | none => c
    | some j =>
      let drop (st : KS) (c : Ctl) : Ctl := event 2 j.no st.code 0 0 0 [] [j.submitter] c
      if c.power.stage ≠ .on then drop .powerState c
      else if c.jobFrozen j.no then drop .frozen c
      else if j.waiting.isSome then drop .busy (count .svcTrigDrop 0 1 c)
      else if !galeRoom c then drop .galeRate (count .svcGaleDrop 0 1 c)
      else beginRun j.no j.submitter time c) c

/-- A run ended with KS_OK (R407, R409, R461, R465): the pending run becomes the running one, or the job ends. A group run ends with it
on every member (R442; log entry 34). -/
def runEnded (m : Mem) (no : Nat) (c : Ctl) : Ctl :=
  match c.job? no with
  | none => c
  | some j =>
    let c := c.setJob { j with lastStatus := 0, lastList := 4, lastIndex := j.exec.pc,
                               lastTag := rTag (j.cmds.getD j.exec.pc 0) }
    if j.mode = 0 then endJob m no .ok 4 j.exec.pc (rTag (j.cmds.getD j.exec.pc 0)) c
    else if j.endReq.isSome then endJob m no .ok 4 j.exec.pc (rTag (j.cmds.getD j.exec.pc 0)) c
    else if j.endAtRun ≠ 0 then endJob m no j.endStatus 4 j.exec.pc (rTag (j.cmds.getD j.exec.pc 0)) c
    else
      let c := match j.running with
        | some x => if j.grouped then tellMembers 4 j [endWord 0 false x.seq] c else c
        | none => c
      c.mapJob no fun k => { k with running := promoted c k, waiting := none, exec := k.exec.afresh, saved := [], quantumUsed := 0, moved := c.clk.ns }

end Sys2Proof.Machine
end

