-- ==== Sys2Proof/Machine/Trust.lean ====
section
/-! DEFINITION. The journal, the key, rights and peer checks, and the gate that every host request passes (13 R400 to R402;
15 R448 to R452, R474, R475). -/

namespace Sys2Proof

/-- Big-endian field of a payload. -/
def Req.be (r : Req) (off n : Nat) : Nat := beNat (slice r.payload off n)
def Req.u8 (r : Req) (off : Nat) : Nat := (r.payload.getD off 0).toNat
def Req.len (r : Req) : Nat := r.payload.length
def Req.zeros (r : Req) (off n : Nat) : Bool := (slice r.payload off n).all (· == 0)
def Req.peer (r : Req) : Machine.Peer := { port := r.port, addr := r.addr, udp := r.udp }

/-- Key slot of the trailer, or 0xFF. -/
def Req.keySlot (r : Req) : Nat := if r.authLen = 80 then r.trailer.keySlot else 0xFF
/-- The signed bytes of a request: packet bytes 0 to LENGTH − 65. -/
def Req.signed (r : Req) (kind : Nat) : List Byte :=
  [0x4B, 0x43, 1, byte kind] ++ toBe 2 r.flags ++ toBe 2 (32 + r.payload.length + r.authLen) ++ toBe 4 r.reqId
    ++ toBe 2 r.status ++ [byte r.role, byte r.reserved15] ++ toBe 8 r.epoch ++ toBe 4 r.deadline ++ toBe 2 r.authLen
    ++ toBe 2 r.reserved30 ++ r.payload ++ [byte r.trailer.keySlot] ++ toBe 7 r.trailer.reserved
    ++ toBe 8 r.trailer.counter

end Sys2Proof

namespace Sys2Proof.Machine

/-! ### The journal (R474 to R476, Table 15.12) -/

def Entry.bytes (e : Entry) : List Byte :=
  toBe 8 e.seq ++ toBe 8 e.time ++ toBe 8 e.epoch ++ toBe 2 e.kind ++ [byte e.role, byte e.keySlot] ++ toBe 4 e.reqId
    ++ slice e.detail 0 32 ++ slice e.prevHash 0 64
def hash (bs : List Byte) : List Byte := slice (Config.sha512 bs) 0 64
def journalSize : Nat := 0x10000
/-- SHA-512 of the newest entry, or the anchor. -/
def Sec.newest (s : Sec) : List Byte := match s.journal.getLast? with | some e => hash e.bytes | none => s.anchor
/-- 1,024 or fewer entries are free (R475). -/
def Ctl.journalFull (c : Ctl) : Bool := journalSize ≤ c.sec.journal.length + 1024

/-- Write an entry. With none free, that of a tightening, a thaw or a release replaces the oldest; no other removes one (R474,
R475; log entry 133). -/
def journal (kind role keySlot reqId : Nat) (payload : List Byte) (c : Ctl) : Ctl :=
  let s := c.sec
  let e : Entry :=
    { seq := s.head + 1, time := c.clk.device, epoch := c.proto.epoch, kind := kind, role := role, keySlot := keySlot,
      reqId := reqId, detail := (hash payload).take 32, prevHash := s.newest }
  let full : Bool := !(s.journal.length < journalSize)
  let oldest := if full then s.journal.head? else none
  let s' := match oldest with
    | some old => { s with journal := s.journal.tail ++ [e], anchor := hash old.bytes, lost := s.lost + 1, head := e.seq }
    | none => { s with journal := s.journal ++ [e], head := e.seq }
  let c := if full ∧ !(kind = 4 ∨ kind = 7 ∨ kind = 8) then c else { c with sec := s' }
  if c.journalFull && !s.fullSent then
    serviceEvent 10 10 0 KS.journalFull.code (c.withSec fun s => { s with fullSent := true })
  else c
def journalReq (kind : Nat) (r : Req) (c : Ctl) : Ctl := journal kind r.role r.keySlot r.reqId r.payload c

/-! ### Keys and peers (R449 to R452) -/

def Ctl.key (c : Ctl) (i : Nat) : List Byte := c.sec.keys.getD i []
def keyUse (k : List Byte) : Nat := (k.getD 0 0).toNat
def keyRole (k : List Byte) : Nat := (k.getD 1 0).toNat
def keyCounter (k : List Byte) : Nat := beNat (slice k 104 8)
/-- The counter that a request must exceed: stored, or kept in memory for the read-only rows (R451). -/
def Ctl.counterOf (c : Ctl) (i : Nat) : Nat := max (keyCounter (c.key i)) (SMap.get 0 c.sec.ramCounters i)
def setKeyCounter (n : Nat) (k : List Byte) : List Byte := slice k 0 104 ++ toBe 8 n ++ slice k 112 16
/-- Raise every stored counter to the one kept in memory (R451). -/
def storeCounters (c : Ctl) : Ctl :=
  c.withSec fun s =>
    { s with ramCounters := [], keys := (List.range s.keys.length).map fun i =>
        let k := s.keys.getD i []
        if keyCounter k < SMap.get 0 s.ramCounters i then setKeyCounter (SMap.get 0 s.ramCounters i) k else k }

/-- The trailer of a signed request verifies (R450). -/
def signatureOk (c : Ctl) (kind : Nat) (r : Req) : Bool :=
  let k := c.key r.trailer.keySlot
  r.trailer.keySlot < 16 && bit (keyUse k) 0 && bit (keyUse k) 1 && keyRole k == r.role
    && c.counterOf r.trailer.keySlot < r.trailer.counter
    && Config.edVerify (slice k 8 32) (r.signed kind) r.trailer.signature

/-- A VALID peer entry that matches a request's source address, port and role (R452, Table 15.7). -/
def peerMatches (r : Req) (p : List Byte) : Bool :=
  let f := (p.getD 0 0).toNat
  let n := (p.getD 2 0).toNat
  bit f 0 && bit (p.getD 3 0).toNat r.port && r.role ≤ (p.getD 1 0).toNat
    && r.addr / 2 ^ (128 - n) == beNat (slice p 4 16) / 2 ^ (128 - n)
def Ctl.peerOk (c : Ctl) (r : Req) : Bool := c.sec.peers.any (peerMatches r)
def Ctl.anyJob (c : Ctl) (r : Req) : Bool := c.sec.peers.any fun p => peerMatches r p && bit (p.getD 0 0).toNat 1

/-- Rows of Table 15.1 that are "Fixed" for the maker. -/
def fixedRows : List Nat := [0, 1, 8, 9, 10, 11, 14, 15, 16]
/-- The ceiling of Table 15.1. -/
def rightsCeiling (row : Nat) : Nat := Sec.rightsReset.getD row 0
def Ctl.holds (c : Ctl) (row role : Nat) : Bool :=
  role < 3 && bit (rightsCeiling row) role && (bit (c.sec.rights.getD row 0) role || (role == 2 && fixedRows.contains row))

/-! ### The gate (R400 to R402) -/

/-- What a packet type brings to the gate: its TYPE, its row of Table 15.1, checks 4, 5 and 8 of its payload, the job it
names, and whether it is exempt from checks 8 and 10 (R466) or continues an accepted fragment sequence (R403). -/
structure Gate where
  code : Nat
  row : Nat
  lengthOk : Bool
  reservedOk : Bool
  job : Option Nat
  mode : KS
  exempt : Bool
  fragment : Bool
  /-- The command that serves the request where it waits first: by its TYPE and SUB, where there is none. -/
  again : Option Instr
  /-- What its refusals carry (R462), and whether it is a CLAIM, whose own checks no counter counts (R467, Table 15.14). -/
  detail : List Byte := []
  claim : Bool := false
  deriving DecidableEq, Repr

/-- A cached request still counts: the last 10 s, the last 1,024 of its source (R401). -/
def Ctl.cached (c : Ctl) (r : Req) : Option Cached :=
  let mine := c.proto.cache.filter fun q => q.req.addr = r.addr && q.req.udp = r.udp && c.clk.ns ≤ q.at' + 10000000000
  (mine.drop (mine.length - 1024)).find? fun q => q.req.reqId = r.reqId

/-- A repeat is identical to the request, or to one of its fragments (R401, R403). -/
def Cached.holds (q : Cached) (r : Req) : Bool := sameRequest q.req r || q.more.any fun x => sameRequest x r

/-! ### Frames on a command port (R393, R394) -/

/-- A frame for the device on an enabled port: untagged or with the port's VLAN, to an address of the port and to PRO_UDP_PORT
(Table 13.1). -/
def Ctl.frameFor (c : Ctl) (r : Req) : Bool :=
  let l := c.param (0x0D10 + r.port)
  let v4 := c.param (0x0D12 + r.port)
  let v6 := c.param (0x0D14 + r.port)
  bit l 48 && (r.vlan.isNone || (bit l 50 && r.vlan == some (bits l 63 52)))
    && ((bit v4 38 && r.dst == 0xFFFF * 2 ^ 32 + bits v4 31 0) || (bit v6 136 && r.dst == bits v6 127 0))
    && r.dstUdp == c.param 0x0D00
/-- A frame fails replay protection: its packet number lies before the window (R394; log entry 129). -/
def Ctl.frameLate (c : Ctl) (port pn : Nat) : Bool := pn + c.param 0x0D04 < c.proto.rxPn.getD port 0
/-- A frame has passed MACsec. -/
def noteFrame (port pn : Nat) (c : Ctl) : Ctl :=
  c.withProto fun p => { p with rxPn := p.rxPn.set port (max (p.rxPn.getD port 0) (pn + 1)) }
/-- The device hears a request: it accepts commands, and the request's frame is good and meant for it. -/
def Ctl.hears (c : Ctl) (r : Req) : Bool :=
  !c.proto.serving && c.accepting && c.proto.sa.getD r.port false && !c.frameLate r.port r.pn && c.frameFor r

/-! ### The queue of accepted requests (R402) -/

/-- The command of a request of TYPE `code`. -/
def instrOf (code : Nat) (r : Req) : Instr :=
  match code, r.u8 0 with
  | 0x01, _ => .identify r | 0x02, _ => .paramRead r | 0x03, _ => .paramWrite r | 0x04, _ => .counterRead r
  | 0x05, _ => .counterClear r | 0x10, _ => .jobSubmit r | 0x11, _ => .jobRun r | 0x12, _ => .jobAbort r | 0x13, _ => .jobEnd r
  | 0x14, _ => .jobStatus r | 0x18, _ => .slotWrite r | 0x19, _ => .slotRead r | 0x30, _ => .bundleBegin r
  | 0x31, _ => .bundleData r [] | 0x32, _ => .bundleCommit r | 0x33, _ => .bundleRemove r | 0x34, _ => .bundleList r
  | 0x38, 0 => .protectRead r | 0x38, 1 => .protectWrite r | 0x38, 2 => .protectClaim r | 0x38, _ => .protectRelease r
  | 0x39, 0 => .thawList r | 0x39, _ => .thaw r | 0x3A, 0 => .attestReport r | 0x3A, _ => .attestKeys r
  | 0x3B, 0 => .journalRead r | 0x3B, _ => .journalTrim r | 0x40, 0 => .powerRead r | 0x40, 1 => .powerEnter r
  | 0x40, _ => .powerReset r | 0x41, 0 => .leeRead r | 0x41, 1 => .leeEnter r | 0x41, _ => .leeLeave r
  | 0x48, 0 => .groupForm r [] | 0x48, 1 => .groupLeave r | _, _ => .groupStatus r
/-- The job that a JOB_RUN names is a Gale job. -/
def Ctl.galeRun (c : Ctl) (code : Nat) (r : Req) : Bool :=
  code == 0x11 && match c.job? (r.be 0 2) with | some j => j.cls == 0 | none => false
/-- An accepted request waits: firmware serves another, or older ones wait, which a Gale JOB_RUN goes ahead of (R41, R402); or it
is a slot transfer and a store is being copied (R541). -/
def Ctl.queues (c : Ctl) (code : Nat) (r : Req) : Bool :=
  r.waits || (c.proto.queue != [] && !c.galeRun code r) || (c.plane.copying.isSome && (code == 0x18 || code == 0x19))
/-- A command waits that is a Gale JOB_RUN. -/
def Ctl.galeWaits (c : Ctl) : Instr → Bool
  | .jobRun r => c.galeRun 0x11 r
  | _ => false
/-- An accepted request joins the queue: at its end, or, a Gale JOB_RUN, behind those that lead it (R402). -/
def enqueue (g : Gate) (r : Req) (c : Ctl) : Ctl :=
  let i := g.again.getD (instrOf g.code r)
  c.withProto fun p =>
    if c.galeRun g.code r then { p with queue := p.queue.takeWhile c.galeWaits ++ i :: p.queue.dropWhile c.galeWaits }
    else { p with queue := p.queue ++ [i] }

/-- Check 5: header fields (Table 13.2). A request with STATUS not 0, or EPOCH not 0 without EPOCH_MATCH, gets KS_BAD_RESERVED (R17;
DESIGN CHOICE, log entry 116). -/
def headerCheck (r : Req) : KS :=
  if r.flags / 32 ≠ 0 ∨ r.reserved15 ≠ 0 ∨ r.reserved30 ≠ 0 ∨ r.status ≠ 0 ∨ (!bit r.flags 3 ∧ r.epoch ≠ 0)
      ∨ (r.authLen = 80 ∧ r.trailer.reserved ≠ 0) then .badReserved
  else if 30000 < r.deadline then .badValue
  else .ok

/-- Check 7 (R448 to R452). -/
def trustCheck (c : Ctl) (g : Gate) (r : Req) : KS :=
  if 3 ≤ r.role then .notPermitted
  else if r.authLen ≠ (if r.role = 0 then 0 else 80) then .badSignature
  else if r.role ≠ 0 ∧ !signatureOk c g.code r then .badSignature
  else if !c.holds g.row r.role ∨ !c.peerOk r then .notPermitted
  else
    match g.job.bind c.job? with
    | some j => if (j.submitter.addr = r.addr ∧ j.submitter.udp = r.udp) ∨ c.anyJob r then .ok else .notPermitted
    | none => .ok

/-- Types that check 8 lets pass while an entry is in progress (R483). -/
def entryAllowed (g : Gate) : Bool := [0x01, 0x02, 0x04, 0x14].contains g.code || g.exempt
/-- Check 8: power state and mode. `mode` is the type's own answer in Lee mode, or of POWER READ. -/
def modeCheck (c : Ctl) (g : Gate) (r : Req) : KS :=
  if g.exempt then .ok
  else if c.power.stage ≠ .on ∧ !entryAllowed g ∧ !(g.code = 0x40 ∧ r.payload.getD 0 1 = 0) then .powerState
  else g.mode

/-- Accept a request: count, cache, keep its counter (R400, R401, R451). -/
def accept (g : Gate) (r : Req) (c : Ctl) : Ctl :=
  let c := count .proRx r.port 1 (noteFrame r.port r.pn c)
  let more (q : Cached) : Cached :=
    if q.req.addr = r.addr ∧ q.req.udp = r.udp ∧ q.req.reqId = r.reqId then { q with more := q.more ++ [r] } else q
  let c := if g.fragment then c.withProto fun p => { p with cache := p.cache.map more }
    else c.withProto fun p =>
      let old := p.cache.filter fun q => c.clk.ns ≤ q.at' + 10000000000 && !(q.req.addr == r.addr && q.req.udp == r.udp && q.req.reqId == r.reqId)
      { p with cache := old ++ [{ code := g.code, req := r, reply := none, at' := c.clk.ns, copyPort := none, more := [] }] }
  if r.role = 0 then c
  else
    let c := c.withSec fun s => { s with ramCounters := SMap.put 0 s.ramCounters r.trailer.keySlot r.trailer.counter }
    if [0, 1, 9, 14, 15].contains g.row then c else storeCounters c

/-- A refusal: the reply is not cached and nothing else changes. -/
def refuse (g : Gate) (r : Req) (st : KS) (c : Ctl) : Ctl :=
  (replyPackets r g.code st [g.detail] c.proto.epoch r.port).foldl (fun c p => send p c) (noteFrame r.port r.pn c)

/-- Checks 6 to 10 of R400, then the request itself; `t` is the outcome of check 7. -/
def gateRest (g : Gate) (t : KS) (r : Req) (serve : Ctl → Ctl) (c : Ctl) : Ctl :=
  match (if g.fragment then none else c.cached r) with
  | some q =>
    let c := count .proDuplicate 0 1 c
    if q.code ≠ g.code ∨ !q.holds r then refuse g r .duplicateId c
    else
      match q.reply with
      | some ps =>
        ps.foldl (fun c p => send { p with dst := { p.dst with port := r.port }, src := r.dst, srcUdp := r.dstUdp } c)
          (noteFrame r.port r.pn c)
      | none =>
        if q.req.port ≠ r.port ∧ q.copyPort.isNone then
          (noteFrame r.port r.pn c).withProto fun p =>
            { p with cache := p.cache.map fun x => if x = q then { q with copyPort := some (r.port, r.dst, r.dstUdp) } else x }
        else refuse g r .pending c
  | none =>
    -- a trailer that does not suit the role is not verified (R449, R450)
    if t = .badSignature then refuse g r t (if r.authLen = (if r.role = 0 then 0 else 80) ∧ !g.claim then count .secBadSig 0 1 c else c)
    else if t ≠ .ok then refuse g r t (if r.role < 3 ∧ (!g.claim ∨ (!c.sec.claimed ∧ r.role = 2)) then count .secNotPermitted r.role 1 c else c)
    else if modeCheck c g r ≠ .ok then refuse g r (modeCheck c g r) c
    else if bit r.flags 3 ∧ r.epoch ≠ c.proto.epoch then refuse g r .epochChanged c
    else if g.exempt then serve (accept g r c)
    else if 256 ≤ c.proto.queue.length then refuse g r .busy (count .proBusy 0 1 c)
    else if c.queues g.code r then enqueue g r (accept g r c)
    else serve (accept g r c)

/-- The gate of a host request, with the outcome `t` of check 7. A port without a secure association, or a device that
accepts no commands, takes none (R394, R489); a frame that is not for the device is discarded (R393). A request that the queue hands
over has passed; the state of the device is looked at again (DESIGN CHOICE, log entry 107). -/
def gateWith (g : Gate) (t : KS) (r : Req) (serve : Ctl → Ctl) (c : Ctl) : Ctl :=
  if c.proto.serving then (if modeCheck c g r = .ok then serve c else answer r g.code (modeCheck c g r) [] c)
  else if !(c.accepting && c.proto.sa.getD r.port false) then c
  else if c.frameLate r.port r.pn then count .proMacsecDrop r.port 1 c
  else if !c.frameFor r then noteFrame r.port r.pn c
  else if !g.lengthOk then refuse g r .badPacket (count .proBad r.port 1 c)
  else if !g.reservedOk then refuse g r .badReserved (count .proBad r.port 1 c)
  else if headerCheck r ≠ .ok then refuse g r (headerCheck r) (count .proBad r.port 1 c)
  else gateRest g t r serve c
/-- The gate of a request that Table 15.1 governs. -/
def gate (g : Gate) (r : Req) (serve : Ctl → Ctl) (c : Ctl) : Ctl := gateWith g (trustCheck c g r) r serve c

/-- A gate with no exemption. -/
def plainGate (code row : Nat) (lengthOk reservedOk : Bool) : Gate :=
  { code := code, row := row, lengthOk := lengthOk, reservedOk := reservedOk, job := none, mode := .ok, exempt := false,
    fragment := false, again := none }

/-- A request passes the checks of R400 that follow its form, with gate `g` and outcome `t` of check 7: it is served. -/
def passes (g : Gate) (t : KS) (r : Req) (c : Ctl) : Bool :=
  c.hears r && g.lengthOk && g.reservedOk && headerCheck r == .ok
    && (g.fragment || (c.cached r).isNone) && t == .ok && modeCheck c g r == .ok
    && (!bit r.flags 3 || r.epoch == c.proto.epoch) && ((decide (c.proto.queue.length < 256) && !c.queues g.code r) || g.exempt)

end Sys2Proof.Machine
end

