-- ==== Sys2Proof/Machine/Admission.lean ====
section
/-! DEFINITION. Admission of a job: the checks of R406 in order, and what an admission makes (13 R405, R406; 11 R353, R354;
08 R249 to R252, R263, R266; 12 R368; 04 R115; 09 R276 to R280, R288; 14 R440). -/

namespace Sys2Proof.Machine

/-- A refusal: status, LIST, INDEX, TAG. -/
structure Refused where
  st : KS
  list : Nat
  index : Nat
  tag : Nat
  deriving DecidableEq, Repr

def rejectAt (st : KS) (list index : Nat) : Except Refused Unit := throw { st := st, list := list, index := index, tag := 0 }
/-- Pass, or refuse. -/
def need (ok : Bool) (st : KS) (list index : Nat) : Except Refused Unit := if ok then pure () else rejectAt st list index
/-- Check the elements of a list in order. -/
def needEach {α : Type} (f : Nat → α → Except Refused Unit) : Nat → List α → Except Refused Unit
  | _, [] => pure ()
  | i, a :: as => do f i a; needEach f (i + 1) as

/-- The first entry of a list of `n` with which the entries so far do not fit. -/
def firstUnfit (fits : Nat → Bool) (n : Nat) : Nat := ((List.range n).find? fun i => !fits (i + 1)).getD 0

/-! ### Bundles and descriptions (R405, R459) -/

/-- Bytes of an installed bundle, as the flash interface delivers them (R352). -/
def bundleBytes (m : Mem) (b : Bundle) (off n : Nat) : List Byte := m.flashBytes (b.base + off) n
def bundleNat (m : Mem) (b : Bundle) (off n : Nat) : Nat := leNat (bundleBytes m b off n)

/-- A job description, 512 bits (R405). -/
structure Desc where
  mask : Nat
  cmdVa : Nat
  streamVa : Nat
  streams : Nat
  pageOff : Nat
  pages : Nat
  bufOff : Nat
  bufs : Nat
  winOff : Nat
  wins : Nat
  preOff : Nat
  pres : Nat
  tail : Nat
  deriving DecidableEq, Repr

def descOfNat (n : Nat) : Desc :=
  let f (lo len : Nat) : Nat := bits n (8 * (lo + len) - 1) (8 * lo)
  { mask := f 0 2, cmdVa := f 2 6, streamVa := f 8 6, streams := f 14 2, pageOff := f 16 4, pages := f 20 4,
    bufOff := f 24 4, bufs := f 28 4, winOff := f 32 4, wins := f 36 4, preOff := f 40 4, pres := f 44 4, tail := f 48 16 }

/-- Check 2 of R406. -/
def checkDesc (b : Bundle) (cls : Nat) (d : Desc) : Except Refused Unit := do
  need (d.mask / 8 == 0 && d.tail == 0) .badReserved 0 0
  need (d.streams ≤ 4096 && d.pageOff + 16 * d.pages ≤ b.size && d.bufOff + 516 * d.bufs ≤ b.size
    && d.winOff + 8 * d.wins ≤ b.size && d.preOff + 16 * d.pres ≤ b.size) .badDescriptor 0 0
  need (cls < 3 && bit d.mask cls) .badValue 0 0

/-! ### Pages and presets (R353, R354, R405) -/

/-- Page list entry i, a 128-bit number, maps page number i of its size (log entry 11). -/
def pageOf (i e : Nat) : Page :=
  let big := bit e 1
  { va := i * (if big then 0x200000 else 0x10000), big := big, flash := bit e 2, resident := bit e 3, write := bit e 4,
    pin := bit e 5, frame := bits e 63 16, flashAddr := bits e 111 64 }
def checkPage (i e : Nat) : Except Refused Unit := do
  need (bits e 15 6 == 0 && bits e 127 112 == 0) .badReserved 1 i
  let p := pageOf i e
  need (if !bit e 0 then e == 0
    else !p.resident && !p.pin && p.frame == 0
      && (if p.flash then !p.write && p.flashAddr % p.bytes == 0 && flashBase ≤ p.flashAddr && p.flashAddr < flashEnd
          else p.flashAddr == 0)
      && p.va + p.bytes ≤ 2 ^ 48) .badPage 1 i
/-- The page list: each entry in turn, and that its page overlaps none of those before it in job virtual memory. -/
def checkPages (entries : List Nat) : Except Refused Unit :=
  needEach (fun i e => do
    checkPage i e
    let p := pageOf i e
    need (!bit e 0 || (List.range i).all fun k =>
      let q := pageOf k (entries.getD k 0)
      !bit (entries.getD k 0) 0 || apart q.va q.bytes p.va p.bytes) .badPage 1 i) 0 entries

/-- A preset entry: job virtual address, bytes, bundle offset. -/
def presetOf (e : Nat) : Nat × Nat × Nat := (bits e 47 0, 32 * bits e 63 48, bits e 127 64)
def inPages (ps : List Page) (ok : Page → Bool) (va n : Nat) : Bool :=
  n == 0 || (List.range ((va + n - 1) / 0x10000 + 1 - va / 0x10000)).all fun i =>
    let a := max va ((va / 0x10000 + i) * 0x10000)
    ps.any fun p => ok p && p.va ≤ a && a < p.va + p.bytes
def checkPreset (b : Bundle) (ps : List Page) (i e : Nat) : Except Refused Unit := do
  let (va, n, off) := presetOf e
  need (inPages ps (fun p => !p.flash) va n) .badPage 6 i
  need (off + n ≤ b.size) .badDescriptor 6 i

/-! ### Handles (R248 to R252, R266, R368) -/

/-- A handle entry, a 256-bit number (Table 8.5). -/
def handleOf (e : Nat) : Handle :=
  { place := bits e 2 1, gale := bit e 3, producer := bits e 5 4, write := bit e 6, home := bits e 11 8, base := bits e 63 16,
    slotBytes := bits e 95 64, slotCount := bits e 111 96, tagBase := bits e 127 112 }

/-- The landing or relay buffer of a context, as a handle has it, and its scale slot (R368, R374, R386). -/
def streamBuffers (c : Ctl) (n : Nat) : List (Nat × Nat × Nat × Nat × Nat × Nat) :=
  let k := c.config n
  let rl := c.param (0x0C40 + n)
  let place := if k.land = 2 then bits rl 1 1 else k.land
  let home := if k.land = 2 then bits rl 5 2 else k.home
  let base := if k.land = 2 then bits rl 31 8 else k.base
  let tag := if k.land = 2 then bits rl 47 32 else k.tagBase
  [(place, home, 32 * base, 32 * k.slotWords, k.slots, tag)]
    ++ (if k.scaleWords ≠ 0 ∧ k.land ≠ 2 then [(place, home, 32 * k.scaleBase, 32 * k.scaleWords, 1, tag + k.slots)] else [])
/-- The buffers of an enabled context (R368). -/
def intakeBuffers (c : Ctl) (n : Nat) : List (Nat × Nat × Nat × Nat × Nat × Nat) :=
  if (c.config n).enable then streamBuffers c n else []

def Handle.shape (h : Handle) : Nat × Nat × Nat × Nat × Nat × Nat := (h.place, h.home, h.base, h.slotBytes, h.slotCount, h.tagBase)

/-- The checks of one handle of the buffer list: `n` its header, `es` its 16 entries. -/
def checkBuffer (c : Ctl) (gale : Bool) (ps : List Page) (seen : List Nat) (i n : Nat) (es : List Nat) :
    Except Refused Unit := do
  let e := es.getD 0 0
  need (n / 256 == 0 && es.all fun e => bits e 7 7 == 0 && bits e 15 12 == 0 && bits e 255 128 == 0) .badReserved 2 i
  need (n % 256 ≠ 255 && !seen.contains (n % 256) && es.all (· == e)) .badHandle 2 i
  if !bit e 0 then need (e == 0) .badHandle 2 i
  else do
    let h := handleOf e
    need (h.place < 3 && h.gale == gale && (h.place == 1 || h.home == 0) && h.base % 32 == 0 && h.slotBytes % 32 == 0
      && 32 ≤ h.slotBytes && h.slotBytes ≤ 0xC00000) .badHandle 2 i
    if h.place = 2 then
      need (h.slotCount == 0 && h.tagBase == 0 && inPages ps (fun _ => true) h.base h.slotBytes) .badHandle 2 i
    else do
      need (1 ≤ h.slotCount && h.slotCount ≤ 8192 && h.base + h.bytes ≤ tileBytes && h.tagBase + h.slotCount ≤ 8192)
        .badHandle 2 i
      let edge := tileBytes - c.param 0x0802
      let tag := 8192 - c.param 0x0803
      need (if gale then edge ≤ h.base && tag ≤ h.tagBase else h.base + h.bytes ≤ edge && h.tagBase + h.slotCount ≤ tag)
        .badHandle 2 i
    need (h.producer ≠ 1 || (!h.write && (List.range 64).any fun k => (intakeBuffers c k).contains h.shape)) .badHandle 2 i

/-- Buffers or tags of two jobs overlap (R252). A pair of which either handle has PRODUCER intake is exempt (DESIGN CHOICE, log entry
140). -/
def handlesClash (a b : Handle) : Bool :=
  let sameStore := a.place ≠ 2 && b.place ≠ 2 && (a.place == 0 || b.place == 0 || a.home == b.home)
  let shared := a.producer == 1 || b.producer == 1 || (a.producer == 2 && a == b)
  sameStore && !shared
    && (!apart a.base a.bytes b.base b.bytes || !apart a.tagBase a.slotCount b.tagBase b.slotCount)

/-! ### Windows (R263) -/

def winStores (h : Handle) : List Nat := if h.place = 0 then List.range 16 else [h.home]
def Job.windowIn (j : Job) (t : Nat) : Nat :=
  (j.windows.filter fun w => match j.handle? (bits w 7 0) with | some h => (winStores h).contains t | none => false).length
def checkWindowEntry (hs : List (Nat × Handle)) (i w : Nat) : Except Refused Unit := do
  need (bits w 15 8 == 0 && bits w 63 36 == 0) .badReserved 3 i
  let h := (hs.find? (·.1 = bits w 7 0)).map (·.2)
  need ((match h with | some h => h.place < 2 | none => false) && bits w 35 16 ≠ 0) .badHandle 3 i
/-- The windows fit: 32 a store, 8 of them held for Gale jobs. -/
def windowsFit (c : Ctl) (j : Job) : Bool :=
  (List.range 16).all fun t =>
    let all := (c.jobs.map fun k => k.windowIn t).sum + j.windowIn t
    let other := ((c.jobs.filter fun k => k.cls ≠ 0).map fun k => k.windowIn t).sum + (if j.cls = 0 then 0 else j.windowIn t)
    all ≤ 32 && other ≤ 24

/-! ### Command and stream lists (R114 to R116, R276 to R280) -/

/-- Records from the list's start to its first OP_END; none where a byte has no page or no OP_END is found. -/
def readList (m : Mem) (j : Job) (va : Nat) : Nat → Option (List Nat)
  | 0 => none
  | k + 1 =>
    match j.vaBytes m va 96 with
    | none => none
    | some bs => if leNat bs % 256 = 0 then some [leNat bs] else (readList m j (va + 96) k).map (leNat bs :: ·)

/-- Streams of a tile whose lifetime touches command `i` (R279). -/
def touching (cmds ss : List Nat) (t i : Nat) : Nat :=
  let isArr (k : Nat) : Bool := opKind (rOp (cmds.getD k 0)) == .array
  let nextArr := (List.range cmds.length).find? fun k => i < k && isArr k
  ss.countP fun s => tTile s == t &&
    ((tCmd s == i && tStart s ≤ 1) || (tStart s == 1 && some (tCmd s) == nextArr)
      || (tStart s == 2 && tCmd s + 1 == i) || (tStart s == 0 && tCmd s == i + 1))
def contextsFit (c : Ctl) (cmds ss : List Nat) : Bool :=
  (List.range 16).all fun t =>
    let frozen := c.sec.frozen.countP fun f => f.kind == 1 && f.tile == t
    (List.range cmds.length).all fun i => touching cmds ss t i + frozen ≤ 16

def checkStreamRecord (m : Mem) (j : Job) (i s : Nat) : Except Refused Unit := do
  let st := checkStream j.handle? (j.cmds.length - 1) s
  need (st == .ok) st 5 i
  need (inPages j.pages (fun p => !p.flash) (tDesc s) (tListBytes s)) .badDescriptor 5 i
  if tStrided s then
    let st := checkStrided (j.descOf m s)
    need (st == .ok) st 5 i

/-! ### Admission -/

/-- Frames for the pages with FLASH 0, taken in page order (R354). -/
def takeFrames (m : Mem) : List Page → Ctl → Option (List Page × Ctl)
  | [], c => some ([], c)
  | p :: ps, c =>
    if p.flash then (takeFrames m ps c).map fun q => (p :: q.1, q.2)
    else
      match makeFrame m p.bytes [] 256 c with
      | none => none
      | some (f, c) =>
        (takeFrames m ps (c.withStore fun s => { s with frames := s.frames ++ [(f, p.bytes)] })).map fun q =>
          ({ p with resident := true, frame := f } :: q.1, q.2)

/-- Make every flash page of a Gale job resident and pinned (R40, R357, R359): its page-in joins one that waits; `keep` are the
pages pinned so far, which make no room for the others; `dead` are stacks of which a channel stops responding. -/
def pinPages (m : Mem) (dead : List Nat) (keep : List (Nat × Bool)) : List Page → Ctl → Option Ctl
  | [], c => some c
  | p :: ps, c =>
    let me := (p.flashAddr, p.big)
    if !p.flash ∨ keep.contains me then pinPages m dead keep ps c
    else if c.store.residents.any fun r => r.flashAddr = p.flashAddr && r.big == p.big then
      pinPages m dead (me :: keep) ps (touchPage p.flashAddr p.big c)
    else if !c.installed p.flashAddr ∨ pieceLost m p.flashAddr p.bytes
        ∨ (if p.big then dead ≠ [] else dead.contains (flashPlace p.flashAddr).1) then none
    else
      let mine (q : PageIn) : Bool := q.flashAddr == p.flashAddr && q.big == p.big
      -- a frame that a page-in under way has taken serves it
      let frame := match c.store.pageIns.find? fun q => mine q && q.frame.isSome with
        | some q => q.frame.map fun f => (f, c)
        | none => makeFrame m p.bytes keep 256 c
      match frame with
      | none => none
      | some (f, c) =>
        let c := emit (pageWrites m p.flashAddr f p.bytes) (readFlash m p.flashAddr p.bytes c)
        let now := c.store.requests
        let c := c.withStore fun s => { s with requests := now + 1, pageIns := s.pageIns.filter fun q => !mine q }
        pinPages m dead (me :: keep) ps (becomeResident p.flashAddr p.big f now (touchHbm f (p.bytes / 32) (count .flsPageIn 0 1 c)))

/-- RESIDENT, PIN and FRAME of a job's flash pages, as firmware fills them when the job's frames have all been made (R353,
R355). -/
def markResident (c : Ctl) (pin : Bool) (ps : List Page) : List Page :=
  ps.map fun p =>
    if !p.flash then p
    else
      match c.store.residents.find? fun r => r.flashAddr = p.flashAddr && r.big == p.big with
      | some r => { p with resident := true, pin := pin, frame := r.frame }
      | none => p

/-- The lowest number that no admitted job holds (log entry 9). -/
def freeJobNo (c : Ctl) : Nat := ((List.range 65).find? fun i => !(c.jobs.any fun j => j.no = i + 1)).map (· + 1) |>.getD 1

/-- What the payload of Table 13.5 asks for. -/
structure Submit where
  bundleNo : Nat
  index : Nat
  cls : Nat
  mode : Nat
  trigger : Nat
  who : Peer
  /-- The lead admits the job on this member (14 R440). -/
  relayed : Bool
  /-- Programs and erases of each stack that its page-ins suspend (R357). -/
  suspends : Nat × Nat
  /-- Stacks of which a flash channel stops responding to its page-ins (R359). -/
  dead : List Nat
  deriving DecidableEq, Repr

/-- A handle that the description of a member gives in a bundle (R405, R440; every member holds the same bundles). -/
def memberHandle (m : Mem) (b : Bundle) (entry member h : Nat) : Option Handle :=
  let idx := bits entry (16 * (member % 4) + 15) (16 * (member % 4))
  if idx = 0xFFFF then none else
  let d := descOfNat (bundleNat m b (bundleNat m b 24 8 + 64 * idx) 64)
  ((List.range d.bufs).find? fun i => bundleNat m b (d.bufOff + 516 * i) 4 % 256 = h).map fun i =>
    handleOf (bundleNat m b (d.bufOff + 516 * i + 4) 32)
/-- Words of the source scale plane's slot of a reduce link (R444). -/
def linkScaleWords (m : Mem) (b : Bundle) (entry l : Nat) : Nat :=
  if bits l 39 32 ≠ 1 ∨ bits l 47 40 = 0xFF then 0
  else ((memberHandle m b entry (bits l 7 0) (bits l 47 40)).map fun h => h.tiles.length * (h.slotBytes / 32)).getD 0
/-- The two handles of a link suit each other: equal SLOT_BYTES, SLOT_COUNT and PLACE for a copy; for a reduction an accumulator
of PLACE 1 with an element for each of the source, which is binary32, or SP8, P6 or P4 with a scale plane (R441, R444). -/
def linkSuits (m : Mem) (b : Bundle) (entry l : Nat) : Bool :=
  match memberHandle m b entry (bits l 7 0) (bits l 23 16), memberHandle m b entry (bits l 15 8) (bits l 31 24) with
  | some s, some d =>
    if bits l 39 32 = 0 then s.slotBytes == d.slotBytes && s.slotCount == d.slotCount && s.place == d.place
    else
      let n := s.tiles.length * s.slotBytes
      let counts := if bits l 47 40 = 0xFF then [n / 4] else [n, n / 96 * 128, n / 64 * 128]
      d.place == 1 && counts.contains (d.slotBytes / 4)
  | _, _ => false

/-- The bundle of a JOB_SUBMIT, and the description it names on this member (R406, R440, R459, R461). -/
def findDesc (m : Mem) (c : Ctl) (s : Submit) : Except Refused (Bundle × Nat × List Nat × List Nat × List Bool) := do
  match c.store.bundles.find? fun b => b.no = s.bundleNo && b.kind = 0 with
  | none => throw { st := .noBundle, list := 0, index := 0, tag := 0 }
  | some b => do
    need (bit (keyUse (c.key b.signer)) 0 && bit (keyUse (c.key b.signer)) 2) .badSignature 0 0
    need (c.mayRun b.no) .notPermitted 0 0
    if s.index < 0x8000 then do
      need (s.index < bundleNat m b 32 2) .noBundle 0 0
      pure (b, s.index, [], [], [])
    else do
      let g := s.index - 0x8000
      need (g < bundleNat m b 48 2) .noBundle 0 0
      let e := bundleNat m b (bundleNat m b 40 8 + 32 * g) 32
      need (bits e 255 144 == 0) .badReserved 0 0
      let member := c.param 0x0E00
      let idx := bits e (16 * member + 15) (16 * member)
      need (c.group.formed && (s.relayed || c.group.lead == member)) .groupHeld 0 0
      -- 0xFFFF: this member has no part
      need (member < 4 && (idx == 0xFFFF || idx < bundleNat m b 32 2)) .noBundle 0 0
      let n := bits e 143 128
      let off := bits e 127 64
      need (n ≤ 256 && off + 16 * n ≤ b.size) .badDescriptor 0 0
      let ls := (List.range n).map fun i => bundleNat m b (off + 16 * i) 16
      pure (b, idx, ls, ls.map (linkScaleWords m b e), ls.map (linkSuits m b e))

/-- The links of a group job (Table 14.6, R441, R444, R465); handles that do not suit each other are refused as bad handles (log
entry 35). -/
def checkLinks (c : Ctl) (b : Bundle) (hs : List (Nat × Handle)) (member : Nat) (ls : List Nat) (suits : List Bool) : Except Refused Unit := do
  need (ls == [] || c.xwOut b.no) .notPermitted 0 0
  let get (h : Nat) : Option Handle := (hs.find? (·.1 = h)).map (·.2)
  needEach (fun i l => do
    let src := bits l 7 0
    let dst := bits l 15 8
    let mode := bits l 39 32
    need (bits l 55 49 == 0 && bits l 127 56 == 0) .badReserved 0 i
    need (src < 4 && dst < 4 && mode < 2 && (src ≠ dst || mode == 1) && (mode == 1 || bits l 47 40 == 0xFF)
      && (src ≠ member || (get (bits l 23 16)).isSome)
      && (dst ≠ member || (match get (bits l 31 24) with
          | some h => h.producer == 3 && (mode == 0 || h.place == 1)
          | none => false)) && suits.getD i true) .badHandle 0 i) 0 ls

/-- The limits of R407 leave room for a job of a class. -/
def jobRoom (c : Ctl) (cls : Nat) : Bool :=
  let held := c.jobs.filter fun k => !k.ended || c.frozenIn k.no
  held.length < 64 && (cls ≠ 0 || (held.filter fun k => k.cls = 0).length < 16)
/-- A job before its lists. -/
def blankJob (b : Bundle) (s : Submit) (links scales : List Nat) (c : Ctl) : Job :=
  { no := freeJobNo c, bundle := b.no, index := s.index, cls := s.cls, mode := s.mode, trigger := s.trigger,
    submitter := s.who, cmds := [], streams := [], pages := [], handles := [], windows := [], lists := [], running := none,
    waiting := none, runSeq := 0, lastStatus := 0, lastList := 4, lastIndex := 0, lastTag := 0, exec := Exec.start,
    saved := [], moved := c.clk.ns, quantumUsed := 0, ended := false, endReq := none, abortReq := none, endAtRun := 0, links := links,
    linkScales := scales }
/-- A group job on a member without a part: it has a number and its runs, and no list (Table 14.5). -/
def emptyPart (b : Bundle) (s : Submit) (links scales : List Nat) (suits : List Bool) (c : Ctl) : Except Refused (Job × Ctl) := do
  checkLinks c b [] (c.param 0x0E00) links suits
  need (s.cls < 3) .badValue 0 0
  need (jobRoom c s.cls) .noResource 0 0
  need (s.mode ≠ 0 || s.cls ≠ 0 || s.relayed || galeRoom c) .galeRate 0 0
  pure ({ blankJob b s links scales c with part := false }, c)

/-- Build and check a job: the checks of R406 in order. The answer is the job and the state with its frames, its presets and
its pinned pages. -/
def buildJob (m : Mem) (s : Submit) (c : Ctl) : Except Refused (Job × Ctl) := do
  let (b, idx, links, scales, suits) ← findDesc m c s
  let trigger := do
    need (if s.mode = 2 then s.trigger < 64 && s.cls == 0 && (s.relayed || (c.config s.trigger).gale) else s.mode < 2 && s.trigger == 0)
      .badValue 0 0
    need (s.mode ≠ 2 || s.relayed || !(c.intake s.trigger).frozen) .frozen 0 0
  if 0x8000 ≤ s.index ∧ idx = 0xFFFF then do
    trigger
    return ← emptyPart b s links scales suits c
  let d := descOfNat (bundleNat m b (bundleNat m b 24 8 + 64 * idx) 64)
  checkDesc b s.cls d
  trigger
  -- pages and presets
  let entries := (List.range d.pages).map fun i => bundleNat m b (d.pageOff + 16 * i) 16
  checkPages entries
  let ps := ((List.range d.pages).filter fun i => bit (entries.getD i 0) 0).map fun i => pageOf i (entries.getD i 0)
  -- frames of its pages, and those that its pinned flash pages would hold, each page once
  let own := ((ps.filter fun p => !p.flash).map Page.bytes).sum
  let pins := ((ps.filter fun p => p.flash && s.cls == 0 && !c.pinned p.flashAddr p.big).map fun p => (p.flashAddr, p.bytes)).eraseDups
  need (0x100000 * c.param 0x0B02 + own + (pins.map (·.2)).sum ≤ c.unallocated) .noResource 1 0
  let presets := (List.range d.pres).map fun i => bundleNat m b (d.preOff + 16 * i) 16
  needEach (checkPreset b ps) 0 presets
  let (ps, c) ← match takeFrames m ps c with
    | some q => pure q
    | none => throw { st := .noResource, list := 1, index := 0, tag := 0 }
  let ps := markResident c false ps
  let zero := (ps.filter fun p => !p.flash).flatMap fun p => m.zeroFill p.frame (p.frame + p.bytes)
  let j := { blankJob b s links scales c with pages := ps }
  let m1 := m.apply zero
  let copy := presets.flatMap fun e =>
    let (va, n, off) := presetOf e
    (List.range (cdiv (va % 32 + n) 32)).flatMap fun i =>
      let lo := max va (va / 32 * 32 + 32 * i)
      let hi := min (va + n) (va / 32 * 32 + 32 * i + 32)
      match j.page? lo with
      | some p => runWrite m1 (p.read lo) (bundleBytes m b (off + (lo - va)) (hi - lo)) 0 false
      | none => []
  let m2 := m1.apply copy
  -- buffers
  let bufs := (List.range d.bufs).map fun i =>
    (bundleNat m b (d.bufOff + 516 * i) 4, (List.range 16).map fun t => bundleNat m b (d.bufOff + 516 * i + 4 + 32 * t) 32)
  needEach (fun i q => checkBuffer c (s.cls == 0) ps ((bufs.take i).map fun x => x.1 % 256) i q.1 q.2) 0 bufs
  let hs := (bufs.filter fun q => bit (q.2.getD 0 0) 0).map fun q => (q.1 % 256, handleOf (q.2.getD 0 0))
  needEach (fun i q => need (!bit (q.2.getD 0 0) 0 || c.jobs.all fun k =>
    k.handles.all fun h => !handlesClash (handleOf (q.2.getD 0 0)) h.2) .noResource 2 i) 0 bufs
  -- windows
  let wins := (List.range d.wins).map fun i => bundleNat m b (d.winOff + 8 * i) 8
  needEach (checkWindowEntry hs) 0 wins
  let j := { j with handles := hs, windows := wins }
  if !windowsFit c j then
    throw { st := .noResource, list := 3, index := firstUnfit (fun k => windowsFit c { j with windows := wins.take k }) d.wins, tag := 0 }
  checkLinks c b hs (c.param 0x0E00) links suits
  -- commands
  need (d.cmdVa % 32 == 0) .badList 4 0
  let cmds ← match readList m2 j d.cmdVa 16384 with
    | some l => pure l
    | none => throw { st := .badList, list := 4, index := 0, tag := 0 }
  let (st, i, tag) := checkList j.handle? (s.cls == 0) cmds 0 none
  if st ≠ .ok then throw { st := st, list := 4, index := i, tag := tag }
  -- streams
  let ss ← match j.vaBytes m2 d.streamVa (32 * d.streams) with
    | some l => pure ((List.range d.streams).map fun i => leNat (slice l (32 * i) 32))
    | none => if d.streams = 0 then pure [] else throw { st := .badDescriptor, list := 5, index := 0, tag := 0 }
  let j := { j with cmds := cmds, streams := ss, lists := ss.map fun r => (tDesc r, tDesc r + tListBytes r - 1) }
  needEach (checkStreamRecord m2 j) 0 ss
  if !contextsFit c cmds ss then
    throw { st := .noResource, list := 5, index := firstUnfit (fun k => contextsFit c cmds (ss.take k)) d.streams, tag := 0 }
  -- limits
  need (jobRoom c s.cls) .noResource 0 0
  let c ← if s.cls = 0 then (match pinPages m s.dead [] ps c with
      | some c => pure (if pins = [] then c else noteSuspends 0 s.suspends.1 (noteSuspends 1 s.suspends.2 c))
      | none => throw { st := .noResource, list := 1, index := 0, tag := 0 })
    else pure c
  -- the rate of Gale starts (R419)
  need (s.mode ≠ 0 || s.cls ≠ 0 || s.relayed || galeRoom c) .galeRate 0 0
  -- the writes into its frames reach HBM (R343)
  let c := (ps.filter fun p => !p.flash).foldl (fun c p => touchHbm p.frame (p.bytes / 32) c) c
  let c := presets.foldl (fun c e =>
    let (va, n, _) := presetOf e
    (List.range (cdiv (va % 32 + n) 32)).foldl (fun c i => match j.page? (max va (va / 32 * 32 + 32 * i)) with
      | some p => touchHbm (p.read (va / 32 * 32 + 32 * i)) 1 c
      | none => c) c) c
  pure ({ j with pages := markResident c (s.cls == 0) ps }, emit (zero ++ copy) c)

/-- Spans of the flash that an admission reads: the bundle's header, the description it names and its lists, and for a job that
is admitted the data of its presets (R405, R406, R459; log entry 118). -/
def bundleSpans (m : Mem) (s : Submit) (c : Ctl) (admitted : Bool) : List (Nat × Nat) :=
  match c.store.bundles.find? fun b => b.no = s.bundleNo && b.kind = 0 with
  | none => []
  | some b =>
    let body := match findDesc m c s with
      | .error _ => []
      | .ok (_, idx, _) =>
        if idx = 0xFFFF then [] else
        let at' := bundleNat m b 24 8 + 64 * idx
        let d := descOfNat (bundleNat m b at' 64)
        let presets := if admitted then (List.range d.pres).map fun i =>
            let (_, n, off) := presetOf (bundleNat m b (d.preOff + 16 * i) 16)
            (off, n)
          else []
        [(at', 64), (d.pageOff, 16 * d.pages), (d.bufOff, 516 * d.bufs), (d.winOff, 8 * d.wins), (d.preOff, 16 * d.pres)] ++ presets
    (((0, 256) :: body).filter fun x => x.1 + x.2 ≤ b.size).map fun x => (b.base + x.1, x.2)
/-- What those reads raise. -/
def readBundle (m : Mem) (spans : List (Nat × Nat)) (c : Ctl) : Ctl := spans.foldl (fun c x => readFlash m x.1 x.2 c) c

/-- Put a job among the admitted, in ascending JOB_NO. -/
def insertJob (j : Job) : List Job → List Job
  | [] => [j]
  | k :: ks => if j.no < k.no then j :: k :: ks else k :: insertJob j ks

/-- A job is admitted: it is counted, and the run of MODE 0 starts (R406, R409). -/
def startJob (j : Job) (c : Ctl) : Ctl :=
  let c := count .svcAdmit j.cls 1 c
  if j.mode = 0 then beginRun j.no j.submitter c.clk.device c else c
/-- A built job is put among the jobs (R406). -/
def enterJob (j : Job) (c : Ctl) : Ctl := { c with jobs := insertJob j c.jobs }
/-- Admit a built job. -/
def admitJob (j : Job) (c : Ctl) : Ctl := startJob j (enterJob j c)

/-! ### Group jobs before every member has admitted them, and their end with the group (R440, R445) -/

/-- The admitted job of a number; a group job that waits for the other members is not yet one (R440). -/
def Ctl.admitted (c : Ctl) (no : Nat) : Option Job := (c.job? no).filter fun j => j.admitReq.isNone
/-- A group job is not admitted after all: it leaves no trace (R440). -/
def withdrawJob (no : Nat) (c : Ctl) : Ctl :=
  match c.job? no with
  | none => c
  | some j =>
    let c := dropLinks no (freeFrames j (endSlots j c))
    { c with jobs := c.jobs.filter fun k => k.no ≠ no }
/-- The lead refuses the admission that waits, as a member has: the refusal names the member in byte 7 of the detail, and the job is
admitted on none (R440). -/
def refuseAdmission (no member : Nat) (st : KS) (c : Ctl) : Ctl :=
  match (c.job? no).bind (·.admitReq) with
  | none => c
  | some r => answer r 0x10 st (List.replicate 7 0 ++ [byte member]) (withdrawJob no (relayConfig 0x91 no [] c))
/-- A member has admitted the group job: once every one has, the host hears of it and a run of MODE 0 starts (R440). -/
def memberAdmits (no member : Nat) (c : Ctl) : Ctl :=
  match c.job? no with
  | none => c
  | some j =>
    match j.admitReq with
    | none => c
    | some r =>
      let left := j.admitLeft.filter (· ≠ member)
      if left ≠ [] then c.mapJob no fun k => { k with admitLeft := left }
      else
        let j := { j with admitReq := none, admitLeft := [] }
        grantCredits (startJob j (answer r 0x10 .ok (toBe 2 no) (c.setJob j)))
/-- Every group job ends with KS_GROUP_HELD (R445). -/
def endGroupJobs (m : Mem) (c : Ctl) : Ctl :=
  c.jobs.foldl (fun c j =>
    if !j.grouped ∨ j.ended then c
    else if j.admitReq.isSome then refuseAdmission j.no c.member .groupHeld c
    else failJob m j.no .groupHeld c) c

end Sys2Proof.Machine
end

