-- ==== Sys2Proof/Machine/Intake.lean ====
section
/-! DEFINITION. Sensor intake: slots and frames, CSI-2 lines, Ethernet blocks, TDM blocks, the relay, disables and freezes
(12_intake.md). -/

namespace Sys2Proof.Machine

/-! ### Placement (R370, R372, R373, R374) -/

def Ctl.relay (c : Ctl) (n : Nat) : Nat := c.param (0x0C40 + n)
/-- Device address of part `t` of landing slot `s`. -/
def landBase (k : IntakeCfg) (relay t s : Nat) : Nat :=
  match k.land with
  | 0 => tileBase t + 32 * (k.base + s * k.slotWords)
  | 1 => tileBase k.home + 32 * (k.base + s * k.slotWords)
  | _ => cstBase + 32 * (k.base + (s * k.parts relay + t) * k.slotWords)
def landKeys (k : IntakeCfg) (s : Nat) : List Nat :=
  match k.land with
  | 0 => (List.range 16).map fun t => tagKey t (k.tagBase + s)
  | 1 => [tagKey k.home (k.tagBase + s)]
  | _ => [tagKey 16 (k.tagBase + s)]
/-- Device address of part `t` of relay slot `s` (Table 12.11). -/
def relayBase (k : IntakeCfg) (relay t s : Nat) : Nat :=
  tileBase (if bit relay 1 then bits relay 5 2 else t) + 32 * (bits relay 31 8 + s * k.slotWords)
def relayKeys (relay s : Nat) : List Nat :=
  if bit relay 1 then [tagKey (bits relay 5 2) (bits relay 47 32 + s)]
  else (List.range 16).map fun t => tagKey t (bits relay 47 32 + s)
/-- Row address of image line `y`. -/
def lineAddr (k : IntakeCfg) (relay s y : Nat) : Nat :=
  if k.parts relay = 16 then
    let t := y / max 1 k.lines
    landBase k relay t s + (k.topSkip + y - t * k.lines) * k.pitch
  else landBase k relay 0 s + (k.topSkip + y) * k.pitch
def IntakeCfg.tagFormat (k : IntakeCfg) : Nat := match k.fmt with | 1 => 5 | 3 => 6 | _ => 0
/-- Bytes of a block: the slot less its stamp word (R381). -/
def IntakeCfg.space (k : IntakeCfg) : Nat := 32 * (k.slotWords - b2n k.stamps)

/-! ### Writes of a frame or block (R390) -/

/-- The tags that a write to an address of slot `s` passes: that of the part it goes to (R250, R254). -/
def writeKeys (k : IntakeCfg) (s addr : Nat) : List Nat :=
  (landKeys k s).filter fun x => k.land ≠ 0 || storeOf addr = some (x / 8192)
/-- A write waits: its part of the slot is full, or the store copy of a substitution is under way (R390, R541). -/
def writeHeld (k : IntakeCfg) (s addr : Nat) (c : Ctl) : Bool := (writeKeys k s addr).any c.slotFull || c.copyHolds addr

/-- A write of the intake: it waits where a foreign set-full has filled its part of the slot, and behind an earlier write that
waits. -/
def intakeWrite (m : Mem) (n addr : Nat) (data : List Byte) (poison : Bool) (c : Ctl) : Ctl :=
  let k := c.cfg n
  let c := if poison then c.setIntake n { c.intake n with err := true } else c
  let x := c.intake n
  if x.blocked.isSome ∨ writeHeld k x.next addr c then
    c.setIntake n { x with blocked := some (x.blocked.getD c.us), parked := x.parked ++ [(addr, data, k.tagFormat, poison)] }
  else emitRun m addr data k.tagFormat poison c
/-- Writes that waited are made in order, up to the first that still waits: those that are left. -/
def makeWrites (m : Mem) (k : IntakeCfg) (s : Nat) :
    List (Nat × List Byte × Nat × Bool) → Ctl → List (Nat × List Byte × Nat × Bool) × Ctl
  | [], c => ([], c)
  | p :: ps, c =>
    if writeHeld k s p.1 c then (p :: ps, c) else makeWrites m k s ps (emitRun m p.1 p.2.1 p.2.2.1 p.2.2.2 c)

/-- Mark SHORT or LONG, counted once a frame. -/
def markShort (n : Nat) (c : Ctl) : Ctl :=
  if (c.intake n).short then c else count .intShort n 1 (c.setIntake n { c.intake n with short := true })
def markLong (n : Nat) (c : Ctl) : Ctl :=
  if (c.intake n).long then c else count .intLong n 1 (c.setIntake n { c.intake n with long := true })

/-- The frame in progress as it ends now: T_END is the time of the event that ends it (Table 12.3). -/
def frameOf (c : Ctl) (x : Intake) : Frame :=
  { slot := x.next, tStart := x.tStart, tEnd := c.clk.device, seq := x.seq, length := x.length, dropped := x.dropped,
    short := x.short, long := x.long, err := x.err, since := x.blocked.getD c.us, parked := x.parked }
/-- The stamp record (Table 12.3). -/
def stampRecord (unsync : Bool) (f : Frame) (forced : Bool) : List Byte :=
  toLe 8 f.tStart ++ toLe 8 f.tEnd ++ toLe 4 f.seq ++ toLe 4 f.length ++ toLe 2 f.dropped
    ++ [byte (b2n f.short + 2 * b2n f.long + 4 * b2n f.err + 8 * b2n unsync + 16 * b2n forced)]
    ++ List.replicate 5 0
/-- Where the stamp of slot `s` goes: the last word of the slot, in part 0 (R372). -/
def stampAddr (k : IntakeCfg) (relay s : Nat) : Nat := landBase k relay 0 s + 32 * (k.slotWords - 1)
def stampWrites (m : Mem) (n : Nat) (f : Frame) (forced : Bool) (c : Ctl) : List Wr :=
  let k := c.cfg n
  if k.stamps then
    runWrite m (stampAddr k (c.relay n) f.slot) (stampRecord c.proto.unsync f forced) k.tagFormat false
  else []

/-- Every write of a frame or block is made: its stamp, its tags, its count and its trigger follow (R371, R372, R375). -/
def setFrameFull (m : Mem) (n : Nat) (f : Frame) (forced : Bool) (c : Ctl) : Ctl :=
  let k := c.cfg n
  let c := emit (stampWrites m n f forced c) c
  let keys := landKeys k f.slot
  let c := if forced then count .tstSlotVoided 0 1 (setAll setVoided keys c) else setAll setFull keys c
  let c := count .intFrame n 1 c
  if k.land = 2 then c.setIntake n { c.intake n with landed := (c.intake n).landed ++ [(f.slot, f.tEnd)] }
  else if k.gale then galeTrigger n f.tEnd c else c

/-- The context turns to its next slot; a disable that waited for the frame's end takes effect (R369, R372, R388). -/
def nextFrame (n : Nat) (c : Ctl) : Ctl :=
  let k := c.cfg n
  let x := c.intake n
  c.setIntake n
    { x with busy := false, dropping := false, next := (x.next + 1) % max 1 k.slots, seq := (x.seq + 1) % 2 ^ 32, length := 0,
             dropped := if k.stamps then 0 else x.dropped, short := false, long := false, err := false, tail := [],
             parked := [], blocked := none, filled := 0, tStart := 0, on := x.on && !x.stopping,
             stopping := x.stopping && x.ended != [], layout := if x.ended = [] then none else x.layout }
/-- The frame or block in progress is over. -/
def closeFrame (m : Mem) (n : Nat) (forced : Bool) (c : Ctl) : Ctl :=
  nextFrame n (setFrameFull m n (frameOf c (c.intake n)) forced c)

/-- Rows that received no line are written with POISON at the end of a frame (R378). -/
def poisonRows (m : Mem) (n : Nat) (c : Ctl) : Ctl :=
  let k := c.cfg n
  let x := c.intake n
  (List.range (bits k.src 47 32 - x.length)).foldl (fun c i =>
    intakeWrite m n (lineAddr k (c.relay n) x.next (x.length + i)) (List.replicate k.pitch 0) true c) c

/-- The last word of a block is filled up with zero bytes (R381). -/
def flushTail (m : Mem) (n : Nat) (c : Ctl) : Ctl :=
  let x := c.intake n
  if x.tail = [] then c
  else intakeWrite m n (landBase (c.cfg n) (c.relay n) 0 x.next + (x.filled - x.tail.length)) (slice x.tail 0 32) false
    (c.setIntake n { x with tail := [] })

/-- The frame or block in progress ends in order; one whose writes, or whose stamp, wait for the slot is set full when they have
been made, and the next one begins meanwhile (R371, R390). -/
def endFrame (m : Mem) (n : Nat) (c : Ctl) : Ctl :=
  let k := c.cfg n
  let c := if n < 32 then
      if (c.intake n).length < bits k.src 47 32 then markShort n (poisonRows m n c) else c
    else flushTail m n c
  let x := c.intake n
  if x.blocked.isSome ∨ (k.stamps ∧ writeHeld k x.next (stampAddr k (c.relay n) x.next) c) then
    nextFrame n (c.setIntake n { x with ended := x.ended ++ [frameOf c x] })
  else closeFrame m n false c

/-- The frames and blocks that have ended and wait are ended by force, the oldest first. -/
def forceEnded (m : Mem) (n : Nat) (c : Ctl) : Ctl :=
  let fs := (c.intake n).ended
  fs.foldl (fun c f => setFrameFull m n f true c) (c.setIntake n { c.intake n with ended := [] })
/-- A forced end: the slots in progress are set full with VOIDED = 1 and stamped FORCED (R388, R390). -/
def forceEnd (m : Mem) (n : Nat) (c : Ctl) : Ctl :=
  let c := forceEnded m n c
  if (c.intake n).busy then closeFrame m n true c else c

/-- A frame or block begins: it takes the next slot, or is dropped (R369, R390). -/
def beginFrame (n : Nat) (c : Ctl) : Ctl :=
  let x := c.intake n
  let full := (landKeys (c.cfg n) x.next).any c.slotFull || x.ended.any fun f => f.slot == x.next
  if x.frozen ∨ full then
    count .intDrop n 1 (c.setIntake n { x with dropping := true, busy := false, length := 0, dropped := min (x.dropped + 1) 0xFFFF })
  else c.setIntake n { x with busy := true, dropping := false, length := 0, short := false, long := false, err := false,
                              tail := [], filled := 0, tStart := 0 }
/-- A block begins with bytes or samples that arrive now. -/
def beginBlock (n : Nat) (c : Ctl) : Ctl :=
  let x := c.intake n
  if x.busy ∨ x.dropping ∨ !x.on then c
  else
    let c := beginFrame n c
    c.setIntake n { c.intake n with tStart := c.clk.device }

/-- A dropped frame has ended; a disable that waited takes effect. -/
def endDropped (n : Nat) (c : Ctl) : Ctl :=
  let x := c.intake n
  c.setIntake n { x with dropping := false, length := 0, on := x.on && !x.stopping, stopping := x.stopping && x.ended != [],
                            layout := if x.ended = [] then none else x.layout }
/-- The block in progress, dropped or not, ends. -/
def endBlock (m : Mem) (n : Nat) (c : Ctl) : Ctl :=
  if (c.intake n).busy then endFrame m n c else if (c.intake n).dropping then endDropped n c else c

/-! ### Enable and disable (R369, R374, R388) -/

/-- ENABLE becomes 1: slot 0 is next, SEQ counts from 0, drops since the last stamp record are kept, and the scale slot is filled
and set full. A context whose stop has not yet taken effect goes on with the frame in progress (log entry 94). -/
def enableContext (m : Mem) (n : Nat) (c : Ctl) : Ctl :=
  let k := c.cfg n
  let x := c.intake n
  let c := c.setIntake n (if x.busy ∨ x.dropping then { x with on := true, stopping := false, held := false }
    else { Intake.off with on := true, frozen := x.frozen, ended := x.ended, landed := x.landed, dropped := x.dropped, layout := x.layout })
  if k.fmt = 0 ∧ k.scaleWords ≠ 0 then
    let bases := match k.land with
      | 0 => (List.range 16).map fun t => tileBase t + 32 * k.scaleBase
      | 1 => [tileBase k.home + 32 * k.scaleBase]
      | _ => [cstBase + 32 * k.scaleBase]
    let c := bases.foldl (fun c a => emitRun m a (List.replicate (32 * k.scaleWords) (byte k.scale)) 0 false c) c
    setAll setFull (landKeys k k.slots) c
  else c

/-- A normal disable: at once between frames, else when the frame in progress ends (R388). -/
def disableContext (n : Nat) (c : Ctl) : Ctl :=
  let x := c.intake n
  if x.busy ∨ x.dropping then c.setIntake n { x with stopping := true, stopAt := c.clk.ns } else c.setIntake n { x with on := false, stopping := false }

/-- Slots in progress: that of the frame in progress, and those of frames that have ended and wait. -/
def Intake.inProgress (x : Intake) : Nat := b2n x.busy + x.ended.length
/-- Landing slots that await their relay (R387). -/
def awaitRelay (c : Ctl) (n : Nat) : List Nat :=
  let k := c.cfg n
  if k.land = 2 then
    ((List.range k.slots).filter fun s => (landKeys k s).all c.slotFull && (c.intake n).ended.all fun f => f.slot != s)
  else []
/-- Slots that a forced disable voids (R388): the slots in progress, and the landing slots that await their relay. -/
def forcedSlots (c : Ctl) (n : Nat) : Nat := (c.intake n).inProgress + (awaitRelay c n).length
/-- The frame or block in progress ends by force, and its slots are counted (R388). -/
def forcedEnd (m : Mem) (n voided : Nat) (c : Ctl) : Ctl :=
  let c := count .intForcedSlot n voided (forceEnd m n c)
  c.setIntake n { c.intake n with on := false, stopping := false, dropping := false, layout := none }
def forcedDisable (m : Mem) (n : Nat) (c : Ctl) : Ctl :=
  let k := c.cfg n
  let voided := forcedSlots c n
  let c := (awaitRelay c n).foldl (fun c s => count .tstSlotVoided 0 1 (setAll setVoided (landKeys k s) c)) c
  forcedEnd m n voided c

/-- The scale slot is emptied by a change of its layout (R374). -/
def scaleFields (v : Nat) : Nat × Nat × Nat × Nat × Nat × Nat × Nat :=
  let k := intakeCfg v
  (k.base, k.slots, k.tagBase, k.scaleBase, k.scaleWords, k.scale, k.land)

/-! ### CSI-2 (R370 to R378) -/

/-- Contexts of a receiver that accept a virtual channel. -/
def csiContexts (c : Ctl) (h : CsiHeader) : List Nat :=
  ((List.range 4).map fun i => 4 * (h.receiver % 8) + i).filter fun n => (c.intake n).on && bits (c.cfg n).src 3 0 = h.vc
/-- The header check (Table 12.7). -/
def csiHeader (h : CsiHeader) (use : Ctl → Ctl) (c : Ctl) : Ctl :=
  let r := h.receiver % 8
  if c.pins.padHold ∨ (c.pins.portsOff ∧ !(List.range 4).any fun i => (c.intake (4 * r + i)).on) then c
  else if h.check = 0 then use c
  else if h.check = 1 then use (count .intHdrCorr r 1 c)
  else count .intHdrErr r 1 c

/-- A packet, datagram or frame sync arrives for a context (R378, R381, R385). -/
def hear (n : Nat) (c : Ctl) : Ctl := c.setIntake n { c.intake n with heard := c.clk.ns }

def frameStart (h : CsiHeader) (m : Mem) (c : Ctl) : Ctl :=
  csiHeader h (fun c =>
    let ns := csiContexts c h
    if ns = [] then count .intUnmatched (h.receiver % 8) 1 c
    else ns.foldl (fun c n =>
      let c := endBlock m n (if (c.intake n).busy then markShort n c else c)
      hear n (if (c.intake n).on then beginFrame n c else c)) c) c

/-- One component as an output element, and whether it was clamped (R377). -/
def csiElement (fmt depth shift p : Nat) : List Byte × Nat :=
  match fmt with
  | 0 =>
    let v := (Q.round ⟨p, 2 ^ shift⟩) - 128
    let w := max (-128) (min 127 v)
    ([BitVec.ofInt 8 w], if w = v then 0 else 1)
  | 1 => (toLe 2 (round16 ⟨p, 2 ^ depth⟩).1, 0)
  | _ => (toLe 2 p, 0)

def takeLine (n : Nat) (p : CsiLine) (m : Mem) (c : Ctl) : Ctl :=
  let k := c.cfg n
  let x := c.intake n
  let (chans, depth) := (csiType (bits k.src 9 4)).getD (1, 8)
  let width := bits k.src 31 16
  let c := if x.length = 0 then c.setIntake n { x with tStart := c.clk.device } else c
  if bits k.src 47 32 ≤ x.length then markLong n c
  else
    let whole := width * chans
    let got := p.components.take whole
    let present := got.length / chans   -- whole pixels
    let els := (got.take (present * chans)).map (csiElement k.fmt depth (bits k.src 13 10))
    let c := count .intClip n ((els.map (·.2)).sum) c
    let data := els.flatMap (·.1)
    let words := cdiv (whole * k.elem) 32
    let clean := if present < width then present * chans * k.elem / 32 else words
    let a := lineAddr k (c.relay n) x.next x.length
    let c := if !p.crcGood then intakeWrite m n a (slice data 0 (32 * words)) true c
      else
        let c := if clean = 0 then c else intakeWrite m n a (slice data 0 (32 * clean)) false c
        if clean < words then intakeWrite m n (a + 32 * clean) (slice data (32 * clean) (32 * (words - clean))) true c else c
    let c := if present < width then markShort n c else c
    let c := if whole < p.components.length then markLong n c else c
    c.setIntake n { c.intake n with length := x.length + 1 }

/-- A long packet, whose payload CRC and buffer overflow are counted whatever becomes of its line (Tables 12.4, 12.14). -/
def longPacket (h : CsiHeader) (p : CsiLine) (m : Mem) (c : Ctl) : Ctl :=
  csiHeader h (fun c =>
    let c := if p.crcGood then c else count .intCrc (h.receiver % 8) 1 c
    let c := if p.overflow then count .intOverflow (h.receiver % 8) 1 c else c
    let c := (csiContexts c h).foldl (fun c n => hear n c) c
    match (csiContexts c h).find? fun n => bits (c.cfg n).src 9 4 = h.dt with
    | none => count .intUnmatched (h.receiver % 8) 1 c
    | some n =>
      if (c.intake n).dropping then c
      else if !(c.intake n).busy then count .intOrphan (h.receiver % 8) 1 c
      else takeLine n p m c) c

def frameEnd (h : CsiHeader) (m : Mem) (c : Ctl) : Ctl :=
  csiHeader h (fun c =>
    let ns := csiContexts c h
    let live := ns.filter fun n => (c.intake n).busy || (c.intake n).dropping
    if ns = [] then count .intUnmatched (h.receiver % 8) 1 c
    else if live = [] then count .intOrphan (h.receiver % 8) 1 c
    else live.foldl (fun c n => endBlock m n c) c) c

/-! ### Blocks of bytes (R381, R384) -/

/-- Append bytes to the block in progress: whole words are written. What does not fit is discarded, and the block is LONG. -/
def appendBytes (m : Mem) (n : Nat) (bs : List Byte) (c : Ctl) : Ctl :=
  let k := c.cfg n
  let x := c.intake n
  if k.space < x.filled + bs.length then markLong n c
  else
    let all := x.tail ++ bs
    let whole := all.length / 32 * 32
    let c := c.setIntake n { x with tail := all.drop whole, filled := x.filled + bs.length }
    if whole = 0 then c
    else intakeWrite m n (landBase k (c.relay n) 0 x.next + (x.filled - x.tail.length)) (all.take whole) false c

/-- Fields of an Ethernet context's SOURCE (Table 12.8). -/
def ethMatches (c : Ctl) (f : EthFrame) (n : Nat) : Bool :=
  let s := (c.cfg n).src
  (c.intake n).on && bits s 0 0 == f.port % 2
    && (if bit s 2 then f.vlan == some (bits s 15 4) else f.vlan.isNone)
    && (if bit s 1 then f.etherType == bits s 31 16 else f.udp == some (bits s 31 16))

/-- A payload joins its block (R381). With END_EN 1 a block that is LONG discards payload up to its marker; with END_EN 0 a
payload that would not fit ends the block in progress and starts the next one, where one that exceeds the whole space is
discarded (log entry 93). -/
def takePayload (n : Nat) (f : EthFrame) (m : Mem) (c : Ctl) : Ctl :=
  let k := c.cfg n
  let s := k.src
  let data := f.payload.drop (bits s 39 32)
  let mark := bit s 3 && bit (f.payload.getD (bits s 47 40) 0).toNat (bits s 50 48)
  let put (c : Ctl) : Ctl :=
    let x := c.intake n
    if x.dropping then c.setIntake n { x with length := x.length + data.length }
    else if !x.busy ∨ (bit s 3 ∧ x.long) then c
    else
      let c := appendBytes m n data c
      c.setIntake n { c.intake n with length := (c.intake n).filled }
  let c := beginBlock n (hear n c)
  let c := if !bit s 3 ∧ k.space < (c.intake n).length + data.length ∧ (c.intake n).length ≠ 0 then
      beginBlock n (endBlock m n c) else c
  let c := put c
  if mark then endBlock m n c else c

def ethFrame (f : EthFrame) (m : Mem) (c : Ctl) : Ctl :=
  let p := f.port % 2
  let cfg := c.param (0x0C88 + p)
  if !bit cfg 48 ∨ c.pins.padHold
      ∨ (c.pins.portsOff ∧ !(List.range 16).any fun i => (c.intake (32 + i)).on && bits (c.cfg (32 + i)).src 0 0 = p) then c
  else if f.overflow then
    ((List.range 16).map (· + 32)).foldl (fun c n =>
      let x := c.intake n
      if x.busy ∧ bits (c.cfg n).src 0 0 = p then c.setIntake n { x with err := true } else c) (count .intOverflow (8 + p) 1 c)
  else if !f.goodChecks then count .intEthFcs p 1 c
  else if !(f.destination == bits cfg 47 0 || f.multicast || bit cfg 50) ∨ 9216 < f.bytes then c
  else if f.fragment then count .intUnmatched (8 + p) 1 c
  else
    match ((List.range 16).map (· + 32)).find? (ethMatches c f) with
    | none => count .intUnmatched (8 + p) 1 c
    | some n => takePayload n f m c

/-! ### TDM audio (R383 to R385) -/

def voidElement (fmt : Nat) : List Byte := if fmt = 3 then toLe 4 f32Void.toNat else toLe 2 (f32to16 f32Void).1
/-- One sample of `w` bits as an output element (R384). -/
def sampleElement (fmt w x : Nat) : List Byte :=
  let q : Q := ⟨signed w x, 2 ^ (w - 1)⟩
  if fmt = 3 then toLe 4 (round32 q).1.toNat else toLe 2 (round16 q).1

/-- The selected slots of one TDM frame as elements, in ascending slot number; `none` for a frame that is void. -/
def tdmElements (k : IntakeCfg) (slotBits dataBits : Nat) (samples : Option (List Nat)) : List Byte :=
  ((List.range 16).filter fun i => bit (bits k.src 19 4) i).flatMap fun i =>
    match samples with
    | some l => sampleElement k.fmt dataBits (l.getD i 0 % 2 ^ slotBits / 2 ^ (slotBits - dataBits))
    | none => voidElement k.fmt
/-- One TDM frame joins the block of a context; `none` for a frame cut short, which marks the block ERR (R385). -/
def takeTdm (n : Nat) (slotBits dataBits : Nat) (samples : Option (List Nat)) (m : Mem) (c : Ctl) : Ctl :=
  let k := c.cfg n
  let c := beginBlock n (hear n c)
  let c := if (c.intake n).busy then
      appendBytes m n (tdmElements k slotBits dataBits samples)
        (c.setIntake n { c.intake n with err := (c.intake n).err || samples.isNone })
    else c
  let c := c.setIntake n { c.intake n with length := (c.intake n).length + 1 }
  if (c.intake n).length < bits k.src 32 20 then c else endBlock m n c

def tdmIn (port bitCount : Nat) (samples : List Nat) (m : Mem) (c : Ctl) : Ctl :=
  let p := port % 4
  let cfg := c.param (0x0C8C + p)
  let ns := ((List.range 16).map (· + 48)).filter fun n => (c.intake n).on && bits (c.cfg n).src 1 0 = p
  if !bit cfg 9 ∨ c.pins.padHold ∨ (c.pins.portsOff ∧ ns = []) then c
  else
    let slotBits := 16 + 8 * bits cfg 3 2
    let dataBits := 16 + 8 * bits cfg 4 4
    let good := bitCount = 2 * 2 ^ bits cfg 1 0 * slotBits
    let c := if good then c else count .intTdmSync p 1 c
    ns.foldl (fun c n =>
      takeTdm n slotBits dataBits (if good then some samples else none) m c) c

/-- INT_FRAME_TIMEOUT passed (R378, R381, R385). The missing TDM frames are written void and not counted in LENGTH; an Ethernet
block with END_EN 0 has no such end. -/
def frameTimeout (n : Nat) (m : Mem) (c : Ctl) : Ctl :=
  if 64 ≤ n ∨ (32 ≤ n ∧ n < 48 ∧ !bit (c.cfg n).src 3) ∨ c.clk.ns < (c.intake n).heard + 1000000 * c.param 0x0C90 then c
  else
    let c := if (c.intake n).busy then
        let c := markShort n c
        if n < 48 then c
        else
          let missing := bits (c.cfg n).src 32 20 - (c.intake n).length
          (List.range missing).foldl (fun c _ => appendBytes m n (tdmElements (c.cfg n) 32 24 none) c) c
      else c
    endBlock m n c

/-! ### Relay (R387) -/

/-- The landing slot of a context that is relayed next: the oldest that is full. -/
def relayNext (c : Ctl) (n : Nat) : Option Nat :=
  let k := c.cfg n
  if k.land = 2 then ((List.range k.slots).map fun i => ((c.intake n).next + i) % max 1 k.slots).find? fun s => (awaitRelay c n).contains s
  else none
/-- A copy of the context could be made now. -/
def relayDue (c : Ctl) (n : Nat) : Bool :=
  match relayNext c n with | some s => !(relayKeys (c.relay n) s).any c.slotFull | none => false
/-- A Gale-triggered stream whose copy is due is served before the copy of another stream (R387). -/
def relayBehind (c : Ctl) (n : Nat) : Bool :=
  !(c.cfg n).gale && (List.range 64).any fun g => (c.cfg g).gale && relayDue c g

/-- Firmware copies the landing slot that is next into its relay slot (R387). -/
def relayStep (n : Nat) (m : Mem) (c : Ctl) : Ctl :=
  let k := c.cfg n
  let rl := c.relay n
  let x := c.intake n
  match relayNext c n with
  | none => c
  | some s =>
    if (List.range (k.parts rl)).any fun t => c.copyHolds (relayBase k rl t s) then c
    else if (relayKeys rl s).any c.slotFull then
      if x.relayWait then c else count .intRelayWait n 1 (c.setIntake n { x with relayWait := true })
    else if relayBehind c n then c
    else
      let voided := (landKeys k s).any c.slotVoided
      let ts := List.range (k.parts rl)
      let words := ts.flatMap fun t => (List.range k.slotWords).map fun i => (landBase k rl t s / 32 + i, relayBase k rl t s / 32 + i)
      let ws := words.flatMap fun w =>
        let r := m.readWord w.1
        wholeWord w.2 r.data (r.format + 8 * b2n (r.poison || voided))
      let c := emit ws (noteReads m (words.map (·.1)) c)
      let c := if voided then count .tstSlotVoided 0 1 (setAll setVoided (relayKeys rl s) c) else setAll setFull (relayKeys rl s) c
      let c := setAll setEmpty (landKeys k s) c
      let time := ((x.landed.find? fun p => p.1 = s).map (·.2)).getD c.clk.device
      let c := c.setIntake n { c.intake n with relayWait := false, landed := x.landed.filter fun p => p.1 ≠ s }
      if k.gale then galeTrigger n time c else c

/-! ### Blocked writes (R390) -/

/-- Nothing of a context is in progress. -/
def Intake.still (x : Intake) : Bool := !x.busy && !x.dropping && x.ended == []

/-- A part of a slot has been emptied: the writes that waited for it longest are made, and a frame that has ended is set full once all
of them and its stamp are. The wait of a write that is still refused counts from then on. -/
def intakeGranted (n : Nat) (m : Mem) (c : Ctl) : Ctl :=
  let x := c.intake n
  let k := c.cfg n
  match x.ended with
  | f :: rest =>
    let (left, c) := makeWrites m k f.slot f.parked c
    let since := if left.length < f.parked.length then c.us else f.since
    if left ≠ [] ∨ (k.stamps ∧ writeHeld k f.slot (stampAddr k (c.relay n) f.slot) c) then
      c.setIntake n { x with ended := { f with parked := left, since := since } :: rest }
    else
      let t := setFrameFull m n f false c
      let idle : Bool := rest == [] && !x.busy && !x.dropping
      t.setIntake n { t.intake n with ended := rest, stopping := x.stopping && rest != [], layout := if idle then none else x.layout }
  | [] =>
    if x.blocked.isNone then c
    else
      let (left, c) := makeWrites m k x.next x.parked c
      c.setIntake n { x with parked := left,
                             blocked := if left = [] then none else if left.length < x.parked.length then some c.us else x.blocked }

/-- The wait has passed its limit: the context is frozen, its slots in progress voided and stamped FORCED (R390). -/
def intakeStall (n : Nat) (m : Mem) (c : Ctl) : Ctl :=
  if (c.intake n).waitSince.isNone then c
  else
    let c := forceEnd m n (count .tstStall 0 1 c)
    freeze 5 .stallLimit 0 ((c.cfg n).home) n 0 0 (c.setIntake n { c.intake n with frozen := true, blocked := none, parked := [] })

/-- DISABLE_TIMEOUT: a normal disable whose frame has not ended 100 ms after the commit ends it as a forced disable does (R388). -/
def disableLate (n : Nat) (m : Mem) (c : Ctl) : Ctl :=
  let x := c.intake n
  if n < 64 ∧ x.stopping ∧ x.stopAt + 100000000 ≤ c.clk.ns then forcedEnd m n (c.intake n).inProgress c else c

/-! ### Meanings -/

/-- CSI2_FRAME_START. -/
def execCsi2FrameStart (h : CsiHeader) (s : State) : Host.Outcome State Fault Refusal := .next (s.run (frameStart h))
/-- CSI2_LONG_PACKET. -/
def execCsi2LongPacket (h : CsiHeader) (p : CsiLine) (s : State) : Host.Outcome State Fault Refusal := .next (s.run (longPacket h p))
/-- CSI2_FRAME_END. -/
def execCsi2FrameEnd (h : CsiHeader) (s : State) : Host.Outcome State Fault Refusal := .next (s.run (frameEnd h))
/-- INTAKE_FRAME_TIMEOUT. -/
def execIntakeFrameTimeout (n : Nat) (s : State) : Host.Outcome State Fault Refusal := .next (s.run (frameTimeout n))
/-- ETH_INTAKE_FRAME. -/
def execEthIntakeFrame (f : EthFrame) (s : State) : Host.Outcome State Fault Refusal := .next (s.run (ethFrame f))
/-- TDM_FRAME. -/
def execTdmFrame (port bitCount : Nat) (samples : List Nat) (s : State) : Host.Outcome State Fault Refusal :=
  .next (s.run (tdmIn port bitCount samples))
/-- RELAY_COPY. -/
def execRelayCopy (n : Nat) (s : State) : Host.Outcome State Fault Refusal := .next (s.run (relayStep n))
/-- DISABLE_TIMEOUT. -/
def execDisableTimeout (n : Nat) (s : State) : Host.Outcome State Fault Refusal := .next (s.run (disableLate n))

end Sys2Proof.Machine
end

