-- ==== Sys2Proof/Machine/Epoch.lean ====
section
/-! DEFINITION. Staging and committing configuration changes: holder waits, commit effects, deadlines, tightenings
(13 R413 to R417; 08 R268; 12 R367, R374, R388; 15 R461, R464, R465; 16 R493). -/

namespace Sys2Proof.Machine

/-! ### Holder waits (R268, R367, R417) -/

/-- A range changes sides of a boundary at its lower edge: it was inside or outside, and would no longer be. -/
def movesSide (lo hi old new : Nat) : Bool :=
  (old ≤ lo && !(new ≤ lo)) || (hi ≤ old && !(hi ≤ new))

/-- The layouts that an intake stream holds: the committed one of an enabled stream, and that of a frame in progress. -/
def heldCfgs (c : Ctl) (n : Nat) : List IntakeCfg :=
  (if (c.config n).enable then [c.config n] else []) ++ (if (c.intake n).on then [c.cfg n] else [])
/-- Some admitted job or intake stream holds a buffer or tag that new Gale boundaries would place on the other side (R268). -/
def boundaryHeld (c : Ctl) (get : Nat → Nat) : Bool :=
  let b (id top : Nat) : Nat × Nat := (top - c.param id, top - get id)
  let bytes := b 0x0802 tileBytes
  let tags := b 0x0803 8192
  let cst := b 0x0880 cstBytes
  c.jobs.any (fun j => j.handles.any fun h => h.2.place ≠ 2 &&
      (movesSide h.2.base (h.2.base + h.2.bytes) bytes.1 bytes.2
        || movesSide h.2.tagBase (h.2.tagBase + h.2.slotCount) tags.1 tags.2))
    || (List.range 64).any fun n => (heldCfgs c n).any fun k =>
          ((k.ranges (c.relay n)).any (fun r =>
              let e := if r.1 = 16 then cst else bytes
              movesSide (32 * r.2.1) (32 * (r.2.1 + r.2.2)) e.1 e.2)
            || (k.tags (c.relay n)).any fun t => t.1 ≠ 16 && movesSide t.2.1 (t.2.1 + t.2.2) tags.1 tags.2)

/-- An admitted job holds a handle that names the stream's present buffer (R367, R386). -/
def streamHeld (c : Ctl) (n : Nat) : Bool :=
  let shapes := streamBuffers c n
  c.jobs.any fun j => j.handles.any fun h => h.2.producer == 1 && shapes.contains h.2.shape

/-- Fields of INT_STREAM_n other than ENABLE, FORCE and GALE_TRIG. -/
def streamLayout (v : Nat) : Nat := v / 8
/-- The value `v` for common-store region `n` would leave outside it a landing slot or scale slot of an enabled stream that its
present value holds (R268, R270). -/
def regionHeld (c : Ctl) (n v : Nat) : Bool :=
  (List.range 64).any fun i => (heldCfgs c i).any fun k => k.land = 2 &&
      (k.ranges (c.relay i)).any fun r => r.1 = 16 && inRegion (c.param (0x0890 + n)) r && !inRegion v r

def entryReady (c : Ctl) (get : Nat → Nat) (id v : Nat) : Bool :=
  if id = 0x0802 ∨ id = 0x0803 ∨ id = 0x0880 then !boundaryHeld c get
  else if 0x0890 ≤ id ∧ id ≤ 0x089F then !regionHeld c (id - 0x0890) v
  else if 0x0C00 ≤ id ∧ id ≤ 0x0C3F then
    -- a disable commits while a frame goes on, which keeps the layout that it began with (R388, R413)
    streamLayout v = streamLayout (c.param id)
      || (!streamHeld c (id - 0x0C00) && (!bit v 0 || (c.intake (id - 0x0C00)).still))
  else if 0x0C40 ≤ id ∧ id ≤ 0x0C7F then
    v = c.param id || (!streamHeld c (id - 0x0C40) && (c.intake (id - 0x0C40)).still)
  else true

/-- Every condition of the change's owning chapter is met (R413). -/
def changeReady (c : Ctl) : Change → Bool
  | .params es =>
    let get (id : Nat) : Nat := match es.reverse.find? (·.1 = id) with | some p => p.2 | none => c.param id
    -- a value that fits only with a change that was dropped meanwhile never commits (R309; log entry 131)
    es.all fun e => paramInRange get e.1 e.2 && entryReady c get e.1 e.2
  | .bundleRemove no => !c.jobs.any fun j => j.bundle = no
  | _ => true

/-! ### What a commit of a bundle does -/

/-- Erase-block keys of a bundle's aperture range, parity channels included: 128 MiB of aperture to a block of each channel
(log entry 16). -/
def bundleBlocks (base size : Nat) : List Nat :=
  let p0 := (base - flashBase) / 0x8000000
  (List.range (cdiv size 0x8000000)).flatMap fun i => (List.range 34).map fun ch => ch * 4096 + p0 + i
/-- Ranges of the aperture that bundles, transfers or removed bundles hold. -/
def heldRanges (c : Ctl) : List (Nat × Nat) :=
  ((c.store.bundles.filter fun b => b.kind = 0).map fun b => (b.base, b.size))
    ++ (c.store.transfers.filter fun t => t.kind = 0).map (fun t => (t.base, t.size)) ++ c.store.removed
/-- Places that they hold. -/
def heldPlaces (c : Ctl) : List Nat := (heldRanges c).flatMap fun r => bundleBlocks r.1 r.2
/-- An erase block is neither retired nor waiting for its erasure. -/
def blockErased (c : Ctl) (k : Nat) : Bool :=
  !c.store.badBlocks.contains k && !c.store.toErase.contains k && !c.store.eraseAtWake.contains k
/-- The place that an erase block serves; a block of the spare pool serves none (R349, R362). -/
def placeOf (c : Ctl) (key : Nat) : Option Nat :=
  match c.store.blockMap.find? fun p => p.2 = key with
  | some p => some p.1
  | none => if key % 4096 < 2048 ∧ c.blockOf key = key then some key else none
/-- The candidate of least erase count, the first of those that share it (R362). -/
def leastWorn (c : Ctl) (l : List Nat) : Option Nat :=
  let wear (k : Nat) : Nat := SMap.get 0 c.store.wear k
  match least (l.map wear) with
  | some n => l.find? fun k => wear k = n
  | none => none
/-- An erased block of a channel's spare pool: of its 2,294 blocks, one that serves no place (R350, R362). -/
def sparePool (c : Ctl) (ch : Nat) : Option Nat :=
  leastWorn c (((List.range 2294).map (ch * 4096 + ·)).filter fun k => (placeOf c k).isNone && blockErased c k)
/-- Places of a channel that nothing holds and whose blocks are erased. -/
def freePlaces (c : Ctl) (ch : Nat) : List Nat :=
  let held := heldPlaces c
  ((List.range 2048).map (ch * 4096 + ·)).filter fun k => !held.contains k && blockErased c (c.blockOf k)
/-- Erased blocks of a channel that a bundle can take (R360): of its 2,048 places, those not held whose blocks are erased. -/
def erasedBlocks (c : Ctl) (ch : Nat) : Nat :=
  let mine (k : Nat) : Bool := k / 4096 == ch
  let held := ((heldPlaces c).filter mine).eraseDups
  let dirty := (((c.store.badBlocks ++ c.store.toErase ++ c.store.eraseAtWake).filter mine).filterMap (placeOf c)).eraseDups
  2048 - held.length - (dirty.filter fun p => !held.contains p).length
/-- Place `p` is given an erased block of least erase count of its channel that no place of `mine`, those of its own bundle, has been
given; the place that had it takes `p`'s block (R360, R362). -/
def takeBlock (mine : List Nat) (c : Ctl) (p : Nat) : Ctl :=
  let own := c.blockOf p
  if blockErased c own ∧ SMap.get 0 c.store.wear own = 0 then c
  else
    match leastWorn c (((freePlaces c (p / 4096)).filter fun q => !mine.contains q || p < q).map c.blockOf) with
    | none => c
    | some b =>
      if blockErased c own ∧ SMap.get 0 c.store.wear own ≤ SMap.get 0 c.store.wear b then c
      else
        match placeOf c b with
        | none => c
        | some q => c.withStore fun s => { s with blockMap := SMap.put q (SMap.put p s.blockMap p b) q own }

/-- An install leaves no trace: its blocks return to erasure at the next wake (R361). -/
def dropInstall (base size : Nat) (c : Ctl) : Ctl :=
  c.withStore fun s => { s with eraseAtWake := (s.eraseAtWake ++ (bundleBlocks base size).map c.blockOf).eraseDups }
/-- A bundle's range is given up: its pages stay until no job names them, and its blocks are erased in the background (R361). -/
def releaseFlash (base size : Nat) (c : Ctl) : Ctl :=
  c.withStore fun s =>
    { s with removed := s.removed ++ [(base, size)], toErase := (s.toErase ++ (bundleBlocks base size).map c.blockOf).eraseDups }
/-- At a wake the blocks of dropped installs return to erasure (R361). -/
def erasureAtWake (c : Ctl) : Ctl :=
  c.withStore fun s => { s with toErase := (s.toErase ++ s.eraseAtWake).eraseDups, eraseAtWake := [] }

/-- A staged change is forgotten, its bundle with it: nothing has changed (R361, R413). -/
def forgetChange (s : Staged) (c : Ctl) : Ctl :=
  let c := c.withProto fun p => { p with staged := p.staged.filter fun x => x ≠ s }
  match s.change with
  | .bundleCommit no =>
    let t := c.store.transfers.find? fun t => t.no = no
    let c := match t with | some t => (if t.kind = 0 then dropInstall t.base t.size c else c) | none => c
    c.withStore fun st => { st with transfers := st.transfers.filter fun t => t.no ≠ no }
  | _ => c

/-! ### Group changes (R438; log entries 25 and 36) -/

/-- A member in service that follows its lead. -/
def Ctl.follows (c : Ctl) : Bool := c.group.formed && !c.isLead && c.group.state.getD c.member 0xFF == 0
/-- What members said of a change of the group is over. -/
def Group.forget (g : Group) (number : Nat) : Group := { g with agreed := g.agreed.filter fun x => x.2 ≠ number }
/-- The changes that a lead relayed go with it. -/
def dropRelayed (c : Ctl) : Ctl :=
  (c.proto.staged.filter fun s => s.grouped && s.req.isNone).foldl (fun c s => forgetChange s c) (c.withGroup fun g => { g with go := 0, agreed := [] })
/-- This member leaves its group (R437, R438, R445). -/
def leave (m : Mem) (c : Ctl) : Ctl :=
  dropRelayed ((endGroupJobs m c).withGroup fun g => { g with formed := false, lead := 0xFF, state := g.state.map fun _ => 0xFF })

/-- A member tells its lead, once, that it can commit the change (R438). -/
def sayReady (s : Staged) (c : Ctl) : Ctl :=
  if SMap.get 0 c.group.agreed c.member = s.number then c
  else sendConfig c.group.lead c.group.epoch 0x92 0 [] (c.withGroup fun g => { g with agreed := SMap.put 0 g.agreed c.member s.number }) s.number
/-- Every other member in service has said that it can commit the change. -/
def allAgree (s : Staged) (c : Ctl) : Bool := c.peersUp.all fun k => SMap.get 0 c.group.agreed k == s.number

/-! ### What a commit of parameters does -/

/-- A forced disable of the context finds something to end: it is enabled, or a normal disable still waits for its frame (R388). -/
def forcible (c : Ctl) (n : Nat) : Bool := bit (c.param (0x0C00 + n)) 0 || (c.intake n).stopping
/-- Commit one parameter. The intake's enables and disables follow (R369, R374, R388); PWR_OP begins a change of operating
point (R493), except in Lee mode (R511). A governor parameter reaches running work at the next window (R417). -/
def applyParam (m : Mem) (id v : Nat) (c : Ctl) : Ctl :=
  if 0x0C00 ≤ id ∧ id ≤ 0x0C3F then
    let n := id - 0x0C00
    let old := c.param id
    let o := intakeCfg old
    let k := intakeCfg v
    let c := if o.scaleWords ≠ 0 ∧ scaleFields old ≠ scaleFields v then setAll setEmpty (landKeys o o.slots) c else c
    let c :=
      if !k.enable ∧ k.force ∧ forcible c n then forcedDisable m n c
      else if o.enable ∧ !k.enable then disableContext n c else c
    -- a frame in progress goes on under the layout of its start
    let c := if (c.intake n).still ∨ streamLayout v = streamLayout old then c
      else c.setIntake n { c.intake n with layout := (c.intake n).layout.orElse fun _ => some old }
    let c := c.setParam id v
    if !o.enable ∧ k.enable then enableContext m n c else c
  else
    let old := c.param id
    let c := (holdGov id c).setParam id v
    if id = 0x1001 then
      if c.service.lee then c
      else
        -- a throttled device keeps its point where that is the slower one (R494)
        let t := if c.power.throttle = 0 then v else max v (c.power.opNext.getD c.power.opNow)
        c.withPower fun p => { p with throttle := if p.throttle = 0 then 0 else t - v, opNext := if t = p.opNow then none else some t }
    -- a part that gives up its number leaves its group (R436; log entry 134)
    else if id = 0x0E00 then (if v = old ∨ (!c.group.formed ∧ c.group.lead = 0xFF) then c else leave m (c.setParam id old) |>.setParam id v)
    else if id = 0x0D06 then c.withProto fun p => { p with slavePort := slaveOf v p.linkUp }
    else c
def applyParams (m : Mem) (es : List (Nat × Nat)) (c : Ctl) : Ctl := es.foldl (fun c e => applyParam m e.1 e.2 c) c

/-- Slots that each INT_STREAM entry of a write voids, for the reply (R388, R414). -/
def voidCounts (c : Ctl) (es : List (Nat × Nat)) : List Byte :=
  (es.filter fun e => 0x0C00 ≤ e.1 && e.1 ≤ 0x0C3F).flatMap fun e =>
    toBe 4 (if !bit e.2 0 ∧ bit e.2 1 ∧ forcible c (e.1 - 0x0C00) then forcedSlots c (e.1 - 0x0C00) else 0)

/-- Numbers of the firmware bundles that hold an image slot. -/
def Ctl.imagesIn (c : Ctl) (slot : Nat) : List Nat := (c.sec.images.filter fun p => p.2 = slot).map (·.1)
/-- A transfer's bundle is committed: a model bundle is listed; a firmware image takes the inactive slot, whose earlier image
is no more, and is marked next (R458). -/
def commitBundle (no : Nat) (c : Ctl) : Ctl :=
  match c.store.transfers.find? fun t => t.no = no with
  | none => c
  | some t =>
    let b : Bundle :=
      { no := t.no, kind := t.kind, size := t.size, digest := t.digest, base := t.base, signer := t.signer, damaged := false }
    let slot := 1 - c.sec.bootSlot
    let gone := if t.kind = 1 then c.imagesIn slot else []
    let c := c.withStore fun s =>
      { s with bundles := (s.bundles.filter fun x => !gone.contains x.no) ++ [b], transfers := s.transfers.filter fun x => x.no ≠ no }
    if t.kind = 1 then
      c.withSec fun s => { s with nextSlot := some slot, images := (s.images.filter fun p => p.2 ≠ slot) ++ [(no, slot)],
                                  slotDigest := s.slotDigest.set slot t.digest, slotSvn := s.slotSvn.set slot t.svn,
                                  slotImage := s.slotImage.set slot t.data }
    else c
/-- A bundle is removed; the slot of a firmware image stays as it is (log entry 125). -/
def removeBundle (no : Nat) (c : Ctl) : Ctl :=
  match c.store.bundles.find? fun b => b.no = no with
  | none => c
  | some b =>
    let c := if b.kind = 0 then releaseFlash b.base b.size c else c
    let c := c.withSec fun s => { s with images := s.images.filter fun p => p.1 ≠ no }
    c.withStore fun s => { s with bundles := s.bundles.filter fun x => x.no ≠ no }

/-- Standing jobs whose bundle may no longer run: they end at their next run boundary, at once between runs (R461, R465). -/
def endBarred (m : Mem) (c : Ctl) : Ctl :=
  c.jobs.foldl (fun c j =>
    let signer := ((c.store.bundles.find? fun b => b.no = j.bundle).map (·.signer)).getD 16
    let use := keyUse (c.key signer)
    if j.ended ∨ j.mode = 0 ∨ (c.mayRun j.bundle ∧ bit use 0 ∧ bit use 2) then c
    else if j.running.isNone then endJob m j.no .notPermitted 4 j.lastIndex j.lastTag c
    else c.mapJob j.no fun k => { k with endAtRun := KS.notPermitted.code }) c

/-- Write a protection table entry (Table 15.5); COUNTER of a key slot is kept by the device. -/
def setProtect (m : Mem) (table index : Nat) (e : List Byte) (c : Ctl) : Ctl :=
  let c := c.withSec fun s =>
    match table with
    | 0 => { s with keys := s.keys.set index (setKeyCounter (keyCounter (s.keys.getD index [])) e) }
    | 1 => { s with rights := s.rights.set index ((e.getD 0 0).toNat) }
    | 2 => { s with peers := s.peers.set index e }
    | 3 => { s with policy := s.policy.set index e }
    | _ => { s with linkKeys := s.linkKeys.set index e }
  endBarred m c

/-- MKA restarts on a port after a commit of its CAK: no association until it agrees one (R465). -/
def restartMka (port : Nat) (c : Ctl) : Ctl :=
  let c := c.withProto fun p => { p with sa := p.sa.set port false }
  c.withPower fun p => { p with mkaRestart := (p.mkaRestart ++ [port]).eraseDups }

/-- An epoch boundary: PRO_EPOCH rises, the journal gains its entry, an event tells of it (R412, R413, R474). -/
def boundary (kind : Nat) (role keySlot reqId : Nat) (payload : List Byte) (c : Ctl) : Ctl :=
  let c := c.withProto fun p => { p with epoch := p.epoch + 1 }
  let c := count .svcCommit 0 1 (journal kind role keySlot reqId payload c)
  event 6 0 0 0 0 0 [] [] c

def replyKind : Change → Nat
  | .params _ => 0x03
  | .bundleCommit _ => 0x32
  | .bundleRemove _ => 0x33
  | .protect .. => 0x38
def journalKind (c : Ctl) : Change → Nat
  | .params _ => 1
  | .bundleCommit no => if (c.store.transfers.any fun t => t.no = no && t.kind == 1) then 9 else 2
  | .bundleRemove _ => 3
  | .protect .. => 5
def applyChange (m : Mem) (ch : Change) (c : Ctl) : Ctl :=
  match ch with
  | .params es => applyParams m es c
  | .bundleCommit no => commitBundle no c
  | .bundleRemove no => removeBundle no c
  | .protect t i e => setProtect m t i e c
/-- A change of the group raises its epoch and is kept among the last 256 (R438). -/
def raiseGroup (ch : Change) (c : Ctl) : Ctl :=
  c.withGroup fun g => { g with epoch := g.epoch + 1, changes := (g.changes ++ [(g.epoch + 1, ch)]).drop (g.changes.length + 1 - 256) }
/-- Payload of the reply to a change: FAIL_INDEX and the voided counts, KIND and the epoch, or the epoch. -/
def changeReply (before after : Ctl) (ok : Bool) : Change → List Byte
  | .params es => [0xFF, 0, 0, 0] ++ (if ok then voidCounts before es else [])
  | .protect .. => [1, 0, 0, 0] ++ toBe 8 after.proto.epoch
  | _ => toBe 8 after.proto.epoch

/-- Commit a staged change whole (R413, R415). -/
def commitChange (m : Mem) (s : Staged) (c : Ctl) : Ctl :=
  let before := c
  let jk := if s.grouped then 11 else journalKind c s.change
  let c := applyChange m s.change c
  let c := if s.grouped then raiseGroup s.change c else c
  let c := match s.req with
    | some r => boundary jk r.role r.keySlot r.reqId r.payload c
    | none => boundary jk 1 0xFF 0 s.payload c
  let c := match s.req with
    | some r => answer r (replyKind s.change) .ok (changeReply before c true s.change) c
    | none => c
  match s.change with
  | .protect 4 i _ => if i < 2 then restartMka i c else c
  | _ => c

/-- Control-domain time of a staged change's deadline, ns (R413). -/
def Staged.due (s : Staged) : Nat := s.at' + 1000000 * s.deadline
/-- The change has a deadline here: that of one a lead relayed runs at the lead (R438). -/
def Ctl.timed (c : Ctl) (s : Staged) : Bool := !(s.grouped && s.req.isNone && c.follows)
/-- A change commits when its conditions hold. A change of the group commits when every member's do: a member says so and waits for its
lead, which waits for all and then tells them (R438). -/
def commitReady (m : Mem) (s : Staged) (c : Ctl) : Ctl :=
  let c' := c.withProto fun p => { p with staged := p.staged.filter fun x => x ≠ s }
  if !s.grouped ∨ !c.group.formed then commitChange m s c'
  else if c.follows then (if c.group.go = s.number then commitChange m s (c'.withGroup fun g => { g with go := 0 }) else sayReady s c)
  else if !c.isLead then commitChange m s c'
  else if allAgree s c then
    relayConfigAt c.group.epoch 0x93 s.number (commitChange m s (c'.withGroup fun g => g.forget s.number))
  else c
/-- The first staged change commits when its conditions hold, before its deadline; changes commit in staging order (R413). A change
kept through SLEEP commits, or is dropped, once commands are accepted again: no reply is built in SLEEP (R479; log entry 130). -/
def commitFront (m : Mem) (c : Ctl) : Ctl :=
  match c.proto.staged with
  | [] => c
  | s :: _ =>
    -- with no journal entry free, a commit waits for one (R474, R475)
    if c.accepting ∧ c.sec.journal.length < journalSize ∧ changeReady c s.change ∧ (c.clk.ns ≤ s.due ∨ !c.timed s) then commitReady m s c
    else c

/-- Drop a staged change whole: nothing has changed, KS_NOT_APPLIED (R413, R464). -/
def dropStaged (s : Staged) (c : Ctl) : Ctl :=
  let c := forgetChange s c
  -- no member has changed (R438)
  let c := if s.grouped ∧ c.isLead then relayConfig 0x94 0 [] (c.withGroup fun g => g.forget s.number) s.number else c
  match s.req with
  | some r => answer r (replyKind s.change) .notApplied (changeReply c c false s.change) c
  | none => c
/-- A staged change is dropped at its deadline, which is counted (R413, Table 13.9). -/
def dropChange (s : Staged) (c : Ctl) : Ctl := dropStaged s (count .svcNotApplied 0 1 c)

/-- The deadline that comes next passes (R413). -/
def deadlinePassed (c : Ctl) : Ctl :=
  let l := c.proto.staged.filter c.timed
  match l.find? fun s => l.all fun x => s.due ≤ x.due with
  | some s => if c.accepting ∧ s.due ≤ c.clk.ns then dropChange s c else c
  | none => c

/-- Stage an accepted change, of this part or of its group (R413, R438). -/
def stage (grouped : Bool) (ch : Change) (r : Req) (c : Ctl) : Ctl :=
  let d := if r.deadline = 0 then c.param 0x0D01 else r.deadline
  let n := if grouped then c.group.changeNo + 1 else 0
  let c := if grouped then c.withGroup fun g => { g with changeNo := n } else c
  c.withProto fun p =>
    { p with staged := p.staged ++ [{ change := ch, grouped := grouped, req := some r, at' := c.clk.ns, deadline := d, number := n }] }
/-- Stage a change that the lead relayed under its number, with the request's payload: no request waits for it (R438). -/
def stageRelayed (number : Nat) (payload : List Byte) (ch : Change) (c : Ctl) : Ctl :=
  c.withProto fun p =>
    { p with staged := p.staged ++ [{ change := ch, grouped := true, req := none, at' := c.clk.ns, deadline := c.param 0x0D01,
                                      number := number, payload := payload }] }

/-- A tightening takes effect as it is accepted, ahead of staged changes; staged loosenings of its entry are dropped
(R416, R464). -/
def tighten (m : Mem) (table index : Nat) (e : List Byte) (r : Req) (c : Ctl) : Ctl :=
  let old := c.sec
  let c := setProtect m table index e c
  let changed : Bool := c.sec.keys != old.keys || c.sec.rights != old.rights || c.sec.peers != old.peers || c.sec.policy != old.policy
  let c := boundary 4 r.role r.keySlot r.reqId r.payload c
  let c := answer r 0x38 .ok ([0, 0, 0, 0] ++ toBe 8 c.proto.epoch) c
  (c.proto.staged.filter fun s => changed && match s.change with | .protect t i _ => t = table && i = index | _ => false).foldl
    (fun c s => dropStaged s c) c

/-! ### Meanings -/

/-- Commit the first staged change when it holds an entry that `has` picks. -/
def commitIf (has : Ctl → Nat → Nat → Bool) (m : Mem) (c : Ctl) : Ctl :=
  match c.proto.staged with
  | [] => c
  | s :: _ =>
    (match s.change with
      | .params es => if es.any fun e => has c e.1 e.2 then commitFront m c else c
      | _ => c)

/-- EPOCH_COMMIT (R413). -/
def execEpochCommit (s : State) : Host.Outcome State Fault Refusal := .next (s.run commitFront)
/-- COMMIT_DEADLINE (R413). -/
def execCommitDeadline (s : State) : Host.Outcome State Fault Refusal := .next (s.run fun _ c => deadlinePassed c)
/-- STREAM_ENABLE: the commit of the change that sets ENABLE of a context (R369, R374). -/
def execStreamEnable (n : Nat) (s : State) : Host.Outcome State Fault Refusal :=
  .next (s.run (commitIf fun c id v => id == 0x0C00 + n && n < 64 && bit v 0 && !bit (c.param id) 0))
/-- STREAM_DISABLE: the commit of the change that clears ENABLE without FORCE (R388). -/
def execStreamDisable (n : Nat) (s : State) : Host.Outcome State Fault Refusal :=
  .next (s.run (commitIf fun c id v => id == 0x0C00 + n && n < 64 && !bit v 0 && !bit v 1 && bit (c.param id) 0))
/-- STREAM_FORCED_DISABLE: the commit of the change that clears ENABLE with FORCE (R388). -/
def execStreamForcedDisable (n : Nat) (s : State) : Host.Outcome State Fault Refusal :=
  .next (s.run (commitIf fun c id v => id == 0x0C00 + n && n < 64 && !bit v 0 && bit v 1 && forcible c n))
/-- OPERATING_POINT_CHANGE: the commit of a write of PWR_OP (R493). -/
def execOperatingPointChange (s : State) : Host.Outcome State Fault Refusal :=
  .next (s.run (commitIf fun _ id _ => id == 0x1001))

end Sys2Proof.Machine
end

