-- ==== Sys2Proof/Machine/Lee.lean ====
section
/-! DEFINITION. Lee mode: its causes, entry and leaving (17_service_life.md R505 to R512). -/

namespace Sys2Proof.Machine

/-- Causes that mark a hardware fault: bits 2, 3 and 5 (Table 17.4). -/
def hardwareCauses (v : Nat) : Bool := bit v 2 || bit v 3 || bit v 5

/-- FAULT_N and LEE_N, unless pad hold keeps them (R492, R505). -/
def balls (c : Ctl) : Ctl :=
  if c.pins.padHold then c
  else c.withPins fun p =>
    { p with faultN := !(hardwareCauses c.service.leeCause || c.service.bootFault), leeN := !c.service.lee }

/-- A run ends and its job stays (R507). -/
def endRun (m : Mem) (no : Nat) (st : KS) (c : Ctl) : Ctl :=
  match c.job? no with
  | none => c
  | some j =>
    if j.running.isNone then c
    else
      let waits : Bool := c.plane.holder == some no && c.plane.waitFull.isSome
      let c := if j.exec.incomplete ≠ [] ∨ waits then count .plnCmdFault j.cls 1 c else c
      let c := leavePlane m j j.exec.pc c
      let c := deliverAll no c.xfers.length (m.apply c.wq) c
      let c := saveStreams no (voidParts m no c)
      let c := c.mapJob no fun k =>
        { k with running := promoted c k, waiting := none, exec := k.exec.afresh, saved := [], quantumUsed := 0, moved := c.clk.ns,
                 lastStatus := st.code, lastList := 4, lastIndex := j.exec.pc, lastTag := rTag (j.cmds.getD j.exec.pc 0) }
      if j.abortReq.isSome then endJob m no .aborted 4 j.exec.pc (rTag (j.cmds.getD j.exec.pc 0)) c
      else if j.endReq.isSome then endJob m no .ok 4 j.exec.pc (rTag (j.cmds.getD j.exec.pc 0)) c
      else if j.endAtRun ≠ 0 then endJob m no j.endStatus 4 j.exec.pc (rTag (j.cmds.getD j.exec.pc 0)) c
      else c

/-- A job is kept in Lee mode: a VALID entry of SVC_LEE_KEEP_n names its bundle and index (R507). -/
def leeKeeps (c : Ctl) (bundle index cls : Nat) : Bool :=
  cls == 0 && (List.range 8).any fun i =>
    let v := c.param (0x0D91 + i)
    bit v 48 && bits v 31 0 == bundle && bits v 47 32 == index

/-- A pass of the running command is abandoned (R143). -/
def Ctl.passRunning (c : Ctl) : Bool :=
  match c.plane.holder.bind c.job? with
  | some j => j.exec.phase == 1 && opKind (rOp (j.cmds.getD j.exec.pc 0)) == .array
  | none => false

/-- Every run ends, and every job that is not kept (R507). -/
def leeJobs (m : Mem) (c : Ctl) : Ctl :=
  let c := if c.passRunning then count .plnAbandon 0 1 c else c
  let c := c.jobs.foldl (fun c j =>
    if leeKeeps c j.bundle j.index j.cls then endRun m j.no .leeMode c
    else if j.running.isSome then failJob m j.no .leeMode c
    else endJob m j.no .leeMode 4 j.lastIndex j.lastTag c) c
  c.withPlane fun p => { p with switch := none, stopReq := false }

/-- An intake context stops as a normal disable, its configuration unchanged (R483, R507). -/
def holdContext (n : Nat) (c : Ctl) : Ctl :=
  if (c.intake n).on then
    let c := disableContext n c
    c.setIntake n { c.intake n with held := true }
  else c
/-- The contexts held by an entry are enabled as configured (R489, R491, R512). -/
def releaseContexts (m : Mem) (c : Ctl) : Ctl :=
  (List.range 64).foldl (fun c n =>
    if (c.intake n).held ∧ (c.config n).enable then enableContext m n c
    else c.setIntake n { c.intake n with held := false }) c

/-- The plane clock switches to an operating point: its counter restarts (R100, R493). -/
def switchPoint (op : Nat) (c : Ctl) : Ctl :=
  let c := if op = c.power.opNow then c else count .pwrOpChange 0 1 c
  let c := c.withPower fun p => { p with opNow := op, opNext := none }
  { c with clk := { c.clk with plane := 0, planeFrac := 0 } }

/-- Crosswind ports in electrical idle (R483, R507). -/
def idlePorts (c : Ctl) : Ctl :=
  c.withGroup fun g => { g with ports := g.ports.map fun p => { p with up := false, idle := true } }

/-- EVENT CODE 4 or 5, with SVC_LEE_CAUSE in VALUE. -/
def leeEvent (code : Nat) (c : Ctl) : Ctl :=
  event code 0 0 0 0 0 (List.replicate 8 0 ++ toBe 8 c.service.leeCause ++ List.replicate 16 0) [] c

/-- Bundle installs end without trace (R361, R510). -/
def dropInstalls (c : Ctl) : Ctl :=
  (c.store.transfers.filter fun t => !t.staged).foldl (fun c t =>
    let c := if t.kind = 0 then dropInstall t.base t.size c else c
    c.withStore fun s => { s with transfers := s.transfers.filter fun x => x.no ≠ t.no }) c

/-- Entry into Lee mode (R507, R510). -/
def enterLee (m : Mem) (c : Ctl) : Ctl :=
  let c := { c with service := { c.service with lee := true } }
  let c := leeJobs m c
  -- the part is lost to its group, and passes Table 14.4 again before it serves (R445)
  let c := if c.group.formed then leave (m.apply c.wq) c else c
  let c := if c.power.opNow = 2 ∧ c.power.opNext.isNone then c else switchPoint 2 c
  let bound (n : Nat) : Bool := c.jobs.any fun j => j.mode == 2 && j.trigger == n && !j.ended
  let c := (List.range 64).foldl (fun c n => if bound n then c else holdContext n c) c
  let c := c.withPins fun p => { p with portsOff := true }
  leeEvent 4 (dropInstalls (idlePorts (balls c)))

/-- A cause of Table 17.4 arises; outside Lee mode it causes the entry, while commands are accepted (R506). -/
def raiseLee (b : Nat) (m : Mem) (c : Ctl) : Ctl :=
  let had := c.service.leeCause
  let c := balls { c with service := { c.service with leeCause := if bit had b then had else had + 2 ^ b } }
  if c.service.lee ∨ !c.accepting then c
  else enterLee m (count .svcLeeEntry b 1 c)

/-- The device leaves Lee mode (R512). -/
def leaveLee (m : Mem) (c : Ctl) : Ctl :=
  let c := { c with service := { c.service with lee := false } }
  let op := c.param 0x1001
  let c := c.withPower fun p => { p with opNext := if op = p.opNow then none else some op, throttle := 0 }
  let c := releaseContexts m (c.withPins fun p => { p with portsOff := false })
  let c := c.withGroup fun g => { g with ports := g.ports.map fun p => { p with idle := false } }
  leeEvent 5 (balls c)

/-- A cause clears; with none left the device leaves Lee mode (R506, R512). -/
def clearLee (b : Nat) (m : Mem) (c : Ctl) : Ctl :=
  let v := c.service.leeCause
  let c := balls { c with service := { c.service with leeCause := if bit v b then v - 2 ^ b else v } }
  if c.service.lee ∧ c.service.leeCause = 0 ∧ c.accepting then leaveLee m c else c

end Sys2Proof.Machine
end

