-- ==== Sys2Proof/Machine/Protocol.lean ====
section
/-! DEFINITION. Host requests on parameters, counters, jobs, slots and bundles (13_host_protocol.md R404 to R425; 15 R460). -/

namespace Sys2Proof.Machine

def ascii (s : String) : List Byte := s.toList.map fun ch => byte ch.toNat
/-- A reply in fragments: each carries the OFFSET of its data, 4 bytes, before it (R403; log entry 13). -/
def offsetFragments (data : List Byte) : List (List Byte) :=
  let ps := chunks 1376 data data.length
  (List.range ps.length).map fun i => toBe 4 (1376 * i) ++ ps.getD i []
/-- A reply that is in fragments where one packet does not hold it (R403; log entry 13). -/
def fragments (data : List Byte) : List (List Byte) :=
  if data.length ≤ 1408 then [data] else offsetFragments data
/-- The data of a SLOT_READ: each fragment begins with the request's sub-header, its OFFSET that of the fragment's own data
(R403, R408; log entry 13). -/
def slotFragments (r : Req) (data : List Byte) : List (List Byte) :=
  let ps := chunks 1376 data data.length
  (List.range ps.length).map fun i =>
    slice r.payload 0 8 ++ toBe 4 (r.be 8 4 + 1376 * i) ++ slice r.payload 12 4 ++ ps.getD i []

/-! ### IDENTIFY (R404, Table 13.4) -/

def Ctl.members (c : Ctl) : Nat := if c.group.formed then c.group.state.countP (· == 0) else 0
def fwBytes (c : Ctl) : List Byte := byte 1 :: toBe 3 (Config.fwVersion c.sec.bootSlot)
def identity (c : Ctl) : List Byte :=
  slice (ascii "WXK1610-AQ") 0 16 ++ ascii "A0" ++ [0, 0] ++ slice Config.dieSerial 0 16 ++ fwBytes c ++ toBe 8 c.proto.epoch
    ++ [byte (powerState c), byte (b2n c.service.lee), byte c.members, byte c.inService, byte c.proto.sync, 0, 0, 0]
    ++ toBe 8 c.clk.device
def identify (r : Req) (_m : Mem) (c : Ctl) : Ctl :=
  gate (plainGate 0x01 0 (r.len == 0) true) r (fun c => answer r 0x01 .ok (identity c) c) c

/-! ### Parameters (R414) -/

/-- The IDs of a PARAM_READ: two zero bytes may end the payload on a 4-byte boundary. -/
def paramIds (r : Req) : List Nat :=
  let ids := (List.range (r.len / 2)).map fun i => r.be (2 * i) 2
  if ids.getLast? = some 0 then ids.dropLast else ids
/-- One entry: ID, size, value, padded to 4 bytes. -/
def paramEntry (id width v : Nat) : List Byte :=
  toBe 2 id ++ toBe 2 (width / 8) ++ toBe (width / 8) v ++ List.replicate ((4 - width / 8 % 4) % 4) 0
def readEntries (c : Ctl) (ids : List Nat) : Option (List Byte) :=
  ids.foldr (fun id acc => match paramRow id, acc with
    | some row, some l => some (paramEntry id row.width (readParam c id) ++ l)
    | _, _ => none) (some [])
def readParams (r : Req) (_m : Mem) (c : Ctl) : Ctl :=
  gate (plainGate 0x02 1 (r.len % 4 == 0 && r.len ≤ 64) true) r (fun c =>
    match readEntries c (paramIds r) with
    | some l => answer r 0x02 .ok l c
    | none => answer r 0x02 .unknownId [] c) c

/-- Entries of a PARAM_WRITE: (ID, size, value), and whether every pad byte is 0. -/
def parseEntries : Nat → List Byte → Option (List (Nat × Nat × Nat) × Bool)
  | 0, bs => if bs = [] then some ([], true) else none
  | k + 1, bs =>
    if bs = [] then some ([], true)
    else if bs.length < 4 then none
    else
      let size := beNat (slice bs 2 2)
      let padded := alignUp size 4
      if bs.length < 4 + padded then none
      else (parseEntries k (bs.drop (4 + padded))).map fun p =>
        ((beNat (slice bs 0 2), size, beNat (slice bs 4 size)) :: p.1,
         (slice bs (4 + size) (padded - size)).all (· == 0) && p.2)
/-- The first entry that fails, in entry order: its number and status. -/
def firstBad (get : Nat → Nat) : Nat → List (Nat × Nat × Nat) → Option (Nat × KS)
  | _, [] => none
  | i, e :: es =>
    let st := checkEntry get e.1 e.2.1 e.2.2
    if st ≠ .ok then some (i, st) else firstBad get (i + 1) es
/-- The first entry that names a parameter of a frozen intake context (R468). -/
def frozenEntry (c : Ctl) (es : List (Nat × Nat × Nat)) : Option Nat :=
  es.findIdx? fun e => ((0x0C00 ≤ e.1 && e.1 < 0x0C40) || (0x0C40 ≤ e.1 && e.1 < 0x0C80)) && (c.intake (e.1 % 64)).frozen
/-- The lead relays the change of its group that it has just staged (R438). -/
def relayStaged (code : Nat) (r : Req) (c : Ctl) : Ctl := relayConfig code 0 r.payload c c.group.changeNo
/-- Parameters marked member-specific (Table 14.7). -/
def memberSpecific (id : Nat) : Bool := id == 0x0E00 || id == 0x0E02 || (0x0E04 ≤ id && id ≤ 0x0E07)

def writeParams (r : Req) (_m : Mem) (c : Ctl) : Ctl :=
  let p := parseEntries 32 r.payload
  let reserved := match p with | some q => q.2 | none => true
  gate (plainGate 0x03 2 p.isSome reserved) r (fun c =>
    if c.journalFull then answer r 0x03 .journalFull [] (count .secJournalFull 0 1 c)
    else
      let es := (p.getD ([], true)).1
      let vals := es.map fun e => (e.1, e.2.2)
      match (frozenEntry c es).map (·, KS.frozen) <|> firstBad (valueAfter c vals) 0 es with
      | some (i, st) => answer r 0x03 st [byte i, 0, 0, 0] c
      | none =>
        if c.isLead ∧ vals.all (fun e => !memberSpecific e.1) then relayStaged 0x03 r (stage true (.params vals) r c)
        else stage false (.params vals) r c) c

/-! ### Counters (R425, R515) -/

def blockCounters (block : Nat) : List Cnt := cntList.filter fun k => k.info.1 = block
def blockValues (c : Ctl) (block : Nat) : List Nat :=
  (blockCounters block).flatMap fun k => (List.range k.info.2.1).map fun i => c.counter k i
def readCounters (r : Req) (_m : Mem) (c : Ctl) : Ctl :=
  gate (plainGate 0x04 0 (r.len == 4) (r.zeros 1 3)) r (fun c =>
    if 13 ≤ r.u8 0 then answer r 0x04 .badValue [] c
    else answerAll r 0x04 .ok (offsetFragments ((blockValues c (r.u8 0)).flatMap (toBe 8))) c) c
def clearBlock (block : Nat) (c : Ctl) : Ctl :=
  { c with counters := c.counters.filter fun p => blockOfKey p.1 ≠ block }
def clearCounters (r : Req) (_m : Mem) (c : Ctl) : Ctl :=
  gate (plainGate 0x05 3 (r.len == 4) (r.zeros 1 3)) r (fun c =>
    if 13 ≤ r.u8 0 then answer r 0x05 .badValue [] c
    else answer r 0x05 .ok [] (clearBlock (r.u8 0) c)) c

/-! ### Jobs (R402, R406 to R409, R147, R461, R468) -/

def submitOf (r : Req) (suspends : Nat × Nat) (dead : List Nat) : Submit :=
  { bundleNo := r.be 0 4, index := r.be 4 2, cls := r.u8 6, mode := r.u8 7, trigger := r.u8 8, who := r.peer, relayed := false, suspends := suspends, dead := dead }
def submitJob (r : Req) (suspends : Nat × Nat) (dead : List Nat) (m : Mem) (c : Ctl) : Ctl :=
  let s := submitOf r suspends dead
  let mode := if c.service.lee ∧ !leeKeeps c s.bundleNo s.index s.cls then KS.leeMode else .ok
  gate { plainGate 0x10 4 (r.len == 16) (r.zeros 9 7) with mode := mode, again := some (.jobSubmit r suspends dead) } r (fun c =>
    match buildJob m s c with
    | .error e =>
      -- the refusal of a group job names the member in byte 7 (R440)
      answer r 0x10 e.st ([byte e.list] ++ toBe 4 e.index ++ toBe 2 e.tag ++ (if 0x8000 ≤ s.index then [byte c.member] else []))
        (readBundle m (bundleSpans m s c false) c)
    | .ok (j, c') =>
      let c := readBundle m (bundleSpans m s c true) c'
      if j.grouped ∧ c.peersUp ≠ [] then
        -- every other member in service admits the job first (R440)
        enterJob { j with admitReq := some r, admitLeft := c.peersUp }
          (relayConfig 0x10 j.no (r.payload ++ toBe 16 r.addr ++ toBe 2 r.udp) c)
      else answer r 0x10 .ok (toBe 2 j.no) (grantCredits (admitJob j c))) c

/-- A gate for a request that names a job in its first two bytes. -/
def jobGate (code row : Nat) (r : Req) : Gate :=
  { plainGate code row (r.len == 4) (r.zeros 2 2) with job := some (r.be 0 2) }
/-- The admitted job a request names, unless it is frozen (R407, R468). -/
def namedJob (c : Ctl) (no : Nat) : Except KS Job :=
  match c.admitted no with
  | none => .error .noJob
  | some j => if c.frozenIn no then .error .frozen else if j.ended then .error .noJob else .ok j

def runJob (r : Req) (_m : Mem) (c : Ctl) : Ctl :=
  gate (jobGate 0x11 4 r) r (fun c =>
    match namedJob c (r.be 0 2) with
    | .error st => answer r 0x11 st [] c
    | .ok j =>
      if j.mode ≠ 1 then answer r 0x11 .badValue [] c
      else if j.grouped ∧ !c.isLead then answer r 0x11 .groupHeld [] c
      else if j.waiting.isSome then answer r 0x11 .busy [] c
      else if j.cls = 0 ∧ !galeRoom c then answer r 0x11 .galeRate [] c
      else answer r 0x11 .ok (toBe 4 j.runSeq) (beginRun j.no r.peer c.clk.device c)) c

def abortJob (r : Req) (m : Mem) (c : Ctl) : Ctl :=
  gate (jobGate 0x12 5 r) r (fun c =>
    match namedJob c (r.be 0 2) with
    | .error st => answer r 0x12 st [] c
    | .ok j =>
      if j.abortReq.isSome then answer r 0x12 .busy [] c
      else
        let c := c.mapJob j.no fun k => { k with abortReq := some r }
        -- a list that is not on the Plane stands at such a point already
        if c.plane.holder ≠ some j.no then failAt m j.no .aborted j.abortIndex c else c) c

def endJobRequest (r : Req) (m : Mem) (c : Ctl) : Ctl :=
  gate (jobGate 0x13 5 r) r (fun c =>
    match namedJob c (r.be 0 2) with
    | .error st => answer r 0x13 st [] c
    | .ok j =>
      if j.endReq.isSome then answer r 0x13 .busy [] c
      else
        let c := c.mapJob j.no fun k => { k with endReq := some r }
        if j.running.isNone then endJob m j.no .ok 4 j.lastIndex j.lastTag c else c) c

/-- State, class, RUN_SEQ, last status, list, index, TAG (log entry 13). -/
def jobStatusBytes (j : Job) : List Byte :=
  let state := if j.ended then 2 else b2n j.running.isSome
  [byte state, byte j.cls] ++ toBe 4 (match j.running with | some x => x.seq | none => j.runSeq - 1) ++ toBe 2 j.lastStatus
    ++ [byte j.lastList] ++ toBe 4 j.lastIndex ++ toBe 2 j.lastTag
def statusOfJob (r : Req) (_m : Mem) (c : Ctl) : Ctl :=
  gate (jobGate 0x14 0 r) r (fun c =>
    match c.admitted (r.be 0 2) with
    | none => answer r 0x14 .noJob [] c
    | some j => if j.ended ∧ !c.frozenIn j.no then answer r 0x14 .noJob [] c else answer r 0x14 .ok (jobStatusBytes j) c) c

/-! ### Slot transfers (R408) -/

/-- Job, host handle, part and slot of a sub-header. -/
def slotTarget (c : Ctl) (r : Req) : Except KS (Job × Handle × Nat × Nat) := do
  let j ← namedJob c (r.be 0 2)
  let tile := r.u8 3
  match j.handle? (r.u8 2) with
  | none => throw .badHandle
  | some h =>
    if h.producer ≠ 2 ∨ h.place = 2 then throw .badHandle
    else if 16 ≤ tile ∨ (h.place ≠ 0 ∧ tile ≠ 0) then throw .badPacket
    else if h.slotCount ≤ r.be 4 4 then throw .badHandle
    else pure (j, h, tile, r.be 4 4)

/-- The transfer a fragment continues. -/
def xferOf (c : Ctl) (r : Req) : Option HostXfer :=
  c.proto.xfers.find? fun x => x.source.addr = r.addr && x.source.udp = r.udp && x.reqId = r.reqId
def putFragment (m : Mem) (r : Req) (j : Job) (h : Handle) (tile slot off : Nat) (c : Ctl) : Ctl :=
  let data := r.payload.drop 16
  let c := emitRun m (h.addr tile (slot * h.slotBytes + off)) data 0 false c
  let c := c.mapJob j.no fun k => { k with exec := { k.exec with writers := k.exec.writers.filter fun w => w.1 ≠ r.u8 2 } }
  if bit r.flags 2 then
    let c := if bit (r.be 12 4) 0 then setFull (h.slotKey tile slot) c else c
    answer r 0x18 .ok [] c
  else
    let x : HostXfer := { jobNo := j.no, handle := r.u8 2, tile := tile, slot := slot, source := r.peer, reqId := r.reqId,
                          nextOffset := off + data.length, at' := c.clk.ns }
    c.withProto fun p => { p with xfers := p.xfers ++ [x] }

/-- An earlier fragment of the transfer waits in the queue. -/
def Ctl.fragmentWaits (c : Ctl) (r : Req) : Bool :=
  c.proto.queue.any fun i => match i with
    | .slotWrite q => q.addr == r.addr && q.udp == r.udp && q.reqId == r.reqId && !bit q.flags 2
    | _ => false
def writeSlot (r : Req) (m : Mem) (c : Ctl) : Ctl :=
  -- a copy of a fragment is a repeat (R401)
  let copy : Bool := !c.proto.serving && match c.cached r with | some q => q.code == 0x18 && q.holds r | none => false
  let cont := if copy then none else xferOf c r
  let g : Gate := { plainGate 0x18 6 (16 ≤ r.len && r.len ≤ 16 + 1376) (r.be 12 4 / 2 == 0) with
                    job := some (r.be 0 2), fragment := !copy && (cont.isSome || c.fragmentWaits r) }
  gate g r (fun c =>
    let data := r.len - 16
    match cont with
    | some x =>
      (match slotTarget c r with
      | .error st => answer r 0x18 st [] (voidXfer x c)
      | .ok (j, h, tile, slot) =>
        if j.no ≠ x.jobNo ∨ r.u8 2 ≠ x.handle ∨ tile ≠ x.tile ∨ slot ≠ x.slot ∨ r.be 8 4 ≠ x.nextOffset then
          answer r 0x18 .badSequence [] (voidXfer x c)
        else if h.slotBytes < r.be 8 4 + data then answer r 0x18 .badHandle [] (voidXfer x c)
        -- another writer has set the slot full meanwhile: the engine never blocks on a host slot (R254, R408; log entry 117)
        else if c.slotFull (h.slotKey tile slot) then answer r 0x18 .slotFull [] (dropXfer x c)
        else putFragment m r j h tile slot (r.be 8 4) (dropXfer x c))
    | none =>
      match slotTarget c r with
      | .error st => answer r 0x18 st [] c
      | .ok (j, h, tile, slot) =>
        if r.be 8 4 % 32 ≠ 0 then answer r 0x18 .badPacket [] c
        else if h.slotBytes < r.be 8 4 + data then answer r 0x18 .badHandle [] c
        else if c.slotFull (h.slotKey tile slot) then answer r 0x18 .slotFull [] c
        else putFragment m r j h tile slot (r.be 8 4) c) c

def readSlot (r : Req) (m : Mem) (c : Ctl) : Ctl :=
  gate { plainGate 0x19 6 (r.len == 16) (r.be 12 4 / 2 ^ 25 == 0) with job := some (r.be 0 2) } r (fun c =>
    match slotTarget c r with
    | .error st => answer r 0x19 st [] c
    | .ok (j, h, tile, slot) =>
      let n := r.be 12 4 % 2 ^ 24
      if !c.resultOut j.bundle then answer r 0x19 .notPermitted [] c
      else if r.be 8 4 % 32 ≠ 0 then answer r 0x19 .badPacket [] c
      else if h.slotBytes < r.be 8 4 + n then answer r 0x19 .badHandle [] c
      else if !c.handleFull h slot then answer r 0x19 .slotEmpty [] c
      else
        let a := h.addr tile (slot * h.slotBytes + r.be 8 4)
        let c := noteReads m (spanWords (a, n)) c
        let c := if bit (r.be 12 4) 24 then setEmpty (h.slotKey tile slot) c else c
        answerAll r 0x19 .ok (slotFragments r (m.bytesAt a n)) c) c

/-- PRO_XFER_TIMEOUT has passed since the last fragment of a transfer (R408). -/
def xferTimeout (jobNo handle tile slot : Nat) (c : Ctl) : Ctl :=
  match c.proto.xfers.find? fun x => x.jobNo = jobNo && x.handle = handle && x.tile = tile && x.slot = slot with
  | none => c
  | some x =>
    if c.clk.ns ≤ x.at' + 1000000 * c.param 0x0D02 then c
    else
      let to' := match c.job? jobNo with | some j => [j.submitter] | none => []
      event 9 jobNo KS.badSequence.code 0 0 0 [] to' (voidXfer x c)

/-! ### Bundles (R360, R361, R363, R423, R456 to R460) -/

/-- The erased blocks of every channel suffice for `size` bytes, parity channels included, and so does FLS_CAPACITY (R360,
R363). -/
def flashFits (c : Ctl) (size : Nat) : Bool :=
  size ≤ 0x100000 * c.param 0x0B88
    && (heldRanges c).foldl (fun a r => a + cdiv r.2 0x100000) 0 + cdiv size 0x100000 ≤ readParam c 0x0B86
    && (List.range 34).all fun ch => cdiv size 0x8000000 ≤ erasedBlocks c ch
/-- The lowest free aperture address, on a 128 MiB boundary (log entry 16). -/
def freeAperture (c : Ctl) (size : Nat) : Option Nat :=
  let used := heldRanges c
  least ((flashBase :: used.map fun u => alignUp (u.1 + u.2) 0x8000000).filter fun a =>
    a + size ≤ flashEnd && used.all fun u => apart a size u.1 u.2)

/-- Right row of a bundle request, by KIND. -/
def bundleRow (kind : Nat) : Nat := if kind = 1 then 8 else 7
def xferKind (c : Ctl) (no : Nat) : Nat := ((c.store.transfers.find? fun t => t.no = no).map (·.kind)).getD 0
def leeBars (c : Ctl) : KS := if c.service.lee then .leeMode else .ok

/-- Begin an install under a number: blocks are reserved for a model bundle, the inactive slot for a firmware image (R360, R458). -/
def startBundle (no kind size : Nat) (digest : List Byte) (m : Mem) (c : Ctl) : Option Ctl :=
  let fits : Bool := if kind = 1 then size ≤ 0x8000000 else flashFits c size
  (if fits then (if kind = 1 then some 0 else freeAperture c size) else none).map fun base =>
    let t : BundleXfer := { no := no, kind := kind, size := size, digest := digest, base := base, received := 0, data := [],
                            staged := false, signer := 0, svn := 0, at' := c.clk.ns }
    let c := if kind = 0 then
        emit (m.clearFlash base (alignUp size 0x200000)) ((bundleBlocks base size).foldl (takeBlock (bundleBlocks base size)) c)
      else c
    c.withStore fun s => { s with transfers := s.transfers ++ [t], nextBundle := max s.nextBundle (no + 1) }
def beginBundle (r : Req) (m : Mem) (c : Ctl) : Ctl :=
  let kind := r.u8 0
  gate { plainGate 0x30 (bundleRow kind) (r.len == 76) (r.zeros 1 3) with mode := leeBars c } r (fun c =>
    if 2 ≤ kind then answer r 0x30 .badValue [] c
    else
      let no := c.store.nextBundle
      match startBundle no kind (r.be 4 8) (slice r.payload 12 64) m c with
      | none => answer r 0x30 .noResource [] c
      | some c =>
        let c := if c.isLead then relayConfig 0x30 0 (r.payload ++ toBe 4 no) c else c
        answer r 0x30 .ok (toBe 4 no) c) c

/-- Words that BUNDLE_DATA programs, in clear (log entries 7 and 17). -/
def programWrites (a : Nat) (data : List Byte) : List Wr :=
  (List.range data.length).flatMap fun i =>
    let w := (a + i) / 32
    Wr.data (a + i) (data.getD i 0) :: (if (a + i) % 32 = 0 then [Wr.tag w (byte (Config.flashFormat w % 7))] else [])

/-- Retire an erase block that fails: a spare of its channel takes its place, or the stack shrinks (R363, R504). -/
def retireBlock (key : Nat) (c : Ctl) : Ctl :=
  let ch := key / 4096
  let stack := ch / 17
  let spare := if SMap.get 0 c.store.sparesUsed ch < 246 then sparePool c ch else none
  let served := placeOf c key
  let c := c.withStore fun s =>
    { s with blocksRetired := addAt s.blocksRetired ch 1, badBlocks := s.badBlocks ++ [key],
             toErase := s.toErase.filter (· ≠ key), refreshDue := s.refreshDue.filter (· ≠ key),
             sparesUsed := if spare.isSome then addAt s.sparesUsed ch 1 else s.sparesUsed,
             blockMap := match served, spare with | some p, some b => SMap.put p s.blockMap p b | _, _ => s.blockMap }
  let left := flashSpareLeft c stack
  let c := serviceEvent 6 6 (stack * 16 + ch % 17) left (count .flsRetire stack 1 c)
  ([61, 24].zip [stack * 2, stack * 2 + 1]).foldl (fun c t =>
    if left ≤ t.1 then wearEvent (0x600 + t.2) 6 stack left c else c) c

/-- Data of an install arrives at its next offset, and is programmed; a repeat is not written again (R360, R423). The answer is
the status, and whether the data was new. -/
def takeData (no off : Nat) (data : List Byte) (failing : List Nat) (c : Ctl) : KS × Bool × Ctl :=
  match c.store.transfers.find? fun t => t.no = no && !t.staged with
  | none => (.noBundle, false, c)
  | some t =>
    let put (t' : BundleXfer) (c : Ctl) : Ctl :=
      c.withStore fun s => { s with transfers := s.transfers.map fun x => if x.no = no then { t' with at' := c.clk.ns } else x }
    if off < t.received then (.ok, false, put t c)
    else if t.received < off ∨ t.size < off + data.length then (.badSequence, false, put t c)
    else
      let c := if t.kind = 0 then emit (programWrites (t.base + off) data) c else c
      let c := put { t with received := off + data.length, data := if t.kind = 1 then t.data ++ data else [] } c
      let own := (bundleBlocks t.base t.size).map c.blockOf
      (.ok, true, (failing.filter own.contains).foldl (fun c k => retireBlock k c) c)
def bundleDataIn (r : Req) (failing : List Nat) (_m : Mem) (c : Ctl) : Ctl :=
  let no := r.be 0 4
  gate { plainGate 0x31 (bundleRow (xferKind c no)) (12 < r.len && r.len ≤ 12 + 1376) true with
      mode := leeBars c, again := some (.bundleData r failing) } r (fun c =>
    let (st, fresh, c) := takeData no (r.be 4 8) (r.payload.drop 12) failing c
    answer r 0x31 st [] (if fresh ∧ c.isLead then relayConfig 0x31 0 r.payload c else c)) c

/-- The header and signatures of a bundle (Tables 15.3 and 15.4, R460): its signer's key slot where they hold. -/
def verifyBundle (c : Ctl) (kind size : Nat) (digest bs : List Byte) : Option Nat :=
  let f (off n : Nat) : Nat := leNat (slice bs off n)
  let sigOff := size - 5344
  let headerOk := 5600 ≤ size && slice bs 0 4 == [0x4B, 0x42, 0x4E, 0x44] && f 4 2 == 1 && f 6 1 == kind && f 7 1 == 0
    && f 8 8 == size && f 16 8 == sigOff && f 24 8 % 32 == 0 && f 32 2 ≤ 0x7FFF && f 34 6 == 0 && f 40 8 % 32 == 0
    && f 48 2 ≤ 0x7FFF && f 50 2 == 0 && (if kind = 1 then 1 ≤ f 52 4 && f 52 4 ≤ 63 else f 52 4 == 0)
    && (slice bs 56 200).all (· == 0)
  let d := hash (bs.take sigOff)
  let sig := slice bs sigOff 5344
  let slot := leNat (slice sig 0 2)
  let pub := slice sig 72 1952
  let reserved := leNat (slice sig 2 6) == 0 && leNat (slice sig 5333 11) == 0
  let edKey := if kind = 1 then Config.romEdKey else slice (c.key slot) 8 32
  let signer := if kind = 1 then slot == 0xFFFF && hash pub == Config.romMldsaHash
    else slot < 16 && bit (keyUse (c.key slot)) 0 && bit (keyUse (c.key slot)) 2 && hash pub == slice (c.key slot) 40 64
  if headerOk && reserved && d == digest && signer && Config.edVerify edKey d (slice sig 8 64)
      && Config.mldsaVerify pub d (slice sig 2024 3309) then some slot
  else none

/-- Firmware reads a whole install back and verifies it: its transfer waits for the commit, or leaves no trace (R360, R361,
R460). -/
def checkBundle (no : Nat) (m : Mem) (c : Ctl) : KS × Ctl :=
  match c.store.transfers.find? fun t => t.no = no && !t.staged with
  | none => (.noBundle, c)
  | some t =>
    if t.received < t.size then (.badSequence, c)
    else if c.journalFull then (.journalFull, count .secJournalFull 0 1 c)
    else
      let bs := if t.kind = 1 then t.data else m.flashBytes t.base t.size
      let c := if t.kind = 1 then c else readFlash m t.base t.size c
      match verifyBundle c t.kind t.size t.digest bs with
      | some slot =>
        let t' := { t with staged := true, signer := slot, svn := leNat (slice bs 52 4) }
        (.ok, c.withStore fun s => { s with transfers := s.transfers.map fun x => if x.no = no then t' else x })
      | none =>
        let c := if t.kind = 0 then dropInstall t.base t.size c else c
        let c := c.withStore fun s => { s with transfers := s.transfers.filter fun x => x.no ≠ no }
        (.badSignature, count .secBadSig 0 1 c)
def commitBundleRequest (r : Req) (m : Mem) (c : Ctl) : Ctl :=
  let no := r.be 0 4
  gate { plainGate 0x32 (bundleRow (xferKind c no)) (r.len == 4) true with mode := leeBars c } r (fun c =>
    match checkBundle no m c with
    | (.ok, c) =>
      let c := stage c.isLead (.bundleCommit no) r c
      if c.isLead then relayStaged 0x32 r c else c
    | (st, c) => answer r 0x32 st [] c) c

def removeBundleRequest (r : Req) (_m : Mem) (c : Ctl) : Ctl :=
  let no := r.be 0 4
  let kind := ((c.store.bundles.find? fun b => b.no = no).map (·.kind)).getD 0
  gate (plainGate 0x33 (bundleRow kind) (r.len == 4) true) r (fun c =>
    if !c.store.bundles.any fun b => b.no = no then answer r 0x33 .noBundle [] c
    else if c.journalFull then answer r 0x33 .journalFull [] (count .secJournalFull 0 1 c)
    else
      let c := stage c.isLead (.bundleRemove no) r c
      if c.isLead then relayStaged 0x33 r c else c) c

def listBundles (r : Req) (_m : Mem) (c : Ctl) : Ctl :=
  gate (plainGate 0x34 0 (r.len == 0) true) r (fun c =>
    answerAll r 0x34 .ok (fragments (c.store.bundles.flatMap fun b =>
      toBe 4 b.no ++ [byte b.kind] ++ toBe 8 b.size ++ slice b.digest 0 16)) c) c

/-- A transfer idle for 60 s is abandoned and leaves no trace (R361, R423). -/
def bundleTimeout (no : Nat) (c : Ctl) : Ctl :=
  match c.store.transfers.find? fun t => t.no = no && !t.staged with
  | none => c
  | some t =>
    if c.clk.ns < t.at' + 60000000000 then c
    else
      let c := if t.kind = 0 then dropInstall t.base t.size c else c
      c.withStore fun s => { s with transfers := s.transfers.filter fun x => x.no ≠ no }

/-! ### Meanings -/

/-- IDENTIFY. -/
def execIdentify (r : Req) (s : State) : Host.Outcome State Fault Refusal := .next (s.run (identify r))
/-- PARAM_READ. -/
def execParamRead (r : Req) (s : State) : Host.Outcome State Fault Refusal := .next (s.run (readParams r))
/-- PARAM_WRITE. -/
def execParamWrite (r : Req) (s : State) : Host.Outcome State Fault Refusal := .next (s.run (writeParams r))
/-- COUNTER_READ. -/
def execCounterRead (r : Req) (s : State) : Host.Outcome State Fault Refusal := .next (s.run (readCounters r))
/-- COUNTER_CLEAR. -/
def execCounterClear (r : Req) (s : State) : Host.Outcome State Fault Refusal := .next (s.run (clearCounters r))
/-- JOB_SUBMIT. -/
def execJobSubmit (r : Req) (s : State) (suspends : Nat × Nat := (0, 0)) (dead : List Nat := []) : Host.Outcome State Fault Refusal :=
  .next (s.run (submitJob r suspends dead))
/-- JOB_RUN. -/
def execJobRun (r : Req) (s : State) : Host.Outcome State Fault Refusal := .next (s.run (runJob r))
/-- JOB_ABORT. -/
def execJobAbort (r : Req) (s : State) : Host.Outcome State Fault Refusal := .next (s.run (abortJob r))
/-- JOB_END. -/
def execJobEnd (r : Req) (s : State) : Host.Outcome State Fault Refusal := .next (s.run (endJobRequest r))
/-- JOB_STATUS. -/
def execJobStatus (r : Req) (s : State) : Host.Outcome State Fault Refusal := .next (s.run (statusOfJob r))
/-- SLOT_WRITE. -/
def execSlotWrite (r : Req) (s : State) : Host.Outcome State Fault Refusal := .next (s.run (writeSlot r))
/-- SLOT_READ. -/
def execSlotRead (r : Req) (s : State) : Host.Outcome State Fault Refusal := .next (s.run (readSlot r))
/-- HOST_XFER_TIMEOUT. -/
def execHostXferTimeout (jobNo handle tile slot : Nat) (s : State) : Host.Outcome State Fault Refusal :=
  .next (s.run fun _ c => xferTimeout jobNo handle tile slot c)
/-- BUNDLE_BEGIN. -/
def execBundleBegin (r : Req) (s : State) : Host.Outcome State Fault Refusal := .next (s.run (beginBundle r))
/-- BUNDLE_DATA. -/
def execBundleData (r : Req) (failing : List Nat) (s : State) : Host.Outcome State Fault Refusal :=
  .next (s.run (bundleDataIn r failing))
/-- BUNDLE_COMMIT. -/
def execBundleCommit (r : Req) (s : State) : Host.Outcome State Fault Refusal := .next (s.run (commitBundleRequest r))
/-- BUNDLE_REMOVE. -/
def execBundleRemove (r : Req) (s : State) : Host.Outcome State Fault Refusal := .next (s.run (removeBundleRequest r))
/-- BUNDLE_LIST. -/
def execBundleList (r : Req) (s : State) : Host.Outcome State Fault Refusal := .next (s.run (listBundles r))
/-- BUNDLE_IDLE_TIMEOUT. -/
def execBundleIdleTimeout (no : Nat) (s : State) : Host.Outcome State Fault Refusal := .next (s.run fun _ c => bundleTimeout no c)

end Sys2Proof.Machine
end

