-- ==== Sys2Proof/Machine/Security.lean ====
section
/-! DEFINITION. Protection, thawing, attestation and the journal: the requests of 15_security_roles.md (R462 to R476). -/

namespace Sys2Proof.Machine

/-- A request of a type that several rows share: run `f` where its SUB is the row's own, leave another row's SUB to that row,
and refuse a SUB that no row has with `st`. -/
def bySub (own : Nat) (others : List Nat) (code row : Nat) (lengthOk : Bool) (st : KS) (r : Req) (f : Ctl → Ctl) (c : Ctl) : Ctl :=
  if r.u8 0 = own then f c
  else if others.contains (r.u8 0) then c
  else gate (plainGate code row lengthOk true) r (fun c => answer r code st [] c) c

/-! ### Protection tables (R462 to R467, Tables 15.5 to 15.8) -/

def entrySize (table : Nat) : Nat := match table with | 0 => 128 | 1 => 4 | 2 => 32 | 3 => 16 | _ => 64
def entryCount (table : Nat) : Nat := match table with | 0 => 16 | 1 => 21 | 2 => 16 | 3 => 32 | _ => 3
/-- A stored entry in the form of its field map. -/
def Ctl.entry (c : Ctl) (table index : Nat) : List Byte :=
  match table with
  | 0 => slice (c.key index) 0 128
  | 1 => byte (c.sec.rights.getD index 0) :: [0, 0, 0]
  | 2 => slice (c.sec.peers.getD index []) 0 32
  | 3 => slice (c.sec.policy.getD index []) 0 16
  | _ => slice (c.sec.linkKeys.getD index []) 0 64
/-- An entry as READ returns it: KEY of table 4 as 0 (R462). -/
def Ctl.entryRead (c : Ctl) (table index : Nat) : List Byte :=
  if table = 4 then slice (c.entry 4 index) 0 32 ++ List.replicate 32 0 else c.entry table index

def zeroAt (e : List Byte) (off n : Nat) : Bool := (slice e off n).all (· == 0)
def u8At (e : List Byte) (off : Nat) : Nat := (e.getD off 0).toNat
/-- No other VALID policy entry names the bundle. -/
def soleName (c : Ctl) (index bundle : Nat) : Bool :=
  (List.range 32).all fun i => i == index || !bit (u8At (c.entry 3 i) 4) 0 || beNat (slice (c.entry 3 i) 0 4) ≠ bundle

/-- An entry holds to its field map and to Table 15.1 (R462). -/
def entryOk (c : Ctl) (table index : Nat) (e : List Byte) : Bool :=
  match table with
  | 0 => u8At e 0 < 8 && (if bit (u8At e 0) 0 then u8At e 1 == 1 || u8At e 1 == 2 else u8At e 1 ≤ 2)
      && zeroAt e 2 6 && (bit (u8At e 0) 2 || zeroAt e 40 64) && zeroAt e 104 24
  | 1 => u8At e 0 &&& rightsCeiling index == u8At e 0 && (!fixedRows.contains index || bit (u8At e 0) 2) && zeroAt e 1 3
  | 2 => u8At e 0 < 4 && u8At e 1 ≤ 2 && u8At e 2 ≤ 128 && u8At e 3 < 4 && zeroAt e 20 12
  | 3 => u8At e 4 < 16 && zeroAt e 5 11 && (!bit (u8At e 4) 0 || soleName c index (beNat (slice e 0 4)))
  | _ => index ≠ 2 || zeroAt e 0 32

/-- `new` holds only bits that `old` holds. -/
def clears (old new : Nat) : Bool := old &&& new == new
/-- A WRITE that only tightens (R463). -/
def tightens (c : Ctl) (table index : Nat) (e : List Byte) : Bool :=
  let o := c.entry table index
  match table with
  | 0 =>
    clears (u8At o 0) (u8At e 0) && slice e 1 39 == slice o 1 39
      && (slice e 40 64 == slice o 40 64 || (bit (u8At o 0) 2 && !bit (u8At e 0) 2 && zeroAt e 40 64))
  | 1 => clears (u8At o 0) (u8At e 0) && slice e 1 3 == slice o 1 3
  | 2 =>
    let p := u8At o 2
    let sameHead := beNat (slice e 4 16) / 2 ^ (128 - p) == beNat (slice o 4 16) / 2 ^ (128 - p)
    clears (u8At o 0) (u8At e 0) && u8At e 1 ≤ u8At o 1 && clears (u8At o 3) (u8At e 3)
      && (if p < u8At e 2 then sameHead else u8At e 2 == p && slice e 4 16 == slice o 4 16)
  | 3 =>
    e == o || (bit (u8At e 4) 0 &&
      (if bit (u8At o 4) 0 then slice e 0 4 == slice o 0 4 && clears (u8At o 4) (u8At e 4)
       else soleName c index (beNat (slice e 0 4))))
  | _ => false

/-- The gate of a PROTECT request: exempt from checks 8 and 10 for the maker (R466). -/
def protectGate (row : Nat) (lengthOk : Bool) (r : Req) : Gate :=
  { plainGate 0x38 row lengthOk (r.zeros 4 4) with exempt := r.role == 2 }

def readProtect (r : Req) (_m : Mem) (c : Ctl) : Ctl :=
  let table := r.u8 1
  bySub 0 [1, 2, 3] 0x38 9 false .badPacket r (fun c =>
    gate (protectGate 9 (r.len == 8 && table ≤ 4) r) r (fun c =>
      if entryCount table ≤ r.be 2 2 then answer r 0x38 .badValue [] c
      else answer r 0x38 .ok (c.entryRead table (r.be 2 2)) c) c) c

/-- KIND and the epoch, as every WRITE reply carries them (R415, R462). -/
def writeKind (tight : Bool) (c : Ctl) : List Byte := [byte (b2n !tight), 0, 0, 0] ++ toBe 8 c.proto.epoch
def writeProtect (r : Req) (m : Mem) (c : Ctl) : Ctl :=
  let table := r.u8 1
  let index := r.be 2 2
  let e := r.payload.drop 8
  let inside : Bool := index < entryCount table
  let tight := inside && tightens c table index e
  let row := if tight && 1 ≤ table && table ≤ 3 then 10 else 11
  bySub 1 [0, 2, 3] 0x38 11 false .badPacket r (fun c =>
    -- every WRITE reply says its KIND in byte 0 (R462)
    gate { protectGate row (table ≤ 4 && r.len == 8 + entrySize table) r with detail := writeKind tight c } r (fun c =>
      let kind := writeKind tight c
      if !inside || !entryOk c table index e then answer r 0x38 .badValue kind c
      else if tight then tighten m table index e r c
      else if c.journalFull then answer r 0x38 .journalFull kind (count .secJournalFull 0 1 c)
      else stage false (.protect table index e) r c) c) c

/-- Check 7 of a CLAIM: the entry that it brings verifies its own trailer (R467). -/
def claimTrust (c : Ctl) (r : Req) : KS :=
  if c.sec.claimed ∨ r.role ≠ 2 then .notPermitted
  else if r.authLen ≠ 80 ∨ r.trailer.counter = 0
      ∨ !Config.edVerify (slice r.payload 16 32) (r.signed 0x38) r.trailer.signature then .badSignature
  else if !c.peerOk r then .notPermitted
  else .ok

def claimDevice (r : Req) (m : Mem) (c : Ctl) : Ctl :=
  let key := slice r.payload 8 128
  bySub 2 [0, 1, 3] 0x38 11 false .badPacket r (fun c =>
    gateWith { protectGate 11 (r.len == 8 + 128 + 64 + 64) r with claim := true } (claimTrust c r) r (fun c1 =>
      -- the counter of the trailer is slot 0's once the claim has installed it
      let c1 := c1.withSec fun s => { s with keys := c.sec.keys, ramCounters := c.sec.ramCounters }
      if !entryOk c1 0 0 key ∨ keyRole key ≠ 2 ∨ !bit (keyUse key) 0 ∨ !bit (keyUse key) 1 then answer r 0x38 .badValue [] c1
      else if c1.journalFull then answer r 0x38 .journalFull [] (count .secJournalFull 0 1 c1)
      else
        let c2 := setProtect m 4 1 (slice r.payload 200 64) (setProtect m 4 0 (slice r.payload 136 64) (setProtect m 0 0 key c1))
        let c2 := c2.withSec fun s =>
          { s with claimed := true, keys := s.keys.set 0 (setKeyCounter r.trailer.counter (s.keys.getD 0 [])) }
        let c2 := boundary 6 r.role r.keySlot r.reqId r.payload c2
        let c2 := answer r 0x38 .ok (toBe 8 c2.proto.epoch) c2
        restartMka 1 (restartMka 0 c2)) c) c

/-- Every protection table at its Reset contents, the device unclaimed (R467). -/
def unclaim (m : Mem) (c : Ctl) : Ctl :=
  endBarred m (c.withSec fun s =>
    { s with claimed := false, keys := Sec.reset.keys, ramCounters := [], rights := Sec.reset.rights, peers := Sec.reset.peers,
             policy := Sec.reset.policy, linkKeys := Sec.reset.linkKeys })
def releaseDevice (r : Req) (m : Mem) (c : Ctl) : Ctl :=
  bySub 3 [0, 1, 2] 0x38 11 false .badPacket r (fun c =>
    gate (protectGate 11 (r.len == 8) r) r (fun c =>
      let models := c.store.bundles.filter fun b => b.kind = 0
      let c := models.foldl (fun c b => releaseFlash b.base b.size c) c
      let c := c.withStore fun s => { s with bundles := s.bundles.filter fun b => b.kind ≠ 0 }
      let c := unclaim m c
      let c := boundary 7 r.role r.keySlot r.reqId r.payload c
      let c := answer r 0x38 .ok (toBe 8 c.proto.epoch) c
      restartMka 1 (restartMka 0 c)) c) c

/-! ### Thawing (R468 to R472) -/

/-- One entry of the THAW LIST reply (R471). -/
def Frozen.bytes (f : Frozen) : List Byte :=
  toBe 4 f.id ++ [byte f.kind, byte f.role] ++ toBe 2 f.status ++ toBe 2 f.job ++ [byte f.tile, if f.kind = 1 ∨ f.kind = 5 then byte f.ctx else 0xFF] ++ toBe 4 f.idx
    ++ toBe 2 f.tag ++ List.replicate 6 0 ++ toBe 8 f.time

def listFrozen (r : Req) (_m : Mem) (c : Ctl) : Ctl :=
  bySub 0 [1] 0x39 12 (r.len == 8) .badValue r (fun c =>
    gate (plainGate 0x39 12 (r.len == 8) (r.zeros 1 7)) r (fun c =>
      answerAll r 0x39 .ok (fragments (c.sec.frozen.flatMap Frozen.bytes)) c) c) c

/-- An ended job with nothing frozen in it any more leaves (R470). -/
def releaseJob (no : Nat) (c : Ctl) : Ctl :=
  if c.leftOf no then c else { c with jobs := c.jobs.filter fun j => !(j.no == no && j.ended) }
/-- The thaw effect of Table 15.10. -/
def thawObject (f : Frozen) (c : Ctl) : Ctl :=
  let c := c.withSec fun s => { s with frozen := s.frozen.filter fun g => g.id ≠ f.id }
  let c := count .secThaw (f.kind - 1) 1 c
  let c := match f.kind with
    | 2 =>
      (match c.job? f.job with
      | some j => (freeFrames j (endSlots j c)).mapJob f.job fun k => { k with pages := [], handles := [], windows := [] }
      | none => c)
    | 3 => c.withProto fun p => { p with replies := p.replies.eraseP fun rp => rp.job == f.job && rp.frozen }
    | 4 => c.setPort f.ctx
        { c.port f.ctx with frozen := (c.port f.ctx).frozen.filter fun k => k.1 ≠ f.job }
    | 5 => c.setIntake f.ctx { c.intake f.ctx with frozen := false, blocked := none }
    | 6 => c.setTile f.tile { c.tile f.tile with testing := true }
    | _ => c
  releaseJob f.job c

def thawRequest (r : Req) (_m : Mem) (c : Ctl) : Ctl :=
  let f := c.sec.frozen.find? fun f => f.id = r.be 4 4
  let row := match f with | some f => if f.kind ≤ 4 then 12 else 13 | none => 12
  bySub 1 [0] 0x39 12 (r.len == 8) .badValue r (fun c =>
    gate (plainGate 0x39 row (r.len == 8) (r.zeros 1 3)) r (fun c =>
      match f with
      | none => answer r 0x39 .badValue [] c
      | some f => answer r 0x39 .ok [] (journalReq 8 r (thawObject f c))) c) c

/-! ### Attestation (R473, Table 15.11) -/

/-- SHA-512 over the full digests of the installed model bundles in ascending BUNDLE_NO (Table 14.4). -/
def bundleDigest (c : Ctl) : List Byte :=
  let bs := c.store.bundles.filter fun b => b.kind = 0
  let sorted := bs.foldl (fun (acc : List (Nat × List Byte)) b => SMap.insert acc b.no (slice b.digest 0 64)) []
  hash (sorted.flatMap (·.2))
/-- SHA-512 over the RW parameters that `keep` picks, in ascending ID, each as a PARAM_READ entry. -/
def configDigest (keep : Nat → Bool) (c : Ctl) : List Byte :=
  hash ((paramRows.filter (·.rw)).flatMap fun row =>
    (List.range (row.last + 1 - row.first)).flatMap fun i =>
      let id := row.first + i
      if keep id then paramEntry id row.width (c.param id) else [])
def protectDigest (c : Ctl) : List Byte :=
  hash ((List.range 4).flatMap fun t => (List.range (entryCount t)).flatMap fun i => c.entryRead t i)

def reportBody (nonce : List Byte) (c : Ctl) : List Byte :=
  ascii "KATR" ++ [0, 1, byte (b2n c.sec.claimed), byte (b2n c.service.lee)] ++ slice nonce 0 32 ++ slice Config.dieSerial 0 16
    ++ ascii "A0" ++ [byte c.sec.bootSlot, byte (powerState c)] ++ fwBytes c ++ toBe 4 c.sec.svn
    ++ toBe 4 c.sec.frozen.length ++ toBe 8 c.proto.epoch ++ toBe 8 c.group.epoch ++ toBe 8 c.clk.device
    ++ toBe 8 c.sec.head ++ toBe 8 c.sec.lost ++ slice (c.sec.slotDigest.getD c.sec.bootSlot []) 0 64
    ++ configDigest (fun _ => true) c ++ bundleDigest c ++ protectDigest c ++ c.sec.newest
def report (nonce : List Byte) (c : Ctl) : List Byte :=
  let b := reportBody nonce c
  b ++ slice (Config.attestEd b) 0 64 ++ slice (Config.attestMldsa b) 0 3309

def attest (r : Req) (_m : Mem) (c : Ctl) : Ctl :=
  bySub 0 [1] 0x3A 14 true .badValue r (fun c =>
    gate (plainGate 0x3A 14 (r.len == 36) (r.zeros 1 3)) r (fun c =>
      answerAll r 0x3A .ok (fragments (report (slice r.payload 4 32) c)) c) c) c
/-- The attestation public keys and Walyx's signatures over them. -/
def attestationKeys (r : Req) (_m : Mem) (c : Ctl) : Ctl :=
  bySub 1 [0] 0x3A 14 true .badValue r (fun c =>
    gate (plainGate 0x3A 14 (r.len == 4) (r.zeros 1 3)) r (fun c =>
      answerAll r 0x3A .ok (fragments (slice Config.attestKeys 0 1984 ++ slice Config.attestKeySigs 0 3373)) c) c) c

/-! ### The journal (R474 to R476) -/

def oldestSeq (s : Sec) : Nat := match s.journal.head? with | some e => e.seq | none => s.head + 1
def journalReply (from_ : Nat) (s : Sec) : List Byte :=
  toBe 8 (oldestSeq s) ++ toBe 8 s.head ++ slice s.anchor 0 64 ++ toBe 8 s.lost
    ++ ((s.journal.filter fun e => from_ ≤ e.seq).take 64).flatMap Entry.bytes
def readJournal (r : Req) (_m : Mem) (c : Ctl) : Ctl :=
  bySub 0 [1] 0x3B 15 (r.len == 16) .badValue r (fun c =>
    gate (plainGate 0x3B 15 (r.len == 16) (r.zeros 1 7)) r (fun c =>
      answerAll r 0x3B .ok (fragments (journalReply (r.be 8 8) c.sec)) c) c) c

/-- Drop every entry up to a SEQ; the anchor becomes the hash of the last one dropped (R476). -/
def trim (seq : Nat) (c : Ctl) : Ctl :=
  let gone := c.sec.journal.filter fun e => e.seq ≤ seq
  let c := c.withSec fun s =>
    { s with journal := s.journal.filter fun e => seq < e.seq,
             anchor := match gone.getLast? with | some e => hash e.bytes | none => s.anchor }
  c.withSec fun s => { s with fullSent := s.fullSent && c.journalFull }
def trimJournal (r : Req) (_m : Mem) (c : Ctl) : Ctl :=
  bySub 1 [0] 0x3B 16 (r.len == 16) .badValue r (fun c =>
    gate (plainGate 0x3B 16 (r.len == 16) (r.zeros 1 7)) r (fun c =>
      if c.sec.head ≤ r.be 8 8 then answer r 0x3B .badValue [] c
      else answer r 0x3B .ok [] (journalReq 10 r (trim (r.be 8 8) c))) c) c

/-! ### Meanings -/

/-- PROTECT_READ. -/
def execProtectRead (r : Req) (s : State) : Host.Outcome State Fault Refusal := .next (s.run (readProtect r))
/-- PROTECT_WRITE. -/
def execProtectWrite (r : Req) (s : State) : Host.Outcome State Fault Refusal := .next (s.run (writeProtect r))
/-- PROTECT_CLAIM. -/
def execProtectClaim (r : Req) (s : State) : Host.Outcome State Fault Refusal := .next (s.run (claimDevice r))
/-- PROTECT_RELEASE. -/
def execProtectRelease (r : Req) (s : State) : Host.Outcome State Fault Refusal := .next (s.run (releaseDevice r))
/-- THAW_LIST. -/
def execThawList (r : Req) (s : State) : Host.Outcome State Fault Refusal := .next (s.run (listFrozen r))
/-- THAW. -/
def execThaw (r : Req) (s : State) : Host.Outcome State Fault Refusal := .next (s.run (thawRequest r))
/-- ATTEST_REPORT. -/
def execAttestReport (r : Req) (s : State) : Host.Outcome State Fault Refusal := .next (s.run (attest r))
/-- ATTEST_KEYS. -/
def execAttestKeys (r : Req) (s : State) : Host.Outcome State Fault Refusal := .next (s.run (attestationKeys r))
/-- JOURNAL_READ. -/
def execJournalRead (r : Req) (s : State) : Host.Outcome State Fault Refusal := .next (s.run (readJournal r))
/-- JOURNAL_TRIM. -/
def execJournalTrim (r : Req) (s : State) : Host.Outcome State Fault Refusal := .next (s.run (trimJournal r))

end Sys2Proof.Machine
end

