-- ==== Sys2Proof/Machine/Spares.lean ====
section
/-! DEFINITION. Spare tiles, rows, columns and banks (03 R105 to R109, R541; 08 R272; 15 R469; 17 R499 to R504). -/

namespace Sys2Proof.Machine

/-! ### Reports (R503, R504) -/

/-- PLN_SPARE_TILES of 1 and of 0 (R504). -/
def tileWear (p : Nat) (c : Ctl) : Ctl :=
  let n := c.spares.length
  let c := if n ≤ 1 then wearEvent 0x100 0 p n c else c
  if n = 0 then wearEvent 0x101 0 p n c else c

/-- Substitution or retirement of physical tile `p`, which held logical number `t`; `q` took it, 0xFF for none (Table 17.3). -/
def tileEvent (p q t : Nat) (c : Ctl) : Ctl := tileWear p (serviceEvent 1 0 (p + 256 * q + 65536 * t) c.spares.length c)

/-! ### When a tile leaves service (R107 to R109, R469) -/

/-- The Plane is between commands: none runs on it, and no drain is left. -/
def Ctl.betweenCommands (c : Ctl) : Bool :=
  c.plane.drain.isNone &&
  match c.plane.holder.bind c.job? with
  | some j => j.exec.phase == 0 && j.exec.incomplete == [] && c.plane.waitFull.isNone
  | none => true

/-- A job's list was stopped inside a command: in a pass of an array command, or with sums cut off. -/
def Ctl.midCommand (c : Ctl) (j : Job) : Bool :=
  j.running.isSome && !j.ended && (j.exec.cut.isSome || (c.plane.holder != some j.no && j.exec.phase == 1 && j.kind == .array))
/-- Rows, columns, tiles and the operating point may change: no command runs, and none is stopped inside, which would go on at
another rate (R28, R106; DEDUCED, log entry 113). -/
def Ctl.mayRetire (c : Ctl) : Bool := c.betweenCommands && !c.jobs.any c.midCommand

/-- The logs and wishes of a store start again with its new banks. -/
def freshBanks (st : Nat) (c : Ctl) : Ctl :=
  c.withStore fun s =>
    { s with bankCorr := s.bankCorr.filter fun x => x.1 / 128 ≠ st, bankUncorr := s.bankUncorr.filter fun x => x.1 / 128 ≠ st,
             bankDue := s.bankDue.filter fun x => x / 128 ≠ st }

/-- A tile must be retired and no spare remains: the Plane stops, and Lee mode takes over (R109, R506). -/
def planeStops (p : Nat) (m : Mem) (c : Ctl) : Ctl :=
  let t := (c.tile p).logical.getD 0xFF
  let c := c.setTile p { c.tile p with logical := none, retired := true }
  let c := c.withPlane fun pl => { pl with retireDue := pl.retireDue.filter (· ≠ p) }
  raiseLee 2 m (tileEvent p 0xFF t c)

/-- A tile is due for retirement under R107. -/
def retireTile (p : Nat) (m : Mem) (c : Ctl) : Ctl :=
  if (c.tile p).retired then c
  else if (c.tile p).logical.isNone then tileEvent p 0xFF 0xFF (c.setTile p { c.tile p with retired := true })
  else if c.spares = [] then planeStops p m c
  else (c.setTile p { c.tile p with passed := false }).withPlane fun pl => { pl with retireDue := if pl.retireDue.contains p then pl.retireDue else pl.retireDue ++ [p] }

/-- The record of the command of a job that a frozen tile hits: the earliest that drains, is cut off, runs on the Plane or was
stopped inside (R108; DEDUCED for commands that are stopped, log entry 114). -/
def tileHit (c : Ctl) (j : Job) : Option Nat :=
  let e := j.exec
  if j.running.isNone ∨ j.ended then none
  else
    match c.plane.drain.filter fun d => d.job = j.no, e.cut with
    | some d, _ => some d.idx
    | none, some d => some d.idx
    | none, none =>
      if c.plane.holder = some j.no then (if e.phase ≠ 0 ∨ e.incomplete ≠ [] then some (e.incomplete.headD e.pc) else none)
      else if c.midCommand j then some e.pc else none

/-- Freeze the physical tile of logical tile `t` with status `st`, where `who` names the job and the record of a command that broke a
rule: every command that the tile was working on ends, that one with `st` and the others with KS_TILE_FROZEN, and a spare takes over
where one remains (R108, R468, R469). Of the job that broke the rule, the commands before that one complete (R139). -/
def freezeTile (st : KS) (who : Option (Nat × Nat)) (t : Nat) (m : Mem) (c : Ctl) : Ctl :=
  match c.physical t with
  | none => c
  | some p =>
    if (c.tile p).frozen then c
    else
      let c := freeze 6 st 0 p 0 0 0 (c.setTile p { c.tile p with frozen := true })
      let c := c.jobs.foldl (fun c j0 =>
        match c.job? j0.no with
        | some j => (match (who.filter (·.1 = j.no)).map (·.2), tileHit c j with
          | some i, _ => failAt m j.no st i c
          | none, some i => failAt m j.no .tileFrozen i c
          | none, none => c)
        | none => c) c
      retireTile p m c

/-- Every tile that holds a logical number serves (R109, R469). -/
def Ctl.tilesServe (c : Ctl) : Bool := c.inService == 16 && c.tiles.all fun t => t.logical.isNone || !t.frozen

/-! ### Meanings -/

/-- TILE_SUBSTITUTION: between commands, with none stopped inside, the lowest-numbered spare takes the logical number of a tile
that is due (R107). -/
def substituteTile (p : Nat) (m : Mem) (c : Ctl) : Ctl :=
  if !c.plane.retireDue.contains p ∨ !c.mayRetire ∨ c.plane.copying.isSome then c
  else
    match (c.tile p).logical, c.spares.head? with
    | some t, some q =>
      -- a tile that has passed its self-test meanwhile becomes a spare (R469)
      let c := c.setTile p { c.tile p with logical := none, retired := !(c.tile p).passed, passed := false }
      let c := c.setTile q { c.tile q with logical := some t }
      let c := c.withPlane fun pl =>
        { pl with retireDue := pl.retireDue.filter (· ≠ p), copying := some t, copySince := c.us, parityTiles := pl.parityTiles.filter fun x => x.1 ≠ p }
      tileEvent p q t (count .plnSubst 0 1 (freshBanks t c))
    | _, _ =>
      if (c.tile p).passed then (c.setTile p { c.tile p with passed := false }).withPlane fun pl => { pl with retireDue := pl.retireDue.filter (· ≠ p) }
      else planeStops p m c
def execTileSubstitution (physical : Nat) (s : State) : Host.Outcome State Fault Refusal :=
  .next (s.run (substituteTile physical))

/-- A word that the copy could not read: poisoned, its data and FORMAT free values (R541). -/
def lostWord (w : Nat) (c : Ctl) : Ctl :=
  let (ds, c) := (List.range 32).foldl (fun (a : List Byte × Ctl) _ => let (f, c) := takeFree a.2; (a.1 ++ [byte f], c)) ([], c)
  let (f, c) := takeFree c
  emit (wholeWord w ds (8 + f % 7)) c
/-- The time of the copy is taken out of the waits for the store of tile `t`: of the Plane, whose wait is that of all tiles, of
the tile's own streams, of the intake, of results and of links (R541; log entry 128). -/
def copyWaits (t : Nat) (c : Ctl) : Ctl :=
  let later (s : Nat) : Nat := s + (c.us - max s c.plane.copySince)
  let c := c.withPlane fun p =>
    { p with operandWait := p.operandWait.map later, drainWait := p.drainWait.map later, waitFull := p.waitFull.map later }
  let ctx (x : Ctx) : Ctx := if x.tile = t then { x with blocked := x.blocked.map later } else x
  let reply (r : Reply) : Reply := { r with waitSince := later r.waitSince }
  let c := { c with ctxs := c.ctxs.map ctx }
  let c := c.withProto fun p => { p with replies := p.replies.map reply }
  let frame (f : Frame) : Frame := { f with since := later f.since }
  let c := (List.range 64).foldl (fun c n =>
    let x := c.intake n
    if x.waitSince.isNone then c else c.setIntake n { x with blocked := x.blocked.map later, ended := x.ended.map frame }) c
  (List.range 4).foldl (fun c p =>
    c.setPort p { c.port p with waits := (c.port p).waits.map fun w => (w.1, later w.2) }) c

/-- STORE_COPY_COMPLETE: the copy carries every word with a fresh check code; corrected ones are copied corrected; uncorrectable
ones, and the words `lost` that could not be read at all, are poisoned; both are counted (R245, R246, R541). -/
def copyDone (lost : List Nat) (m : Mem) (c : Ctl) : Ctl :=
  match c.plane.copying with
  | none => c
  | some t =>
    let lost := (lost.filter fun w => tileBase t ≤ 32 * w && 32 * w < tileBase t + tileBytes).eraseDups
    let ws := (m.listedWords (tileBase t) (tileBase t + tileBytes)).filter fun w => (m.readWord w).found ≠ .clean && !lost.contains w
    let c := freshBanks t (noteReads m ws c)
    let c := count .tstUncorr t lost.length (emit (ws.flatMap (writeBack m)) c)
    (copyWaits t (lost.foldl (fun c w => lostWord w c) c)).withPlane fun p => { p with copying := none }
def execStoreCopyComplete (s : State) (lost : List Nat := []) : Host.Outcome State Fault Refusal := .next (s.run (copyDone lost))

/-- TILE_FREEZE: a master of the tile other than its stream engine leaves its ranges (R469). -/
def execTileFreeze (tile : Nat) (s : State) : Host.Outcome State Fault Refusal := .next (s.run (freezeTile .tileFrozen none tile))

/-- TILE_SELF_TEST_COMPLETE: the tile becomes a spare, which takes a number that lacks a tile, or is retired (R469, R506). -/
def selfTestDone (p : Nat) (passes : Bool) (m : Mem) (c : Ctl) : Ctl :=
  if !(c.tile p).testing ∨ 18 ≤ p then c
  else
    let c := c.setTile p { c.tile p with testing := false, frozen := false, retired := !passes && (c.tile p).logical.isNone,
                                         passed := passes && (c.tile p).logical.isSome }
    let t := if (c.tile p).logical.isSome then none else (List.range 16).find? fun t => (c.physical t).isNone
    match passes, t with
    | true, some t =>
      -- a logical number without a tile: the thawed tile takes it, and the store is copied (R541)
      let c := (c.setTile p { c.tile p with logical := some t }).withPlane fun pl => { pl with copying := some t, copySince := c.us }
      clearLee 2 m (tileEvent 0xFF p t (count .plnSubst 0 1 c))
    | _, _ => tileEvent p 0xFF 0xFF c

/-! ### Bank spares (R272, R501) -/

/-- The `n`-th built row, column or bank that is not retired (R105, R231). -/
def builtIndex (retired : List Nat) (built n : Nat) : Nat := ((List.range built).filter fun b => !retired.contains b).getD n 0

/-- Words of an in-service bank of a store that hold a flaw. -/
def bankFlaws (m : Mem) (st bank : Nat) : List Nat :=
  (m.listedWords (storeBase st) (storeBase st + storeBytes st)).filter fun w =>
    (bankOf st (32 * w - storeBase st)).1 = bank && (m.readWord w).found ≠ .clean

/-- No Gale run is running or ready. -/
def Ctl.galeIdle (c : Ctl) : Bool := !c.jobs.any fun j => j.cls == 0 && j.running.isSome && !j.ended
/-- A preemption point of a Breeze or Lull list, or an idle Plane (R97, R140, R272). -/
def Ctl.atPoint (c : Ctl) : Bool :=
  match c.plane.holder.bind c.job? with
  | some j => j.cls != 0 && (stopAt c j == .clean || stopAt c j == .inside)
  | none => c.plane.drain.isNone

/-- BANK_SUBSTITUTION: a spare bank takes the failing bank's number; with none left the tile is retired (R272). A bank of the common
store that is due with no spare left stays due (DESIGN CHOICE, log entry 127). -/
def substituteBank (st bank : Nat) (m : Mem) (c : Ctl) : Ctl :=
  let k := st * 128 + bank
  if !c.store.bankDue.contains k ∨ 17 ≤ st ∨ !c.atPoint ∨ !c.galeIdle ∨ c.service.lee then c
  else
    let forget (c : Ctl) : Ctl := c.withStore fun s =>
      { s with bankDue := s.bankDue.filter (· ≠ k), bankCorr := s.bankCorr.filter fun x => x.1 ≠ k,
               bankUncorr := s.bankUncorr.filter fun x => x.1 ≠ k }
    -- the copy reads every word of the bank (R245, R246)
    let done (c : Ctl) : Ctl :=
      count .tstBankSubst 0 1 (forget (emit ((bankFlaws m st bank).flatMap (writeBack m)) (noteReads m (bankFlaws m st bank) c)))
    if st = 16 then
      if c.store.cstRetBank.isSome then c
      else
        let c := (done c).withStore fun s => { s with cstRetBank := some (builtIndex [] 33 bank) }
        wearEvent 0x310 2 0xFF 0 (serviceEvent 3 2 0xFF (builtIndex [] 33 bank) c)
    else
      match c.physical st with
      | none => c
      | some p =>
        let l := (c.tile p).retBanks
        if 2 ≤ l.length then retireTile p m (forget c)
        else
          let built := builtIndex l 66 bank
          let c := done (c.setTile p { c.tile p with retBanks := l ++ [built] })
          let c := serviceEvent 3 1 p built c
          if l.length = 1 then wearEvent (0x300 + p) 1 p 0 c else c
def execBankSubstitution (store bank : Nat) (s : State) : Host.Outcome State Fault Refusal :=
  .next (s.run (substituteBank store bank))

/-! ### The Plane test (R500) -/

/-- A failing cell of a test that began with the tiles of `c0`: its row is retired, or its column, or the tile; a cell whose row
or column the test has retired needs no more (R105, R499, R500). A Plane test counts the failure. -/
def cellFails (plane : Bool) (m : Mem) (c0 : Ctl) (f : Nat × Nat × Nat) (c : Ctl) : Ctl :=
  let (t, row, col) := f
  match c.physical t with
  | none => c
  | some p =>
    let x := c.tile p
    let row := builtIndex (c0.tile p).retRows 258 row
    let col := builtIndex (c0.tile p).retCols 258 col
    let c := serviceEvent 2 0 p c.plane.lastTest (if plane then count .svcPlaneTestFail t 1 c else c)
    if x.retRows.contains row ∨ x.retCols.contains col then c
    else if x.retRows.length < 2 then
      let c := c.setTile p { x with retRows := x.retRows ++ [row] }
      if x.retRows.length = 1 then wearEvent (0x200 + p) 0 p 0 c else c
    else if x.retCols.length < 2 then
      let c := c.setTile p { x with retCols := x.retCols ++ [col] }
      if x.retCols.length = 1 then wearEvent (0x220 + p) 0 p 0 c else c
    else retireTile p m c

/-- The test took one slice, of 50 µs: it is charged to the Breeze job that holds the Plane, and else to the Plane's own busy time
(R39, R500; log entry 136). -/
def chargeSlice (c : Ctl) : Ctl :=
  match c.plane.holder.bind c.job? with
  | some h => if h.cls = 1 then c.mapJob h.no fun j => { j with quantumUsed := j.quantumUsed + 50000 } else c
  | none => c.withPlane fun p => { p with busyLog := p.busyLog ++ [(c.clk.ns - 50000, min 50000 c.clk.ns)] }
/-- PLANE_TEST: the cells (logical tile, active row, active column) whose output differed. -/
def planeTest (failing : List (Nat × Nat × Nat)) (m : Mem) (c : Ctl) : Ctl :=
  if !c.mayRetire ∨ !c.galeIdle ∨ !c.tilesServe ∨ c.plane.copying.isSome then c
  else
    let c := chargeSlice c
    let c := failing.foldl (fun d f => cellFails true m c f d) c
    if failing = [] then c.withPlane fun p => { p with lastTest := c.clk.device } else c
def execPlaneTest (failing : List (Nat × Nat × Nat)) (s : State) : Host.Outcome State Fault Refusal :=
  .next (s.run (planeTest failing))

end Sys2Proof.Machine
end

