-- ==== Sys2Proof/Machine/Streams.lean ====
section
/-! DEFINITION. The stream engines: start, issue, delivery, the governor, halts and resumes (09_streams.md R275 to R308). -/

namespace Sys2Proof.Machine

/-! ### The activation table (R158) -/

/-- The command has a table activation. -/
def hasTable (r : Nat) : Bool := (rChain r).any fun s => sOp s == 0x81 && sSel s == 0x10
/-- What the prologue's load of the table meets, the reads, and the knots by tile: each tile loads its own part through the tag;
a knot of a poisoned word is void. -/
def readTable (m : Mem) (c : Ctl) (j : Job) (r : Nat) : List (Nat × List F32) × List (List Byte) × Port :=
  let (l, p) := (readAll (fun t => do
    let ws ← readAll (fun i => readW m c j true (rHandle r 11) t (32 * i)) (List.range 33)
    let knots := ws.flatMap fun w => (List.range 8).map fun k =>
      if w.poison then f32Void else BitVec.ofNat 32 (leNat (slice w.data (4 * k) 4))
    return ((t, knots.take 257), slice (ws.flatMap (·.data)) 1028 28)) (List.range 16)).run Port.empty
  (l.map (·.1), l.map (·.2), p)
/-- The load of the table. -/
inductive TableLoad where
  | ready (knots : List (Nat × List F32)) (reads : Port)
  | wait (on : List (Nat × Nat))
  | outside (tile : Nat)
  | bad
  deriving DecidableEq, Repr
def loadTable (m : Mem) (c : Ctl) (j : Job) (r : Nat) : TableLoad :=
  if !hasTable r then .ready [] Port.empty
  else
    let (knots, pads, p) := readTable m c j r
    match p.outside with
    | some t => .outside t
    | none =>
      if p.wait then .wait p.waitOn
      else if pads.any fun l => l.any (· ≠ 0) then .bad
      else .ready knots p

/-! ### What a blocked master waits for -/

/-- The load of the table is what the command at record `i` waits for: its row pairs, or its rows, have not begun. -/
def tableDue (m : Mem) (c : Ctl) (j : Job) (i : Nat) : List (Nat × Nat) :=
  match loadTable m c j (j.cmd i) with
  | .wait on => on
  | _ => []
/-- Empty slots that the Plane's operand port, or a vector-only command, waits on: (handle, tag key), and whether it waits on
pages alone. -/
def operandWait (m : Mem) (c : Ctl) (j : Job) : Option (List (Nat × Nat) × Bool) :=
  if c.plane.operandWait.isNone then none
  else if j.kind = .array ∧ j.exec.phase = 1 then
    let e := j.exec
    let t := if e.pass = 0 ∧ e.step = 0 ∧ e.grp = 0 ∧ e.table = [] then tableDue m c j e.pc else []
    if t ≠ [] then some (t, false)
    else
      let p := ((allGroups m c j j.now e).run Port.empty).2
      some (p.waitOn, p.waitOn = [] && p.miss ≠ [])
  else
    match c.plane.drain with
    | some d =>
      let t := if d.table = [] then tableDue m c j d.idx else []
      if t ≠ [] then some (t, false)
      else
        (match completeDrain m d j c with
        | .error (.operandWait miss on, _) => some (on, on = [] && miss ≠ [])
        | _ => some ([], false))
    | none => some ([], false)
/-- Slots that the drain waits on: full ones that it writes, or empty ones of a stage operand. -/
def drainWait (m : Mem) (c : Ctl) : Option (Job × Drain × List (Nat × Nat)) :=
  match c.plane.drain with
  | none => none
  | some d =>
    match c.job? d.job with
    | some j =>
      if c.plane.drainWait.isNone then none
      else match completeDrain m d j c with
        | .error (.drainWait on, _) => some (j, d, on)
        | _ => some (j, d, [])
    | none => none
/-- Parts of the slot that OP_WAIT_FULL waits on. -/
def fullWait (c : Ctl) (j : Job) : List (Nat × Nat) :=
  let w := rWord1 j.now
  match j.handle? (bits w 7 0) with
  | some e => ((e.slotKeys (bits w 47 16)).filter fun k => !c.slotFull k).map fun k => (bits w 7 0, k)
  | none => []
/-- Slots that hold the next piece of a stream, or one that waits at grant. -/
def streamWait (m : Mem) (c : Ctl) (j : Job) (x : Ctx) : List (Nat × Nat) :=
  let r := j.stream x.pos.record
  let next : List (Nat × Nat) := match nextPiece m j x.pos x.refetch with
    | none => []
    | some q =>
      (match j.handle? (tSlotHandle r) with
        | some e => if c.slotFull (e.slotKey x.tile x.pos.slot) = tStore r then [] else [(tSlotHandle r, e.slotKey x.tile x.pos.slot)]
        | none => [])
      ++ (match j.handle? (tMemHandle r) with
        | some e => ((memSlotsOf j r q).map (e.slotKey x.tile)).filter (fun k => c.slotFull k == tStore r) |>.map fun k => (tMemHandle r, k)
        | none => [])
  let due : Bool := !x.pos.halted && (tStrided r || decide ((x.refetch.headD x.pos.block) < x.fetched))
  (if due then next else [])
    ++ (c.xfers.filter fun y => y.tile = x.tile && y.job = x.job && y.record = x.pos.record).flatMap fun y => y.waits j c

/-- Visits of slots that a stream at position `p` has still to end. -/
def visitsLeft (m : Mem) (j : Job) (p : StreamPos) : Nat :=
  let r := j.stream p.record
  if tStrided r then
    let run := bits (j.descOf m r) 70 64 + 1
    let sw := ((j.handle? (tSlotHandle r)).map (·.slotBytes / 32)).getD 0
    cdiv (p.slotWord + (j.pieces m r - p.block) * run - p.part) (max 1 sw)
  else
    let ends := (List.range (tBlocks r - p.block)).map fun i =>
      bit (leNat ((j.vaBytes m (tDesc r + 16 * (p.block + i)) 16).getD [])) 56
    ends.countP id + b2n (!ends.getLastD true)
/-- A stream of the job halted on a page would set the slot of a tag key full (R304). -/
def haltedFills (m : Mem) (c : Ctl) (j : Job) (w : Nat × Nat) : Bool :=
  c.ctxs.any fun x =>
    let r := j.stream x.pos.record
    x.job == j.no && x.pos.halted && !tStore r && tSlotTags r && tSlotHandle r == w.1 &&
    match j.handle? w.1 with
    | some e => (List.range (min e.slotCount (visitsLeft m j x.pos))).any fun i =>
        e.slotKey x.tile ((x.pos.slot + i) % max 1 e.slotCount) == w.2
    | none => false
/-- A wait that only streams halted on pages would end (R304). -/
def onHalted (m : Mem) (c : Ctl) (j : Job) (on : List (Nat × Nat)) : Bool := on ≠ [] && on.all (haltedFills m c j)

/-! ### Contexts -/

/-- A context is held by a stream or by a freeze (R279, R470). -/
def Ctl.ctxBusy (c : Ctl) (tile n : Nat) : Bool :=
  c.ctxs.any (fun x => x.tile = tile && x.ctx = n) || c.sec.frozen.any fun f => f.kind = 1 && f.tile = tile && f.ctx = n

/-- Put a stream into the lowest free context of its engine (R275). While its job is off the Plane, or no context is free
(R470), the stream waits among the job's saved ones. -/
def openCtx (j : Job) (p : StreamPos) (refetch : List Nat) (c : Ctl) : Ctl :=
  let tile := tTile (j.stream p.record)
  match (List.range 16).find? fun n => !c.ctxBusy tile n, c.plane.holder == some j.no with
  | some n, true =>
    let x : Ctx := { tile := tile, ctx := n, job := j.no, pos := p, refetch := refetch, fetched := p.slotFirst, blocked := none, kept := [] }
    { c with ctxs := c.ctxs ++ [x] }
  | _, _ => c.mapJob j.no fun k => { k with saved := k.saved ++ [p] }

/-- The last array command of a list before index `k`. -/
def Job.prevArray (j : Job) (k : Nat) : Option Nat :=
  ((List.range k).filter fun i => opKind (rOp (j.cmds.getD i 0)) = .array).getLast?

/-- Start streams of a job, picked by their records, in the order of its stream list (R278). -/
def startStreams (j : Job) (pick : Nat → Bool) (c : Ctl) : Ctl :=
  (List.range j.streams.length).foldl (fun c i =>
    if pick (j.stream i) then openCtx j (StreamPos.start i (j.stream i)) [] c else c) c
/-- START 0 streams of a command that begins. -/
def startWith (j : Job) (idx : Nat) : Ctl → Ctl := startStreams j fun r => tStart r == 0 && tCmd r == idx
/-- START 1 streams that the start of array command `n` releases; with none, those that the job's start releases. -/
def startAhead (j : Job) (n : Option Nat) : Ctl → Ctl := startStreams j fun r => tStart r == 1 && j.prevArray (tCmd r) == n
/-- START 2 streams of a command that is complete. -/
def startAfter (j : Job) (idx : Nat) : Ctl → Ctl := startStreams j fun r => tStart r == 2 && tCmd r == idx

/-- Halo blocks to issue again when a block-list stream resumes (R303). -/
def haloAgain (m : Mem) (j : Job) (p : StreamPos) : List Nat :=
  let r := j.stream p.record
  if tStrided r then []
  else (List.range p.block).filter fun b =>
    p.slotFirst ≤ b && bit (leNat ((j.vaBytes m (tDesc r + 16 * b) 16).getD [])) 55

/-- The page of a stream's next transfer is flash-backed and not resident. -/
def pageMissing (m : Mem) (j : Job) (p : StreamPos) : Bool :=
  !tSpace (j.stream p.record) &&
  match haltPiece m j p with
  | some q => (match j.page? q.mem with | some e => e.flash && !e.resident | none => false)
  | none => false

/-- A transfer of the stream at position `p` is in flight. -/
def Ctl.flying (c : Ctl) (no : Nat) (p : StreamPos) : Bool := c.xfers.any fun x => x.job == no && x.record == p.record && !x.listRead
/-- A saved stream resumes, unless it has ended: no piece is left and none in flight. One that halted goes on once its page is
resident and what it issued before is delivered (R302, R303). -/
def resumeStream (m : Mem) (no : Nat) (p : StreamPos) (c : Ctl) : Ctl :=
  match c.job? no with
  | none => c
  | some j =>
    if (j.piece? m p).isNone && !c.flying no p then c
    else
      let halted := p.halted && (pageMissing m j p || c.flying no p)
      let c := if p.halted && !halted then noteMove no c else c
      openCtx j { p with halted := halted, again := if halted then p.again else none } (if halted then [] else haloAgain m j p) c
/-- The saved streams of a job that `pick` names resume (R300). -/
def resumeStreams (m : Mem) (no : Nat) (pick : StreamPos → Bool) (c : Ctl) : Ctl :=
  match c.job? no with
  | none => c
  | some j =>
    (j.saved.filter pick).foldl (fun c p => resumeStream m no p c)
      (c.mapJob no fun k => { k with saved := k.saved.filter fun p => !pick p })

/-- The wait of the Plane's list, in its operand port, its drain or OP_WAIT_FULL, counts from now on where only streams that were
halted would have ended it (R304). -/
def restartWaits (m : Mem) (c0 c : Ctl) : Ctl :=
  match c0.plane.holder.bind c0.job? with
  | none => c
  | some j =>
    let again (o : Option Nat) (on : List (Nat × Nat)) : Option Nat := if onHalted m c0 j on then o.map fun _ => c.us else o
    let op := match operandWait m c0 j with | some w => w.1 | none => []
    let dr := match drainWait m c0 with | some w => w.2.2 | none => []
    let c := c.withPlane fun p =>
      { p with operandWait := again p.operandWait op, drainWait := again p.drainWait dr, waitFull := again p.waitFull (fullWait c0 j) }
    { c with ctxs := c.ctxs.map fun x => if x.job = j.no then { x with blocked := again x.blocked (streamWait m c0 j x) } else x }

/-- Streams that halted on a page resume once it is resident and their earlier transfers are delivered (R302, R303); the page is
kept for them (R301). -/
def unhalt (m : Mem) (c : Ctl) : Ctl :=
  let goes (j : Job) (x : Ctx) : Bool := x.pos.halted && !pageMissing m j x.pos && !c.flying x.job x.pos
  let wake (x : Ctx) : Ctx :=
    match c.job? x.job with
    | some j =>
      if goes j x then
        let page := ((haltPiece m j x.pos).bind fun q => j.page? q.mem).toList.map fun p => (p.flashAddr, p.big)
        { x with pos := { x.pos with halted := false, again := none }, refetch := haloAgain m j x.pos, fetched := min x.fetched x.pos.slotFirst,
                 kept := x.kept ++ page }
      else x
    | none => x
  let woken := c.ctxs.filter fun x => match c.job? x.job with | some j => goes j x | none => false
  if woken = [] then c
  else woken.foldl (fun c x => noteMove x.job c) (restartWaits m c { c with ctxs := c.ctxs.map wake })

/-! ### Faults of a stream (R308) -/

/-- A stream ends its job, with its context frozen or not, naming the command that it serves (R148, R308). -/
def streamFault (m : Mem) (st : KS) (frozen : Bool) (x : Ctx) (c : Ctl) : Ctl :=
  match c.job? x.job with
  | none => c
  | some j =>
    let idx := tCmd (j.stream x.pos.record)
    let c := if st = .badDescriptor then count .strDescFault 0 1 c else c
    let c := if frozen then freeze 1 st x.job x.tile x.ctx idx (rTag (j.cmds.getD idx 0)) c else c
    failAt m x.job st idx c

/-! ### Issue (R283 to R299, R305) -/

/-- Bytes of the slots that a position has moved past or stands in: (slots moved past, slot, bytes), in order. -/
def visitBytes (m : Mem) (j : Job) (p : StreamPos) : List (Nat × Nat × Nat) :=
  let r := j.stream p.record
  match j.handle? (tSlotHandle r) with
  | none => []
  | some e =>
    if tStrided r then
      let total := (p.block * (bits (j.descOf m r) 70 64 + 1) + p.part) * 32
      (List.range (p.visit + 1)).map fun v =>
        (v, (tSlotFirst r + v) % max 1 e.slotCount, if v < p.visit then min e.slotBytes (total - v * e.slotBytes) else p.slotWord * 32)
    else
      let step (a : List (Nat × Nat × Nat) × Nat × Nat) (b : Nat) : List (Nat × Nat × Nat) × Nat × Nat :=
        let q := blockPiece r e.slotBytes e.bytes (leNat ((j.vaBytes m (tDesc r + 16 * b) 16).getD []))
        let n := a.2.2 + 32 * q.words
        if q.endSlot then (a.1 ++ [(a.2.1, (tSlotFirst r + a.2.1) % max 1 e.slotCount, n)], a.2.1 + 1, 0) else (a.1, a.2.1, n)
      let (l, v, n) := (List.range p.block).foldl step ([], 0, 0)
      l ++ [(v, (tSlotFirst r + v) % max 1 e.slotCount, n)]

/-- The last visit of each slot of a stream. -/
def lastVisits (l : List (Nat × Nat × Nat)) : List (Nat × Nat × Nat) :=
  l.filter fun a => !(l.any fun b => b.2.1 == a.2.1 && decide (a.1 < b.1))

/-- Dry time in units of 16 ns (R297). -/
def dryTime (m : Mem) (c : Ctl) (j : Job) (x : Ctx) : Nat :=
  let r := j.stream x.pos.record
  let begun : Bool := tCmd r < j.exec.pc || (tCmd r == j.exec.pc && j.exec.phase != 0)
  if tRate r = 0 ∨ (tStart r = 1 ∧ !begun) then 0xFFFF
  else
    match j.handle? (tSlotHandle r) with
    | none => 0xFFFF
    | some e =>
      let vs := lastVisits (visitBytes m j x.pos)
      let flying (v : Nat) : Bool := c.xfers.any fun y => y.tile == x.tile && y.job == x.job && y.record == x.pos.record && y.visit == v
      let full (s : Nat) : Bool := c.slotFull (e.slotKey x.tile s)
      -- a stream that sets no tags: the slot's tag has not changed since the stream moved past it, so nobody has set it empty
      let same (s : Nat) : Bool := !tSlotTags r && SMap.get 0 c.tagTimes (e.slotKey x.tile s) ≤ SMap.get 0 x.pos.past s
      let bytes :=
        if tStore r then
          (vs.filter fun a => tSlotTags r && decide (a.1 < x.pos.visit) && !flying a.1 && !full a.2.1).length * e.slotBytes
        else ((vs.filter fun a => a.1 == x.pos.visit || flying a.1 || full a.2.1 || same a.2.1).map fun a => a.2.2).sum
      min 0xFFFE (bytes * 1000 / (128 * tRate r))

/-- The transfer tag a context may take (R290). -/
def freeTag (c : Ctl) (cls : Nat) (x : Ctx) : Option Nat :=
  let free (t : Nat) : Bool := !(c.xfers.any fun y => y.tile = x.tile && y.tag = t)
  let upper := ((List.range 192).map (64 + ·)).find? free
  if cls = 0 then ((List.range 64).find? free).orElse fun _ => upper
  else if (c.xfers.countP fun y => y.tile = x.tile && y.ctx = x.ctx) < c.param 0x0905 then upper
  else none

/-- What stands between a context and its next transfer. -/
inductive Ready where
  | none
  | bad
  | blocked
  | noTag
  | noBudget
  | yes (q : Piece) (tag : Nat)
  deriving DecidableEq, Repr

/-- Bytes charged for a piece to the HBM and the NoC budgets (R291). -/
def pieceCharge (j : Job) (x : Ctx) (q : Piece) : Nat × Nat :=
  let r := j.stream x.pos.record
  if !tSpace r then (hbmCharge (32 * q.words), 0)
  else
    let part (h : Nat) : Nat := match j.handle? h with | some e => if e.place = 1 then e.home else x.tile | none => x.tile
    (0, if part (tSlotHandle r) = x.tile ∧ part (tMemHandle r) = x.tile then 0 else nocCharge (32 * q.words))

/-- A stream that sets slot tags comes round to a slot only after it has left it (R281, R282; log entry 30). -/
def comesRound (x : Ctx) (r : Nat) (c : Ctl) : Bool :=
  tSlotTags r && c.xfers.any fun y =>
    y.tile == x.tile && y.job == x.job && y.record == x.pos.record && !y.listRead && y.slot == x.pos.slot && y.visit != x.pos.visit

/-- Slot checks of R283. -/
def slotsReady (j : Job) (x : Ctx) (q : Piece) (c : Ctl) : Bool :=
  let r := j.stream x.pos.record
  let slotOk : Bool := match j.handle? (tSlotHandle r) with
    | some e => c.slotFull (e.slotKey x.tile x.pos.slot) == tStore r
    | none => false
  let memOk : Bool := match j.handle? (tMemHandle r) with
    | some e => (memSlotsOf j r q).all fun s => c.slotFull (e.slotKey x.tile s) != tStore r
    | none => true
  slotOk && memOk

def ready (m : Mem) (c : Ctl) (j : Job) (x : Ctx) : Ready :=
  let r := j.stream x.pos.record
  if x.pos.halted then .none
  else
    match nextPiece m j x.pos x.refetch with
    | none => .none
    | some q =>
      if !tStrided r && x.fetched ≤ (x.refetch.headD x.pos.block) then .none
      else if q.bad then .bad
      else if comesRound x r c then .none
      else if !slotsReady j x q c then .blocked
      else
        match freeTag c j.cls x with
        | none => .noTag
        | some t =>
          let (h, n) := pieceCharge j x q
          if (h = 0 || hbmRoom c x.tile j.cls h) && (n = 0 || nocRoom c x.tile j.cls n) then .yes q t else .noBudget

/-- Where a piece's memory side lies, or the status that ends its stream; `none` inside: the page is not resident. -/
def memSide (c : Ctl) (j : Job) (x : Ctx) (q : Piece) : Except KS (Option Nat) :=
  let r := j.stream x.pos.record
  if tSpace r then
    match j.handle? (tMemHandle r) with
    | some e => if tStore r && !e.write then .error .addressFault else .ok (some (e.addr x.tile q.mem))
    | none => .error .addressFault
  else
    match j.page? q.mem with
    | none => .error .addressFault
    | some p =>
      if tStore r && !j.mayWrite p then .error .addressFault
      else if p.flash && !p.resident then
        -- an aperture address without an installed bundle (R350)
        if c.installed (p.flashAddr + (q.mem - p.va)) then .ok none else .error .addressFault
      else .ok (some (p.frame + (q.mem - p.va)))

/-- Issue a piece of a context (R264, R280, R289 to R291, R301, R305, R348). -/
def issue (m : Mem) (j : Job) (x : Ctx) (q : Piece) (tag : Nat) (c : Ctl) : Ctl :=
  let r := j.stream x.pos.record
  let put (y : Ctx) (c : Ctl) : Ctl := { c with ctxs := c.ctxs.map fun z => if z.tile = x.tile ∧ z.ctx = x.ctx then y else z }
  match j.handle? (tSlotHandle r) with
  | none => c
  | some e =>
    match memSide c j x q with
    | .error st => streamFault m st true x c
    | .ok none =>
      let c := count .strHalt x.tile 1 (put { x with pos := { x.pos with halted := true, again := x.refetch.head? } } c)
      (match j.page? q.mem with
        | some p => requestPage p.flashAddr p.big j.cls c
        | none => c)
    | .ok (some mem) =>
      let slot := e.addr x.tile (x.pos.slot * e.slotBytes + 32 * q.slotWord)
      let n := 32 * q.words
      let dst := if tStore r then mem else slot
      let home : Nat := match regionOf dst with | .tile t => t | _ => x.tile
      if !tStore r && !e.write then streamFault m .addressFault true x c
      else if home ≠ x.tile ∧ !windowOpen c x.tile dst n then streamFault m .windowFault true x c
      else if !tSpace r ∧ c.hbmFailed mem q.words then streamFault m .hbmFault false x c
      else
        let f : Xfer := { tile := x.tile, tag := tag, ctx := x.ctx, job := x.job, record := x.pos.record,
                          src := if tStore r then slot else mem, dst := dst, words := q.words, slot := x.pos.slot,
                          visit := x.pos.visit, hbm := !tSpace r, listRead := false, issued := c.clk.ns }
        let c := if tSpace r then c else touchFrames [mem / 32] c
        let (h, k) := pieceCharge j x q
        let c := chargeEngine x.tile j.cls h k c
        let c := if q.halo then count .plnHaloRow x.tile 1 c else c
        let c := if x.refetch = [] then c else count .strRefetch x.tile 1 c
        let c := if !tSpace r && n < 512 then count .strSmall x.tile 1 c else c
        let y := match x.refetch with
          | _ :: t => { x with refetch := t }
          | [] =>
            let p := x.pos.after r (j.descOf m r) e.slotCount q
            { x with pos := if p.visit = x.pos.visit then p else { p with past := SMap.insert p.past x.pos.slot c.clk.ns } }
        noteMove x.job { put y c with xfers := c.xfers ++ [f] }

/-- The contexts of a tile that serve the job that holds the Plane (R275). -/
def Ctl.engine (c : Ctl) (tile : Nat) : List Ctx :=
  if c.plane.copying = some tile then [] else c.ctxs.filter fun x => x.tile = tile && c.plane.holder == some x.job

/-- Streams of the job that holds the Plane that wait for a free context of the tile's engine take one (R275, R470). -/
def openWaiting (tile : Nat) (m : Mem) (c : Ctl) : Ctl :=
  match c.plane.holder.bind c.job? with
  | some j =>
    if (List.range 16).any fun n => !c.ctxBusy tile n then
      resumeStreams m j.no (fun p => tTile (j.stream p.record) == tile) c
    else c
  | none => c
/-- A transfer of the context waits at grant on a slot's tag: its stream is blocked (R283). -/
def waitsAtGrant (j : Job) (x : Ctx) (c : Ctl) : Bool :=
  c.xfers.any fun y => y.tile == x.tile && y.job == x.job && y.record == x.pos.record && !y.granted j c

/-- One clock of an engine's issue (R298): waits are counted, and the context with the least dry time issues. -/
def issueNext (tile : Nat) (m : Mem) (c : Ctl) : Ctl :=
  let c := openWaiting tile m (unhalt m c)
  match c.plane.holder.bind c.job? with
  | none => c
  | some j =>
    let xs := (c.engine tile).map fun x => (x, ready m c j x)
    let has (f : Ready → Bool) : Bool := xs.any fun p => f p.2
    let c := if has (· == .noTag) then count .strTagWait tile 1 c else c
    let c := if has (· == .noBudget) then count .strGovWait (tile * 3 + j.cls) 1 c else c
    let mark (x : Ctx) : Ctx :=
      match xs.find? fun p => p.1.tile = x.tile && p.1.ctx = x.ctx with
      | some p => if p.2 = .blocked ∨ waitsAtGrant j p.1 c then { x with blocked := x.blocked.orElse fun _ => some c.us }
                  else { x with blocked := none }
      | none => x
    let c := { c with ctxs := c.ctxs.map mark }
    let go := (xs.filter fun p => match p.2 with | .bad => true | .yes _ _ => true | _ => false).map fun p => (dryTime m c j p.1 * 16 + p.1.ctx, p)
    match go.find? fun a => go.all fun b => a.1 ≤ b.1 with
    | none => c
    | some (_, x, .yes q t) =>
      let x := { x with blocked := if waitsAtGrant j x c then x.blocked.orElse fun _ => some c.us else none }
      issue m j x q t c
    | some (_, x, _) => streamFault m .badDescriptor false x c

/-- TRANSFER_ISSUE (R298). -/
def execTransferIssue (tile : Nat) (s : State) : Host.Outcome State Fault Refusal := .next (s.run (issueNext tile))

/-- Read the next run of up to 128 entries of a context's block list (R280); a failed channel ends its job (R348). -/
def fetchList (tile n : Nat) (m : Mem) (c : Ctl) : Ctl :=
  match (c.engine tile).find? fun x => x.ctx = n with
  | none => c
  | some x =>
    match c.job? x.job with
    | none => c
    | some j =>
      let r := j.stream x.pos.record
      let left := min 128 (tBlocks r - x.fetched)
      let a := tDesc r + 16 * x.fetched
      let flying := c.xfers.any fun y => y.tile = tile && y.ctx = n && y.listRead
      let charge := hbmCharge (16 * left)
      if tStrided r ∨ left = 0 ∨ flying ∨ x.pos.halted then c
      else
        match freeTag c j.cls x, j.page? a with
        | some t, some p =>
          let src := (p.frame + (a - p.va)) / 32 * 32
          let words := cdiv (a % 32 + 16 * left) 32
          if !hbmRoom c tile j.cls charge then count .strGovWait (tile * 3 + j.cls) 1 c
          else if c.hbmFailed src words then streamFault m .hbmFault false x c
          else
            let f : Xfer := { tile := tile, tag := t, ctx := n, job := j.no, record := x.pos.record,
                              src := src, dst := 0, words := words,
                              slot := x.fetched + left, visit := x.pos.visit, hbm := true, listRead := true, issued := c.clk.ns }
            noteMove j.no (chargeEngine tile j.cls charge 0 { c with xfers := c.xfers ++ [f] })
        | none, _ => count .strTagWait tile 1 c
        | _, none => c

/-- BLOCK_LIST_FETCH (R280). -/
def execBlockListFetch (tile context : Nat) (s : State) : Host.Outcome State Fault Refusal :=
  .next (s.run (fetchList tile context))

/-- An older transfer of the same engine touches what `x` writes, or writes what `x` reads: it is delivered first, in HBM and within
a stream (R285, R340), and in a store where no tag holds it back (R239, R254). -/
def overtakes (x : Xfer) (older : List Xfer) (j : Job) (c : Ctl) : Bool :=
  let meet (a b k l : Nat) : Bool := !(a + 32 * b ≤ k || k + 32 * l ≤ a)
  older.any fun y => y.tile == x.tile && y.tag != x.tag && !y.listRead && !x.listRead &&
    (meet y.dst y.words x.dst x.words && (regionOf x.dst == .hbm || y.sameStream x || y.granted j c)
      || meet y.dst y.words x.src x.words && (regionOf x.src == .hbm || y.granted j c)
      || meet y.src y.words x.dst x.words && (regionOf x.dst == .hbm || y.granted j c))

/-- Nothing but the HBM scheduler holds the delivery of a transfer back. -/
def Ctl.deliverable (c : Ctl) (x : Xfer) : Bool :=
  match c.job? x.job with
  | none => true
  | some j =>
    x.granted j c && !overtakes x ((c.xfers.takeWhile (· ≠ x)).filter fun y => y.job == x.job) j c && !c.copyHolds x.src
      && (x.listRead || !c.copyHolds x.dst)
/-- Level of R342 of a transfer's requests in pseudo-channel `pc`: 2 a non-Gale one that has waited 1.0 µs, 3 Gale, 4 one that has
waited 256 clocks (214 ns), 5 one to an open row, 6 any other. -/
def hbmLevel (c : Ctl) (pc : Nat) (x : Xfer) : Nat :=
  let gale : Bool := match c.job? x.job with | some j => j.cls == 0 | none => false
  let wait := c.clk.ns - x.issued
  if !gale ∧ 1000 ≤ wait then 2
  else if gale then 3
  else if 214 ≤ wait then 4
  else if x.places.any fun p => p.1 == pc && (c.bank (p.1 * 48 + p.2.1)).openRow == some p.2.2 then 5
  else 6
/-- The scheduler of a pseudo-channel that both reach serves another transfer before `x`: one of a better level there, or an older
one of the same (R41, R342). The requests of a transfer are served together, and page-ins, write-backs and the vector units' own
reads are not ranked against transfers (DESIGN CHOICE, log entry 112). -/
def servedLater (c : Ctl) (x : Xfer) : Bool :=
  let older := c.xfers.takeWhile (· ≠ x)
  (x.places.map (·.1)).eraseDups.any fun pc => c.xfers.any fun y =>
    y != x && y.places.any (fun p => p.1 == pc) && c.deliverable y &&
      (hbmLevel c pc y < hbmLevel c pc x || (hbmLevel c pc y == hbmLevel c pc x && older.contains y))

/-- A transfer is delivered once its slots' tags grant it and the HBM scheduler serves it; one that waits at grant makes its
stream a blocked one (R254, R283). -/
def deliverTag (tile tag : Nat) (m : Mem) (c : Ctl) : Ctl :=
  match c.xfers.find? fun x => x.tile = tile && x.tag = tag with
  | none => c
  | some x =>
    if c.deliverable x then (if servedLater c x then c else deliver m x c)
    else
      match c.job? x.job with
      | none => c
      | some j =>
        let put (y : Ctx) : Ctx :=
          if y.tile = x.tile ∧ y.job = x.job ∧ y.pos.record = x.record ∧ !x.granted j c ∧ c.plane.holder = some x.job then
            { y with blocked := y.blocked.orElse fun _ => some c.us }
          else y
        { c with ctxs := c.ctxs.map put }

/-- TRANSFER_DELIVERED (R289). -/
def execTransferDelivered (tile tag : Nat) (upsets : List Upset) (s : State) : Host.Outcome State Fault Refusal :=
  .next (s.run (withUpsets upsets (deliverTag tile tag)))

/-- GOVERNOR_WINDOW (R294): every budget is whole again, by the governor parameters as they now stand (13 R417). -/
def renewBudgets (_m : Mem) (c : Ctl) : Ctl := { c with charges := [], govHeld := [] }
def execGovernorWindow (s : State) : Host.Outcome State Fault Refusal := .next (s.run renewBudgets)

end Sys2Proof.Machine
end

