-- ==== Sys2Proof/Machine/Crosswind.lean ====
section
/-! DEFINITION. Crosswind links and device groups: packets, control blocks, sends, spares, members and GROUP requests
(14_crosswind_groups.md; 15 R455). -/

namespace Sys2Proof.Machine

/-! ### Statuses and the ends of group runs (R442, R445) -/

/-- Every status, in the order of its code. -/
def ksAll : List KS :=
  [.ok, .badPacket, .badVersion, .badType, .badReserved, .duplicateId, .pending, .busy, .badSequence, .epochChanged,
   .notPermitted, .badSignature, .journalFull, .frozen, .unknownId, .readOnly, .badValue, .notApplied, .badList, .badOpcode,
   .badFormat, .badShape, .badStage, .badHandle, .badDescriptor, .badPage, .noResource, .noBundle, .noJob, .addressFault,
   .windowFault, .planeFault, .tileFrozen, .mutualWait, .stallLimit, .packOverrun, .packPadding, .packFormat, .aborted,
   .hbmFault, .flashFault, .slotFull, .slotEmpty, .leeMode, .powerState, .galeRate, .groupMismatch, .groupHeld]
/-- The status that a code of Table 13.7 names. -/
def KS.ofCode (n : Nat) : Option KS := ksAll.find? fun k => k.code = n

/-- The run `seq` of a group job ends here with a status that came over a link, and with `whole` the job does (R407, R442; log
entry 34). No run end is sent back. -/
def endGroupRun (m : Mem) (no : Nat) (st : KS) (whole : Bool) (seq : Nat) (c : Ctl) : Ctl :=
  match c.job? no with
  | none => c
  | some j =>
    if !j.grouped ∨ j.ended then c
    else if j.running.isNone then (if whole then endJob m no st 4 j.lastIndex j.lastTag c else c)
    else
      let quiet (k : Job) : Job := { k with running := none }
      let here : Bool := j.running.any fun x => x.seq == seq
      if st ≠ .ok then failJob m no st (c.mapJob no quiet)
      else if whole then
        (if here ∧ j.waiting.isNone then endJob m no .ok 4 j.lastIndex j.lastTag (c.mapJob no quiet)
         else c.mapJob no fun k => { k with endAtRun := 0x10000 })
      else if here then endRun m no .ok c else c

/-- Members in service. -/
def Group.serving (g : Group) : List Nat := (List.range 4).filter fun k => g.state.getD k 0xFF == 0

/-- A member enters service: the lead is the lowest-numbered member in service (R436). -/
def Group.enter (g : Group) (member : Nat) : Group :=
  let g := { g with state := g.state.set member 0, formed := true }
  { g with lead := g.serving.headD 0xFF }

/-- A member in service is lost, and its state becomes `s` (R445). -/
def loseMember (member s : Nat) (m : Mem) (c : Ctl) : Ctl :=
  if !c.group.formed ∨ !c.group.serving.contains member then c
  else
    let was := c.group.lead
    let c := c.withGroup fun g => { g with state := g.state.set member s }
    let c := endGroupJobs m c
    let left := c.group.serving
    let c := c.withGroup fun g =>
      if 2 ≤ left.length ∧ left.contains c.member then { g with lead := left.headD 0xFF }
      -- a member that is itself held out keeps measuring its offset to the lead
      else { g with formed := false, lead := if 2 ≤ left.length then left.headD 0xFF else 0xFF }
    -- what the lead had relayed goes with it
    let c := if c.group.formed ∧ c.group.lead = was then c else dropRelayed c
    serviceEvent 10 9 0 KS.groupHeld.code (count .xwMemberLost 0 1 c)

/-! ### Receiving (R430, R431, R435) -/

/-- A link that cannot go on is down (R431, R433). -/
def portDown (p : Nat) (c : Ctl) : Ctl := c.setPort p { c.port p with up := false, waits := [] }

/-- Ask the sender to resend from the SEQ expected; eight requests for one SEQ take the link down (R431). -/
def askReplay (p : Nat) (c : Ctl) : Ctl :=
  let x := c.port p
  let c := pushControl p 0x03 [x.rxSeq] (c.setPort p { x with asked := x.asked + 1 })
  if 8 ≤ x.asked + 1 then portDown p c else c

/-- Answer a packet with a refusal (R431). -/
def refusePacket (pk : XwPacket) (st : KS) (c : Ctl) : Ctl :=
  count .xwRefused pk.port 1 (pushControl pk.port 0x05 [pk.seq, st.code] c)

/-- A packet for another member goes on without being written (R435). -/
def relayPacket (type : Nat) (pk : XwPacket) (c : Ctl) : Ctl :=
  match portTo c pk.dst pk.link with
  | some p => if pk.dst < 4 ∧ p ≠ pk.port then count .xwRelay 0 1 (pushPacket p type pk c) else c
  | none => c

/-- The port takes packets. -/
def Ctl.linkUp (c : Ctl) (p : Nat) : Bool := p < 4 && (c.port p).up && !(c.port p).idle

/-- Symbols that were corrected on the lanes of a port, in the present second of the control domain (R433; log entry 132). -/
def noteSymbols (p : Nat) (l : List Nat) (c : Ctl) : Ctl :=
  let x := c.port p
  let now := c.clk.ns / 1000000000
  let old := if x.laneSecond = now then x.laneErrors else []
  let sum := (List.range 5).foldl (fun e k => addAt e k (l.getD k 0)) old
  if l = [] then c else c.setPort p { x with laneSecond := now, laneErrors := sum }
/-- The tag in a packet's trailer is that of its blocks under the receiving direction's key (R430). -/
def packetGood (x : XwPort) (type : Nat) (pk : XwPacket) : Bool := pk.tag == packetTag x.rxKey type pk

/-- A packet in order: the acknowledgement, the relay, reserved fields and the group epoch, then what its TYPE does. -/
def receiveNext (type : Nat) (body : XwPacket → Mem → Ctl → Ctl) (pk : XwPacket) (m : Mem) (c : Ctl) : Ctl :=
  let x := c.port pk.port
  let c := pushControl pk.port 0x02 [pk.seq] (c.setPort pk.port { x with rxSeq := x.rxSeq + 1, asked := 0 })
  if pk.dst ≠ c.member then relayPacket type pk c
  else if 6 ≤ pk.badType then refusePacket pk .badType c
  else if pk.flags / 4 ≠ 0 ∨ pk.reserved ≠ 0 then refusePacket pk .badReserved c
  else if pk.groupEpoch ≠ c.group.epoch % 2 ^ 32 then refusePacket pk .groupHeld c
  else body pk m c
/-- What every packet meets first: errors, its tag, and the order of SEQ (R431). -/
def receive (type : Nat) (body : XwPacket → Mem → Ctl → Ctl) (pk : XwPacket) (m : Mem) (c : Ctl) : Ctl :=
  let p := pk.port
  if !c.linkUp p then c
  else
    let c := count .xwFecCorr p pk.corrected (noteSymbols p pk.symbols c)
    if 0 < pk.uncorrectable then askReplay p (count .xwFecUncorr p pk.uncorrectable c)
    else if !packetGood (c.port p) type pk then askReplay p (count .xwAuthFail p 1 c)
    else if pk.seq ≠ (c.port p).rxSeq then askReplay p c
    else receiveNext type body pk m c

/-! ### Slot data (R441, R444) -/

/-- The tile whose store a packet addresses: HOME_TILE of its destination handle under PLACE 1, where its job still holds one. -/
def dropTile (pk : XwPacket) (c : Ctl) : Nat :=
  let e := (c.jobs.find? fun j => j.no = pk.jobNo && pk.link < j.links.length).bind fun j => j.handle? (lDstHandle (j.link pk.link))
  match e with
  | some e => if e.place = 1 then e.home else pk.tile
  | none => pk.tile
/-- A Crosswind write that no window covers is dropped, and the sender is told (R265, R431). -/
def dropWrite (pk : XwPacket) (c : Ctl) : Ctl :=
  let t := dropTile pk c
  refusePacket pk .windowFault (if t < 16 then count .tstWindowDrop t 1 c else c)

/-- Used words of a block whose first word is given (R322, R430). -/
def usedWords (w : XwWord) : Nat := if w.tag.toNat % 16 = 3 then zmUsedWords w.data else 4

/-- The blocks of a TYPE 1 packet: their words, in order; none where the words run short or over. -/
def splitBlocks : Nat → List XwWord → Option (List (List XwWord))
  | 0, ws => if ws = [] then some [] else none
  | n + 1, ws =>
    match ws with
    | [] => none
    | w :: _ =>
      let k := usedWords w
      if ws.length < k then none else (splitBlocks n (ws.drop k)).map fun bs => ws.take k :: bs

/-- The words that a packet writes: (word offset in the part, word), and the words of its extent; none where COUNT does not
fit. -/
def packetWords (blocks : Bool) (pk : XwPacket) : Option (List (Nat × XwWord) × Nat) :=
  if blocks then
    if pk.count = 0 ∨ 32 < pk.count then none
    else (splitBlocks pk.count pk.words).map fun bs =>
      ((List.range bs.length).flatMap fun i =>
        let b := bs.getD i []
        (List.range b.length).map fun k => (pk.wordOffset + 4 * i + k, b.getD k { tag := 0, data := [] }), 4 * pk.count)
  else if pk.count = 0 ∨ 128 < pk.count ∨ pk.words.length ≠ pk.count then none
  else some ((List.range pk.count).map fun i => (pk.wordOffset + i, pk.words.getD i { tag := 0, data := [] }), pk.count)

/-- The job, link and destination handle of a packet that an open window covers, and the address of its slot part. -/
def packetTarget (pk : XwPacket) (reduce : Bool) (off n : Nat) (c : Ctl) : Option (Job × Handle × Nat) :=
  (c.jobs.find? fun j => j.no = pk.jobNo && j.grouped && !j.ended && pk.link < j.links.length).bind fun j =>
    let l := j.link pk.link
    if lSrc l ≠ pk.src ∨ lDst l ≠ c.member ∨ lReduce l ≠ reduce then none
    else (j.handle? (lDstHandle l)).bind fun e =>
      let a := e.addr pk.tile (pk.slot * e.slotBytes)
      if e.tiles.contains (if e.place = 1 then e.home else pk.tile) && (e.place = 0 || pk.tile = 0) && pk.slot < e.slotCount
          && 32 * (off + n) ≤ e.slotBytes && windowBit c (32 + pk.port) (a + 32 * off) (32 * n) then some (j, e, a)
      else none

/-- The credit of a part is used up (R441). -/
def takeCredit (k : Nat × Nat × Nat × Nat) (c : Ctl) : Ctl :=
  c.withGroup fun g => { g with ports := g.ports.map fun x => { x with granted := x.granted.filter (· ≠ k) } }

/-- Words land in their slot part; after the packet marked LAST the part is full. A full part holds the packet back. -/
def landWords (blocks : Bool) (before : Ctl) (pk : XwPacket) (_m : Mem) (c : Ctl) : Ctl :=
  match packetWords blocks pk with
  | none => refusePacket pk .badValue c
  | some (ws, n) =>
    match packetTarget pk false pk.wordOffset n c with
    | none => dropWrite pk c
    | some (j, e, a) =>
      let key := e.slotKey pk.tile pk.slot
      if c.slotFull key ∨ c.copyHolds a then before
      else
        let c := noteMove j.no (emit (ws.flatMap fun q => wholeWord (a / 32 + q.1) q.2.data (q.2.tag.toNat % 16)) c)
        if bit pk.flags 1 then setFull key (takeCredit (j.no, pk.link, pk.slot, pk.tile) c) else c

/-- Group length of the scales of a reduce source: the shortest of 32, 64 and 128 whose scales fit, else one scale for an
equal share of the row (log entry 25). -/
def scaleGroup (n bytes : Nat) : Nat :=
  match [32, 64, 128].find? fun g => cdiv n g ≤ bytes with
  | some g => g
  | none => cdiv n (max 1 bytes)
/-- Elements of an accumulator slot. -/
def Handle.accs (e : Handle) : Nat := e.slotBytes / 4

/-- The elements of a contribution's data words from word `off` of the data on: the first element's number, and the elements in
binary32; or the packing fault (R315, R444). Words, or whole blocks, of one FORMAT: binary32 without a scale plane, SP8, P6 or P4
with one. -/
def contribution32 (n : Nat) (scales : List Byte) (off : Nat) (ws : List XwWord) : Except KS (Nat × List F32) :=
  let fmt := (ws.head?.map fun w => w.tag.toNat % 8).getD 0
  let poison (w : XwWord) : Bool := bit w.tag.toNat 3
  let scale (i : Nat) : Int := (scales.getD (i / scaleGroup n scales.length) 0).toInt
  let spiral (first : Nat) (es : List Byte) : List F32 :=
    (List.range es.length).map fun i => sp8To32 (es.getD i 0) (if scales = [] then 0 else scale (first + i))
  if ws ≠ [] ∧ (fmt == 6) ≠ (scales == []) then .error .badFormat
  else if fmt = 6 then
    .ok (8 * off, ws.flatMap fun w => (List.range 8).map fun i =>
      if poison w then f32Void else BitVec.ofNat 32 (leNat (slice w.data (4 * i) 4)))
  else if fmt = 0 then
    .ok (32 * off, spiral (32 * off) (ws.flatMap fun w => if poison w then List.replicate 32 0x80#8 else slice w.data 0 32))
  else if fmt = 1 ∨ fmt = 2 then
    let k := if fmt = 1 then 3 else 2
    if off % k ≠ 0 ∨ ws.length % k ≠ 0 then .error .badValue
    else
      let block (i : Nat) : Except KS (List Byte) :=
        let b := slice' ws (k * i) k
        if b.any poison then .ok (List.replicate 128 0x80#8)
        else match decodeExp (fmt = 2) (b.flatMap fun w => slice w.data 0 32) with
          | .ok es => if b.all fun w => w.tag.toNat % 8 == fmt then .ok es else .error .packFormat
          | .error e => .error e.status
      let blocks := (List.range (ws.length / k)).map block
      match blocks.findSome? fun b => match b with | .error st => some st | .ok _ => none with
      | some st => .error st
      | none => .ok (128 * (off / k), spiral (128 * (off / k)) (blocks.flatMap fun b => match b with | .ok es => es | .error _ => []))
  else .error .badFormat
where
  slice' (ws : List XwWord) (lo n : Nat) : List XwWord := (ws.drop lo).take n

/-- Add elements to an accumulator slot, each with one rounding; a void element makes its accumulator element void (R444). -/
def accumulate (m : Mem) (a n first : Nat) (xs : List F32) : List Wr :=
  let last := min n (first + xs.length)
  if last ≤ first then []
  else
    (List.range ((last - 1) / 8 + 1 - first / 8)).flatMap fun i =>
      let w := first / 8 + i
      let r := m.readWord (a / 32 + w)
      wholeWord (a / 32 + w) ((List.range 8).flatMap fun k =>
        let e := 8 * w + k
        let old : F32 := if r.poison then f32Void else BitVec.ofNat 32 (leNat (slice r.data (4 * k) 4))
        let new := if first ≤ e ∧ e < last then (addF old (xs.getD (e - first) 0) 0).1 else old
        toLe 4 new.toNat) 6

/-- Scale bytes that have arrived for a contribution. -/
def Group.scalesOf (g : Group) (no i s : Nat) : List Byte :=
  ((g.scales.find? fun x => x.1 = no && x.2.1 = i && x.2.2.1 = s).map (·.2.2.2)).getD []
def Group.addScales (g : Group) (no i s : Nat) (bs : List Byte) : Group :=
  let old := g.scalesOf no i s
  { g with scales := (g.scales.filter fun x => !(x.1 = no && x.2.1 = i && x.2.2.1 = s)) ++ [(no, i, s, old ++ bs)] }
def Group.dropScales (g : Group) (no i s : Nat) : Group :=
  { g with scales := g.scales.filter fun x => !(x.1 = no && x.2.1 = i && x.2.2.1 = s) }

/-- A contribution is complete; after the last of a slot it is full, else the next may come (R444). -/
def contributed (j : Job) (i s : Nat) (e : Handle) (c : Ctl) : Ctl :=
  let h := lDstHandle (j.link i)
  let c := c.withGroup fun g => (g.setDone j.no h s ((g.done? j.no h s).getD [] ++ [i])).dropScales j.no i s
  if (nextReducer c j h s).isNone then setFull (e.slotKey 0 s) (c.withGroup fun g => g.endReduce j.no h s) else c

/-- Words of a contribution: the scale words first, then the data words, each added as it arrives (R444; log entry 25). -/
def addWords (j : Job) (i s : Nat) (e : Handle) (off : Nat) (ws : List XwWord) (m : Mem) (c : Ctl) : Except KS Ctl :=
  let sw := j.linkScales.getD i 0
  let head := ws.take (sw - off)
  let c := if head = [] then c
    else c.withGroup fun g =>
      g.addScales j.no i s (head.flatMap fun w => if bit w.tag.toNat 3 then List.replicate 32 0x80#8 else slice w.data 0 32)
  match contribution32 e.accs (c.group.scalesOf j.no i s) (max off sw - sw) (ws.drop (sw - off)) with
  | .error st => .error st
  | .ok (first, xs) =>
    let a := e.addr 0 (s * e.slotBytes)
    let c := noteReads m ((List.range (cdiv xs.length 8)).map fun i => a / 32 + first / 8 + i) c
    .ok (noteMove j.no (emit (accumulate m a e.accs first xs) c))

/-- A reduce contribution arrives (R444). A contribution out of turn is held back. -/
def landReduce (before : Ctl) (pk : XwPacket) (m : Mem) (c : Ctl) : Ctl :=
  if pk.count = 0 ∨ 128 < pk.count ∨ pk.words.length ≠ pk.count then refusePacket pk .badValue c
  else
    match packetTarget pk true 0 1 c with
    | none => dropWrite pk c
    | some (j, e, a) =>
      if !windowBit c (32 + pk.port) a e.slotBytes then dropWrite pk c
      else if c.slotFull (e.slotKey 0 pk.slot) ∨ c.copyHolds a ∨ nextReducer c j (lDstHandle (j.link pk.link)) pk.slot ≠ some pk.link then before
      else
        match addWords j pk.link pk.slot e pk.wordOffset pk.words m c with
        | .error st => endJob m j.no st 4 j.lastIndex j.lastTag c
        | .ok c =>
          if bit pk.flags 1 then contributed j pk.link pk.slot e (takeCredit (j.no, pk.link, pk.slot, 0) c) else c

/-- XW_WORDS_PACKET (R441). -/
def execXwWordsPacket (pk : XwPacket) (s : State) : Host.Outcome State Fault Refusal :=
  .next (s.run fun m c => receive 0 (landWords false c) pk m c)
/-- XW_ZERO_MASK_PACKET (R430). -/
def execXwZeroMaskPacket (pk : XwPacket) (s : State) : Host.Outcome State Fault Refusal :=
  .next (s.run fun m c => receive 1 (landWords true c) pk m c)
/-- XW_REDUCE_PACKET (R444). -/
def execXwReducePacket (pk : XwPacket) (s : State) : Host.Outcome State Fault Refusal :=
  .next (s.run fun m c => receive 2 (landReduce c) pk m c)

/-! ### Runs and configuration over the link (R438, R442, R443) -/

/-- The lead starts a run (R443): the requester and the trigger time stand in the packet's word. -/
def startPacket (pk : XwPacket) (_m : Mem) (c : Ctl) : Ctl :=
  match c.job? pk.jobNo with
  | none => c
  | some j =>
    -- an entry to a power state starts no new run (R483)
    if !j.grouped ∨ j.ended ∨ pk.src ≠ c.group.lead ∨ c.isLead ∨ j.waiting.isSome ∨ c.jobFrozen j.no then c
    else if c.power.stage ≠ .on then refusePacket pk .powerState c
    else
      let d := (pk.words.headD { tag := 0, data := [] }).data
      let who : Peer := { port := c.proto.active, addr := beNat (slice d 0 16), udp := beNat (slice d 16 2) }
      beginRun j.no who (beNat (slice d 18 8)) c
/-- A run ended on another member (R442). -/
def endPacket (pk : XwPacket) (m : Mem) (c : Ctl) : Ctl :=
  let d := (pk.words.headD { tag := 0, data := [] }).data
  match KS.ofCode (beNat (slice d 0 2)) with
  | some st => endGroupRun m pk.jobNo st (d.getD 2 0 != 0) (beNat (slice d 3 4)) c
  | none => c
/-- The lead admits a group job on this member, under the lead's JOB_NO; its runs start with the lead's (R440, R443). -/
def relayedJob (pk : XwPacket) (d : List Byte) (m : Mem) (c : Ctl) : Ctl :=
  let s : Submit :=
    { bundleNo := beNat (slice d 0 4), index := beNat (slice d 4 2), cls := beNat (slice d 6 1), mode := beNat (slice d 7 1),
      trigger := beNat (slice d 8 1), who := { port := c.proto.active, addr := beNat (slice d 16 16), udp := beNat (slice d 32 2) },
      relayed := true, suspends := (0, 0), dead := [] }
  match buildJob m s c with
  | .error e => refusePacket pk e.st (readBundle m (bundleSpans m s c false) c)
  | .ok (j, c') =>
    if c.jobs.any fun k => k.no = pk.jobNo then refusePacket pk .noResource c
    else
      let c := enterJob { j with no := pk.jobNo } (readBundle m (bundleSpans m s c true) (count .svcAdmit j.cls 1 c'))
      grantCredits (sendConfig pk.src c.group.epoch 0x90 pk.jobNo [] c)
/-- A parameter write of the group is staged on this member (R438). -/
def relayedParams (pk : XwPacket) (d : List Byte) (c : Ctl) : Ctl :=
  match parseEntries 32 d with
  | none => refusePacket pk .badPacket c
  | some (es, reserved) =>
    let vals := es.map fun e => (e.1, e.2.2)
    if !reserved ∨ es.any (fun e => memberSpecific e.1) then refusePacket pk .badReserved c
    else
      match firstBad (valueAfter c vals) 0 es with
      | some (_, st) => refusePacket pk st c
      | none => stageRelayed pk.slot d (.params vals) c
/-- What a member in service sends its lead: it has admitted a group job, or can commit a change of the group (R438, R440). -/
def memberPacket (pk : XwPacket) (code : Nat) (m : Mem) (c : Ctl) : Ctl :=
  if code = 0x90 then memberAdmits pk.jobNo pk.src c
  else if code = 0x92 then commitFront m (c.withGroup fun g => { g with agreed := SMap.put 0 g.agreed pk.src pk.slot })
  else refusePacket pk .badType c
/-- What a configuration relay of the lead brings, by the TYPE code of the request that it stands for (R438, R440; log entry 25). -/
def configPacket (pk : XwPacket) (m : Mem) (c : Ctl) : Ctl :=
  let w := pk.words.flatMap fun w => slice w.data 0 32
  let d := slice (w.drop 4) 0 (min (beNat (slice w 0 2)) 4096)
  let no := beNat (slice d 0 4)
  let say (r : KS × Ctl) : Ctl := if r.1 = .ok then r.2 else refusePacket pk r.1 r.2
  let code := (w.getD 2 0).toNat
  -- a change is journalled when it commits (R475)
  let full : Bool := c.journalFull && (code == 0x03 || code == 0x32 || code == 0x33)
  if c.isLead then memberPacket pk code m c
  else if pk.src ≠ c.group.lead then refusePacket pk .badReserved c
  else if full then refusePacket pk .journalFull (count .secJournalFull 0 1 c)
  else
    match code with
    | 0x03 => relayedParams pk d c
    | 0x10 => relayedJob pk d m c
    | 0x30 =>
      (match startBundle (beNat (slice d 76 4)) (beNat (slice d 0 1)) (beNat (slice d 4 8)) (slice d 12 64) m c with
      | some c => c
      | none => refusePacket pk .noResource c)
    | 0x31 => let (st, _, c) := takeData no (beNat (slice d 4 8)) (d.drop 12) [] c; say (st, c)
    | 0x32 =>
      let r := checkBundle no m c
      say (r.1, if r.1 = .ok then stageRelayed pk.slot d (.bundleCommit no) r.2 else r.2)
    | 0x33 => if c.store.bundles.any fun b => b.no = no then stageRelayed pk.slot d (.bundleRemove no) c else refusePacket pk .noBundle c
    | 0x91 => withdrawJob pk.jobNo c
    | 0x93 => commitFront m (c.withGroup fun g => { g with go := pk.slot })
    | 0x94 =>
      (match c.proto.staged.find? fun s => s.grouped && s.number == pk.slot with
      | some s => dropChange s c
      | none => c)
    | _ => refusePacket pk .badType c

/-- XW_RUN_START (R443). -/
def execXwRunStart (pk : XwPacket) (s : State) : Host.Outcome State Fault Refusal := .next (s.run (receive 3 startPacket pk))
/-- XW_RUN_END (R442). -/
def execXwRunEnd (pk : XwPacket) (s : State) : Host.Outcome State Fault Refusal := .next (s.run (receive 4 endPacket pk))
/-- XW_CONFIG_RELAY (R438). -/
def execXwConfigRelay (pk : XwPacket) (s : State) : Host.Outcome State Fault Refusal := .next (s.run (receive 5 configPacket pk))

/-! ### Control blocks (Table 14.2) -/

/-- An acknowledgement frees the replay buffer up to its SEQ (R431). -/
def acknowledge (p seq : Nat) (c : Ctl) : Ctl :=
  let x := c.port p
  if !c.linkUp p ∨ x.txSeq ≤ seq then c
  else c.setPort p { x with replay := x.replay.filter fun q => seq < q.2.seq, replays := 0 }
/-- A replay request: every packet below its SEQ has arrived; eight for one SEQ take the link down (R431). -/
def replayRequest (p seq : Nat) (c : Ctl) : Ctl :=
  let x := c.port p
  if !c.linkUp p ∨ x.txSeq ≤ seq then c
  else
    let moved : Bool := x.replay.any fun q => q.2.seq < seq
    let n := if moved then 1 else x.replays + 1
    let c := count .xwReplay p 1 (c.setPort p
      { x with replay := x.replay.filter fun q => seq ≤ q.2.seq, replays := n, resend := some seq })
    if 8 ≤ n then portDown p c else c
/-- A credit for a part that this member sends (R441), or that it relays to the member that does (R435). A credit may come before the
job is admitted here (R440; log entry 25). -/
def creditBlock (p job link slot tile : Nat) (c : Ctl) : Ctl :=
  let x := c.port p
  let k := (job, link, slot, tile)
  let keep : Ctl := if x.credits.contains k then c else c.setPort p { x with credits := x.credits ++ [k] }
  if !c.linkUp p then c
  else
    match c.job? job with
    | none => keep
    | some j =>
      if j.links.length ≤ link then c
      else if lSrc (j.link link) = c.member then keep
      else
        match portTo c (lSrc (j.link link)) link with
        | some q => if q = p then c else pushControl q 0x04 [job, link, slot, tile] c
        | none => c
/-- A refusal ends the run of the group job whose packet it names, on every member (R442). -/
def refusalBlock (p seq status : Nat) (m : Mem) (c : Ctl) : Ctl :=
  if !c.linkUp p then c
  else
    match ((c.port p).out.filter fun q => q.2.seq == seq).getLast?, KS.ofCode status with
    | some (type, pk), some st =>
      -- a member that does not admit the job: it is admitted on none (R440)
      if type = 5 ∧ ((c.job? pk.jobNo).bind (·.admitReq)).isSome then refuseAdmission pk.jobNo pk.dst st c
      -- a member that cannot commit the change: no member has changed (R438)
      else if type = 5 ∧ pk.slot ≠ 0 then
        match c.proto.staged.find? fun s => s.grouped && s.req.isSome && s.number == pk.slot with
        | some s => dropChange s c
        | none => c
      else
      (match c.job? pk.jobNo with
      | some j =>
        if !j.grouped ∨ j.ended ∨ st = .ok then c
        else if type = 5 then (if j.running.isSome then failJob m j.no st c else endJob m j.no st 4 j.lastIndex j.lastTag c)
        else if j.running.isSome then failJob m j.no st c
        else c
      | none => c)
    | _, _ => c

/-- The offset to the lead is known: beyond 1 µs the member is held out at once, and it returns within 0.5 µs (R439). -/
def measured (off : Int) (m : Mem) (c : Ctl) : Ctl :=
  let c := c.withGroup fun g => { g with offset := off }
  let own := c.group.state.getD c.member 0xFF
  if own = 0 ∧ 1000 < off.natAbs then loseMember c.member 2 m (count .xwHoldOut 0 1 c)
  else if own = 2 ∧ off.natAbs ≤ 500 then c.withGroup fun g => g.enter c.member
  else c
/-- Half of a signed difference, rounded to the nearest, ties away from zero (R59). -/
def halfAway (d : Int) : Int := if 0 ≤ d then (d + 1) / 2 else -((1 - d) / 2)
/-- A time probe arrives: the offset is half the difference of the two one-way differences (R439). -/
def timeProbe (p probe sent peerReceived received : Nat) (m : Mem) (c : Ctl) : Ctl :=
  if !c.linkUp p then c
  else
    let x := c.port p
    let (_, tx, _) := x.probe
    let c := c.setPort p { x with probe := (max x.probe.1 probe, tx, received) }
    if tx = 0 ∨ peerReceived = 0 ∨ portPeer c p ≠ c.group.lead ∨ c.isLead then c
    else measured (halfAway (((received : Int) - sent) - ((peerReceived : Int) - tx))) m c

/-- A part of a range, at most `n` bytes each: (offset, bytes). -/
def pieces (n size : Nat) : List (Nat × Nat) := (List.range (cdiv size n)).map fun i => (n * i, min n (size - n * i))
/-- A recorded change as the lead sends it to member `k` at group epoch `e`: none where its bundle's data is no longer there
(R438). -/
def resendChange (m : Mem) (k e : Nat) (ch : Change) (c : Ctl) : Option Ctl :=
  match ch with
  | .params es => (readEntries c (es.map (·.1))).map fun _ =>
      sendConfig k e 0x03 0 (es.flatMap fun x => match paramRow x.1 with | some row => paramEntry x.1 row.width x.2 | none => []) c
  | .bundleRemove no => some (sendConfig k e 0x33 0 (toBe 4 no) c)
  | .bundleCommit no =>
    (c.store.bundles.find? fun b => b.no = no && b.kind = 0).map fun b =>
      let c := sendConfig k e 0x30 0 ([0, 0, 0, 0] ++ toBe 8 b.size ++ slice b.digest 0 64 ++ toBe 4 no) c
      let c := (pieces 1376 b.size).foldl (fun c p =>
        sendConfig k e 0x31 0 (toBe 4 no ++ toBe 8 p.1 ++ m.flashBytes (b.base + p.1) p.2) (readFlash m (b.base + p.1) p.2 c)) c
      sendConfig k e 0x32 0 (toBe 4 no) c
  | .protect .. => none
/-- The lead sends a member held out at group epoch `e` the change that comes next, once; a member that lags beyond the recorded
changes stays held out, and a service event reports it (R438). -/
def catchUp (m : Mem) (k e : Nat) (c : Ctl) : Ctl :=
  if SMap.get 0 c.group.sentTo k = e + 1 then c
  else
    let c := c.withGroup fun g => { g with sentTo := SMap.put 0 g.sentTo k (e + 1) }
    match (c.group.changes.find? fun x => x.1 = e + 1).bind fun x => resendChange m k e x.2 c with
    | some c' => c'
    | none => serviceEvent 10 9 0 KS.groupHeld.code c
/-- A heartbeat gives a member's state. A held-out member that has caught up with the lead's group epoch enters service (R429,
R438). -/
def heartbeat (p member epoch st : Nat) (reaches : List Nat) (m : Mem) (c : Ctl) : Ctl :=
  if !c.linkUp p ∨ 4 ≤ member ∨ member = c.member ∨ !bit (c.param 0x0E01) member then c
  else
    let c := c.withGroup fun g => { g with reach := SMap.put 0xF g.reach member ((List.range 4).foldl (fun a k => a + b2n (reaches.contains k) * 2 ^ k) 0) }
    let here := c.group.epoch % 2 ^ 64
    if !c.group.formed then
      if c.group.state.getD c.member 0xFF = 3 ∧ member = c.group.lead ∧ st = 0 ∧ epoch = here then
        c.withGroup fun g => g.enter c.member
      else c
    else
      let old := c.group.state.getD member 0xFF
      if old = 0 then
        if st = 0 ∨ 4 ≤ st then c else loseMember member st m (if c.isLead ∧ st ≠ 1 then count .xwHoldOut 0 1 c else c)
      else if old = 3 ∧ epoch < here then (if c.isLead then catchUp m member epoch c else c)
      else if st = 0 ∧ epoch ≠ here then c
      -- one that was lost or refused passes Table 14.4 again (R445)
      else if !(old = 2 ∨ old = 3) ∨ 4 ≤ st then c
      else c.withGroup fun g => if st = 0 then g.enter member else { g with state := g.state.set member st }
/-- An alignment codeword names its lane, its port and its codeword count (R428). -/
def alignment (p lane n named : Nat) (c : Ctl) : Ctl :=
  if !c.linkUp p ∨ 5 ≤ lane then c
  else
    let x := c.port p
    c.setPort p { x with aligned := SMap.put 0 x.aligned lane n, alignedTo := SMap.put 0 x.alignedTo lane named }

/-- XW_ACKNOWLEDGE (R431). -/
def execXwAcknowledge (p seq : Nat) (s : State) : Host.Outcome State Fault Refusal := .next (s.run fun _ c => acknowledge p seq c)
/-- XW_REPLAY_REQUEST (R431). -/
def execXwReplayRequest (p seq : Nat) (s : State) : Host.Outcome State Fault Refusal :=
  .next (s.run fun _ c => replayRequest p seq c)
/-- XW_CREDIT (R441). -/
def execXwCredit (p job link slot tile : Nat) (s : State) : Host.Outcome State Fault Refusal :=
  .next (s.run fun _ c => creditBlock p job link slot tile c)
/-- XW_REFUSAL (R442). -/
def execXwRefusal (p seq status : Nat) (s : State) : Host.Outcome State Fault Refusal := .next (s.run (refusalBlock p seq status))
/-- XW_TIME_PROBE (R439). -/
def execXwTimeProbe (p probe sent peerReceived received : Nat) (s : State) : Host.Outcome State Fault Refusal :=
  .next (s.run (timeProbe p probe sent peerReceived received))
/-- XW_HEARTBEAT (R429, R438). -/
def execXwHeartbeat (p member epoch st : Nat) (s : State) (reaches : List Nat := [0, 1, 2, 3]) : Host.Outcome State Fault Refusal :=
  .next (s.run (heartbeat p member epoch st reaches))
/-- XW_ALIGNMENT (R428). -/
def execXwAlignment (p lane n : Nat) (s : State) (named : Nat := 0) : Host.Outcome State Fault Refusal :=
  .next (s.run fun _ c => alignment p lane n named c)
/-- XW_RESERVED_BLOCK (R429). -/
def execXwReservedBlock (p kind : Nat) (s : State) : Host.Outcome State Fault Refusal :=
  .next (s.run fun _ c => if c.linkUp p ∧ 8 ≤ kind then count .xwBadBlock p 1 c else c)

end Sys2Proof.Machine
end

