-- ==== Sys2Proof/Machine/Groups.lean ====
section
/-! DEFINITION. What a member sends over its links, spare lanes and ports, link-up, and the GROUP requests
(14_crosswind_groups.md R431 to R445; 15 R455). -/

namespace Sys2Proof.Machine

/-! ### Sending slot data (R430, R432, R441, R444) -/

/-- A word as it is sent: poisoned where its slot is VOIDED (R257). -/
def sentWord (m : Mem) (c : Ctl) (j : Job) (i s t k : Nat) (e : Handle) : XwWord :=
  let (u, a) := linkWordAt j i s t k e
  let r := m.readWord (a / 32)
  let void : Bool := if k < j.linkScales.getD i 0 then (linkPlane j i).any fun f => c.slotVoided (f.slotKey u (scaleSlot f s))
    else c.slotVoided (e.slotKey u s)
  { tag := byte (if void then r.tag % 8 + 8 else r.tag), data := r.data }
/-- Words that a part is read from. -/
def partWords (j : Job) (i s t : Nat) (e : Handle) (ks : List Nat) : List Nat := ks.map fun k => (linkWordAt j i s t k e).2 / 32
/-- A part is sent: its source empties where FLAGS says so (R441). -/
def partSent (j : Job) (i s t : Nat) (e : Handle) (c : Ctl) : Ctl :=
  if lEmpties (j.link i) then setAll setEmpty ((linkTiles j i t e).map fun u => e.slotKey u s) c else c
/-- The full parts without a credit wait for it, each since it was first found so (R260, R441). -/
def noteWaits (p : Nat) (c : Ctl) : Ctl :=
  let x := c.port p
  let dry := ((sendable c p).filter fun k => !k.2).map (·.1)
  c.setPort p { x with waits := dry.map fun k => (k, ((x.waits.find? fun w => w.1 = k).map (·.2)).getD c.us) }
/-- Turns until a LINK is served, after the one served last (R432). -/
def XwPort.turn (x : XwPort) (link : Nat) : Nat := (link + 255 - x.lastLink % 256) % 256
/-- The packet that goes next of those that wait, Gale ones or others: round-robin by LINK, the oldest of a LINK first (R432). -/
def nextWaiting (x : XwPort) (gale : Bool) : Option (Nat × XwPacket) :=
  let l := x.waiting.filter fun q => bit q.2.flags 0 == gale
  l.find? fun q => l.all fun y => x.turn q.2.link ≤ x.turn y.2.link

/-- The part that goes next: round-robin by LINK, a part in progress before a new one of its link (R432). -/
def choose (c : Ctl) (p : Nat) (l : List (Nat × Nat × Nat × Nat)) : Option (Nat × Nat × Nat × Nat) :=
  let x := c.port p
  let rank (k : Nat × Nat × Nat × Nat) : Nat :=
    let open' : Bool := x.sending.any fun y => y.1 = k.1 && y.2.1 = k.2.1 && y.2.2.1 = k.2.2.1 && y.2.2.2.1 = k.2.2.2
    2 * x.turn k.2.1 + (if open' then 0 else 1)
  l.find? fun k => l.all fun y => rank k ≤ rank y

/-- Words of the next packet of a part from word `k`: whether they go as zero-mask blocks, COUNT, and the numbers of the words
that it carries (R332, R430). -/
def nextWords (j : Job) (i k n : Nat) (word : Nat → XwWord) : Bool × Nat × List Nat :=
  let zm (a : Nat) : Bool := a % 4 == 0 && a + 4 ≤ n && (word a).tag.toNat % 16 == 3
  if lReduce (j.link i) then
    -- whole blocks of one kind after the scale words
    let sw := j.linkScales.getD i 0
    let len := if k < sw then min (sw - k) 128
      else
        match (word k).tag.toNat % 8 with
        | 1 => min 126 (n - k)
        | _ => min 128 (n - k)
    (false, len, (List.range len).map (k + ·))
  else if zm k then
    let b := min 32 ((n - k) / 4)
    (true, b, (List.range b).flatMap fun q =>
      (List.range (usedWords (word (k + 4 * q)))).map (k + 4 * q + ·))
  else
    let m := min 128 (n - k)
    let len := match (List.range m).find? fun o => zm (k + o) with | some o => o | none => m
    (false, len, (List.range len).map (k + ·))

/-- The credit of a part that is sent is used up, on whichever port it came (R441). -/
def Ctl.useCredit (c : Ctl) (k : Nat × Nat × Nat × Nat) : Ctl :=
  c.withGroup fun g => { g with ports := g.ports.map fun x => { x with credits := x.credits.filter (· ≠ k) } }
/-- Send the next packet of a part; after its last the source empties where FLAGS says so (R441). -/
def sendPart (m : Mem) (p : Nat) (k : Nat × Nat × Nat × Nat) (c : Ctl) : Ctl :=
  match c.job? k.1 with
  | none => c
  | some j =>
    match j.handle? (lSrcHandle (j.link k.2.1)) with
    | none => c
    | some e =>
      let i := k.2.1
      let s := k.2.2.1
      let t := k.2.2.2
      let x := c.port p
      let here (y : Nat × Nat × Nat × Nat × Nat) : Bool := y.1 = k.1 && y.2.1 = i && y.2.2.1 = s && y.2.2.2.1 = t
      let at' := ((x.sending.find? here).map (·.2.2.2.2)).getD 0
      let n := linkWords j i e
      let (zm, cnt, ks) := nextWords j i at' n (fun a => sentWord m c j i s t a e)
      let ws := ks.map fun a => sentWord m c j i s t a e
      let next := at' + (if zm then 4 * cnt else cnt)
      let last : Bool := n ≤ next
      if !replayRoom x ws.length then c
      else
        let pk : XwPacket :=
          { XwPacket.empty with
            flags := b2n (j.cls == 0) + 2 * b2n last, src := c.member, dst := lDst (j.link i), jobNo := j.no, link := i,
            slot := s, tile := t, wordOffset := at', count := cnt, groupEpoch := c.group.epoch % 2 ^ 32, words := ws }
        let c := noteReads m (partWords j i s t e ks) c
        let c := noteMove j.no (launch p (if lReduce (j.link i) then 2 else b2n zm) pk c)
        let y := c.port p
        let c := c.setPort p
          { y with lastLink := i % 256, sending := (y.sending.filter fun z => !here z) ++ (if last then [] else [(k.1, i, s, t, next)]) }
        if last then partSent j i s t e (c.useCredit k) else c

/-- Local contributions that come next: a reduce link whose SRC_MEMBER is its DST_MEMBER (R444). -/
def localReduce (c : Ctl) : Option (Job × Nat × Nat × Handle × Handle) :=
  c.jobs.findSome? fun j =>
    if j.ended then none else
      (List.range j.links.length).findSome? fun i =>
        let l := j.link i
        if !lReduce l ∨ lSrc l ≠ c.member ∨ lDst l ≠ c.member then none
        else
          match j.handle? (lSrcHandle l), j.handle? (lDstHandle l) with
          | some e, some d =>
            ((List.range (min e.slotCount d.slotCount)).find? fun s =>
              partReady c j i s 0 e && !c.copyHolds (d.addr 0 0) && nextReducer c j (lDstHandle l) s == some i).map fun s => (j, i, s, e, d)
          | _, _ => none
/-- Add a local contribution. -/
def addLocal (m : Mem) (j : Job) (i s : Nat) (e d : Handle) (c : Ctl) : Ctl :=
  let n := linkWords j i e
  let ws := (List.range n).map fun k => sentWord m c j i s 0 k e
  let c := noteReads m (partWords j i s 0 e (List.range n)) c
  match addWords j i s d 0 ws (m.apply c.wq) c with
  | .error st => endJob m j.no st 4 j.lastIndex j.lastTag c
  | .ok c =>
    contributed j i s d (partSent j i s 0 e c)

/-- The part that goes next of those that hold a credit, of Gale jobs or of others (R432, R441). -/
def nextPart (p : Nat) (gale : Bool) (c : Ctl) : Option (Nat × Nat × Nat × Nat) :=
  choose c p (((sendable c p).filter fun k => k.2 && (((c.job? k.1.1).map fun j => j.cls == 0).getD false) == gale).map (·.1))
/-- Its next packet goes out; a group run whose bundle may no longer send ends (R465). -/
def sendNext (p : Nat) (k : Nat × Nat × Nat × Nat) (m : Mem) (c : Ctl) : Ctl :=
  match c.job? k.1 with
  | some j => if c.xwOut j.bundle then sendPart m p k c else failJob m j.no .notPermitted c
  | none => c
/-- A packet that waited goes out, where there is room in the replay buffer (R431). -/
def sendWaiting (p : Nat) (q : Nat × XwPacket) (c : Ctl) : Ctl :=
  let x := c.port p
  if replayRoom x q.2.words.length then
    launch p q.1 q.2 (c.setPort p { x with waiting := x.waiting.erase q, lastLink := q.2.link % 256 })
  else c
/-- Send again from the SEQ asked for: the packet with SEQ `q`; the one behind it is due next (R431). -/
def resendFrom (p q : Nat) (c : Ctl) : Ctl :=
  let x := c.port p
  match x.replay.find? fun y => y.2.seq = q with
  | some y =>
    let more : Bool := x.replay.any fun z => z.2.seq == q + 1
    c.setPort p (XwPort.emit { x with resend := if more then some (q + 1) else none } y)
  | none => c.setPort p { x with resend := none }
/-- The next new packet of a port, of Gale jobs or of others: one that waits or a part, by their turns; none where there is none
(R432). -/
def sendTurn (p : Nat) (gale : Bool) (m : Mem) (c : Ctl) : Option Ctl :=
  let x := c.port p
  match nextWaiting x gale, nextPart p gale c with
  | some q, some k => some (if x.turn q.2.link ≤ x.turn k.2.1 then sendWaiting p q c else sendNext p k m c)
  | some q, none => some (sendWaiting p q c)
  | none, some k => some (sendNext p k m c)
  | none, none => none
/-- The port engine's turn on a port: credits, a resend, a local contribution, or the next packet, a Gale one first; with nothing to
send, an idle block (R429, R431, R432, R441, R465). -/
def portSend (p : Nat) (m : Mem) (c : Ctl) : Ctl :=
  if !c.linkUp p ∨ portStands c p then c
  else
    let c := noteWaits p (grantCredits c)
    match (c.port p).resend, localReduce c with
    | some q, _ => resendFrom p q c
    | none, some (j, i, s, e, d) => if c.xwOut j.bundle then addLocal m j i s e d c else failJob m j.no .notPermitted c
    | none, none =>
      match sendTurn p true m c, sendTurn p false m c with
      | some c', _ => c'
      | none, some c' => c'
      | none, none => pushControl p 0x00 [] c

/-- XW_PACKET_SEND (R441). -/
def execXwPacketSend (p : Nat) (s : State) : Host.Outcome State Fault Refusal := .next (s.run (portSend p))

/-! ### Heartbeats and time probes (R429, R439) -/

/-- A member says its state on every link but that of a spare port that stands by (R434); it stops when it enters Lee mode or
leaves RUN (R445, R483). -/
def sendHeartbeats (c : Ctl) : Ctl :=
  if c.member = 0xFF ∨ c.power.stage ≠ .on ∨ c.service.lee then c
  else
    (List.range 4).foldl (fun c p =>
      if c.linkUp p ∧ !portStands c p then pushControl p 0x07 [c.member, c.group.epoch, c.group.state.getD c.member 0xFF] c else c) c
/-- A time probe on a direct link between a member and the lead; a member that is held out goes on measuring (R439). -/
def sendProbe (p : Nat) (c : Ctl) : Ctl :=
  if !c.linkUp p ∨ portStands c p ∨ c.group.lead = 0xFF ∨ !(c.isLead || portPeer c p == c.group.lead) then c
  else
    let x := c.port p
    let (n, _, rx) := x.probe
    pushControl p 0x06 [n + 1, c.clk.device, rx] (c.setPort p { x with probe := (n + 1, c.clk.device, rx) })

/-- XW_HEARTBEAT_SEND (R429). -/
def execXwHeartbeatSend (s : State) : Host.Outcome State Fault Refusal := .next (s.run fun _ c => sendHeartbeats c)
/-- XW_TIME_PROBE_SEND (R439). -/
def execXwTimeProbeSend (p : Nat) (s : State) : Host.Outcome State Fault Refusal := .next (s.run fun _ c => sendProbe p c)

/-! ### Spare lane and spare port (R433, R434) -/

/-- A failing lane's traffic moves to lane 4; a second failing lane takes the port down (R433, R503, R504). `errors` are symbols that
were corrected on the lane besides those that packets brought. -/
def laneSwap (p lane errors : Nat) (lostLock : Bool) (c : Ctl) : Ctl :=
  let c := if errors = 0 then c else noteSymbols p (List.replicate lane 0 ++ [errors]) c
  let x := c.port p
  let here := if x.laneSecond = c.clk.ns / 1000000000 then SMap.get 0 x.laneErrors lane else 0
  if !c.linkUp p ∨ 5 ≤ lane ∨ x.swapped = some lane ∨ !(lostLock || c.param 0x0E03 < here) then c
  else
    match x.swapped with
    | some _ => portDown p c
    | none =>
      -- the spare lane itself fails: no active lane does
      if lane = 4 then c
      else
        let c := count .xwLaneSwap p 1 (c.setPort p { x with swapped := some lane, resend := (x.replay.head?).map (·.2.seq) })
        wearEvent (0x500 + p) 9 p 0 (serviceEvent 7 9 p lane c)

/-- Packets not acknowledged, numbered again from a SEQ. -/
def renumber (port seq : Nat) (l : List (Nat × XwPacket)) : List (Nat × XwPacket) :=
  (List.range l.length).map fun i =>
    let q := l.getD i (0, XwPacket.empty)
    (q.1, { q.2 with port := port, seq := seq + i })

/-- A port to a peer goes down: the spare port wired to the same peer takes its traffic from the replay point (R434). -/
def portSwap (p : Nat) (c : Ctl) : Ctl :=
  if 4 ≤ p ∨ !portEnabled c p then c
  else
    let c := portDown p c
    let spare := (List.range 4).find? fun q =>
      portEnabled c q && portSpare c q && portPeer c q == portPeer c p && (c.port q).up && q ≠ p
    match spare with
    | none => c
    | some q =>
      if c.group.spareFor.isSome then c
      else
        let x := c.port p
        let y := c.port q
        let moved := renumber q y.txSeq x.replay
        let c := c.setPort q
          { moved.foldl XwPort.emit y with
              txSeq := y.txSeq + moved.length, replay := y.replay ++ moved, waiting := y.waiting ++ x.waiting,
              credits := y.credits ++ x.credits, granted := y.granted ++ x.granted, sending := y.sending ++ x.sending,
              waits := y.waits ++ x.waits, frozen := y.frozen ++ x.frozen }
        let c := c.setPort p
          { x with replay := [], waiting := [], credits := [], granted := [], sending := [], resend := none, waits := [], frozen := [] }
        let c := c.withGroup fun g => { g with spareFor := some p }
        serviceEvent 7 9 p 0xFF (count .xwPortSwap 0 1 c)

/-- XW_LANE_SWAP (R433). -/
def execXwLaneSwap (p lane : Nat) (s : State) (errors : Nat := 0) (lostLock : Bool := true) : Host.Outcome State Fault Refusal :=
  .next (s.run fun _ c => laneSwap p lane errors lostLock c)
/-- XW_PORT_SWAP (R434). -/
def execXwPortSwap (p : Nat) (s : State) : Host.Outcome State Fault Refusal := .next (s.run fun _ c => portSwap p c)
/-- XW_MEMBER_LOST (R445). -/
def execXwMemberLost (member : Nat) (s : State) : Host.Outcome State Fault Refusal := .next (s.run (loseMember member 4))

/-! ### Link-up (R430, R455) -/

/-- Key and salt of one direction: 36 bytes of SHA-512 over the group key, the sender's value, the receiver's value and the
sender's member and port (R455). -/
def linkKey (c : Ctl) (sender receiver : List Byte) (member port : Nat) : List Byte :=
  let key := (slice (c.sec.linkKeys.getD 2 []) 32 32)
  slice (Config.sha512 (key ++ slice sender 0 32 ++ slice receiver 0 32 ++ [byte member, byte port])) 0 36

/-- Train a link: new keys for each direction, SEQ from 0, and what was not acknowledged is sent again (R433, R455). -/
def trainLink (p : Nat) (mine peer : List Byte) (peerMember peerPort : Nat) (c : Ctl) : Ctl :=
  let x := c.port p
  let rest := renumber p 0 x.replay
  c.setPort p
    { x with up := true, idle := false, txKey := linkKey c mine peer c.member p, rxKey := linkKey c peer mine peerMember peerPort,
             txSeq := rest.length, rxSeq := 0, replay := rest, replays := 0, asked := 0,
             resend := (rest.head?).map (·.2.seq), probe := (0, 0, 0), aligned := [], alignedTo := [], blocks := 0,
             laneErrors := [] }
/-- XW_LINK_UP: an enabled port trains its lanes (R455). -/
def linkUp (p : Nat) (mine peer : List Byte) (peerMember peerPort : Nat) (c : Ctl) : Ctl :=
  if 4 ≤ p ∨ !portEnabled c p ∨ c.service.lee ∨ c.pins.padHold ∨ (c.port p).up
      ∨ !(c.power.stage == .on || c.power.stage == .link) then c
  else
    let c := trainLink p mine peer peerMember peerPort c
    -- the port is back: its spare stands by again
    if c.group.spareFor = some p then c.withGroup fun g => { g with spareFor := none } else c
/-- XW_REKEY: SEQ has reached 2^47 in either direction (R455). -/
def rekey (p : Nat) (mine peer : List Byte) (peerMember peerPort : Nat) (c : Ctl) : Ctl :=
  let x := c.port p
  if !c.linkUp p ∨ (x.txSeq < 2 ^ 47 ∧ x.rxSeq < 2 ^ 47) then c else trainLink p mine peer peerMember peerPort c

/-- XW_LINK_UP (R455). -/
def execXwLinkUp (p : Nat) (mine peer : List Byte) (peerMember peerPort : Nat) (s : State) : Host.Outcome State Fault Refusal :=
  .next (s.run fun _ c => linkUp p mine peer peerMember peerPort c)
/-- XW_REKEY (R455). -/
def execXwRekey (p : Nat) (mine peer : List Byte) (peerMember peerPort : Nat) (s : State) : Host.Outcome State Fault Refusal :=
  .next (s.run fun _ c => rekey p mine peer peerMember peerPort c)

/-! ### Formation (R436, R437, Table 14.4) -/

/-- The digest of check 4: the committed configuration but for the member-specific parameters (Table 14.4, R446). -/
def groupConfig (c : Ctl) : List Byte := configDigest (fun id => !memberSpecific id) c
/-- What this part would report of itself. -/
def ownReport (c : Ctl) : MemberReport :=
  { member := c.member, reachable := true, firmware := fwBytes c, bundles := bundleDigest c, groupEpoch := c.group.epoch,
    config := groupConfig c, offset := 0 }
/-- What formation finds of an expected member, in the order of Table 14.4; `top` is the highest group epoch, `all` are the reports of
the members that answer. A member that fails check 1, 2 or 4 gives state 1. -/
def memberOutcome (top : Nat) (own : MemberReport) (all : List MemberReport) (r : Option MemberReport) : Nat :=
  match r with
  | none => 4
  | some r =>
    if !r.reachable then 4
    else if r.firmware ≠ own.firmware ∨ r.bundles ≠ own.bundles then 1
    else if r.groupEpoch < top then 3
    -- check 4 holds among the members at one group epoch
    else if all.any fun x => x.groupEpoch == r.groupEpoch && x.config != r.config then 1
    else if 1000 < r.offset.natAbs then 2
    else 0

/-- The highest group epoch of the expected members that answer. -/
def topEpoch (c : Ctl) (found : List MemberReport) : Nat :=
  ((List.range 4).filter fun k => bit (c.param 0x0E01) k && k ≠ c.member).foldl (fun a k =>
    match found.find? fun r => r.member = k with | some r => if r.reachable then max a r.groupEpoch else a | none => a) c.group.epoch
/-- Table 14.4: the member states that formation finds, and whether check 1, 2 or 4 failed. -/
def formStates (c : Ctl) (found : List MemberReport) : List Nat × Bool :=
  let get (k : Nat) : Option MemberReport := found.find? fun r => r.member = k
  let expected := (List.range 4).filter fun k => bit (c.param 0x0E01) k
  let own := ownReport c
  let top := topEpoch c found
  let all := own :: (expected.filter (· ≠ c.member)).filterMap fun k => (get k).filter (·.reachable)
  let st (k : Nat) : Nat :=
    if !expected.contains k then 0xFF
    else if k = c.member then (if own.groupEpoch < top then 3 else 0)
    else memberOutcome top own all (get k)
  let sts := (List.range 4).map st
  let bad := sts.contains 1
  -- no member forms: each one that answered stands refused
  (if bad then sts.map fun x => if x = 0xFF ∨ x = 4 then x else 1 else sts, bad)

/-- Form a group (R437): the state after it, and the status. -/
def form (found : List MemberReport) (m : Mem) (c : Ctl) : Ctl × KS :=
  if 4 ≤ c.member ∨ !bit (c.param 0x0E01) c.member then (c, .groupHeld)
  else
    let was := c.group.serving
    let wasFormed := c.group.formed
    let (sts, bad) := formStates c found
    let c := count .xwHoldOut 0 (sts.countP fun x => x == 2 || x == 3) c
    let c := c.withGroup fun g => { g with state := sts }
    let now := c.group.serving
    let gone := was.filter fun k => !now.contains k
    -- each loss is counted and reported (R445)
    let c := if wasFormed ∧ gone ≠ [] then
        gone.foldl (fun c _ => serviceEvent 10 9 0 KS.groupHeld.code (count .xwMemberLost 0 1 c)) (endGroupJobs m c)
      else c
    if 2 ≤ now.length ∧ now.contains c.member then
      let c := c.withGroup fun g => { g with formed := true, lead := now.headD 0xFF, epoch := max 1 g.epoch, sentTo := [], agreed := [], go := 0 }
      (c, if sts.any (fun x => x == 2 || x == 3) then .groupHeld else .ok)
    else
      -- a member held out of a group that the others form knows its lead
      (c.withGroup fun g => { g with formed := false, lead := if !bad ∧ 2 ≤ now.length then now.headD 0xFF else 0xFF },
       if bad then .groupMismatch else .groupHeld)

/-- Run `f`; where it ends Lee mode, the group forms again under XW_AUTOFORM (R512). -/
def leaving (found : List MemberReport) (f : Mem → Ctl → Ctl) (m : Mem) (c : Ctl) : Ctl :=
  let c' := f m c
  if c.service.lee ∧ !c'.service.lee ∧ bit (c'.param 0x0E02) 0 then (form found (m.apply c'.wq) c').1 else c'
/-- TILE_SELF_TEST_COMPLETE (R469, R506). -/
def execTileSelfTestComplete (physical : Nat) (passes : Bool) (s : State) (found : List MemberReport := []) : Host.Outcome State Fault Refusal :=
  .next (s.run (leaving found (selfTestDone physical passes)))

/-- The member states of a GROUP reply (R437). -/
def memberStates (c : Ctl) : List Byte := (List.range 4).map fun k => byte (c.group.state.getD k 0xFF)

def formGroup (found : List MemberReport) (r : Req) (m : Mem) (c : Ctl) : Ctl :=
  bySub 0 [1, 2] 0x48 20 (r.len == 4) .badValue r (fun c =>
    gate { plainGate 0x48 19 (r.len == 4) (r.zeros 1 3) with mode := leeBars c, again := some (.groupForm r found) } r (fun c =>
      let (c, st) := form found m c
      answer r 0x48 st (memberStates c) c) c) c
def leaveGroup (r : Req) (m : Mem) (c : Ctl) : Ctl :=
  bySub 1 [0, 2] 0x48 20 (r.len == 4) .badValue r (fun c =>
    gate (plainGate 0x48 19 (r.len == 4) (r.zeros 1 3)) r (fun c =>
      let c := leave m c
      answer r 0x48 .ok (memberStates c) c) c) c
def groupState (r : Req) (_m : Mem) (c : Ctl) : Ctl :=
  bySub 2 [0, 1] 0x48 20 (r.len == 4) .badValue r (fun c =>
    gate (plainGate 0x48 20 (r.len == 4) (r.zeros 1 3)) r (fun c => answer r 0x48 .ok (memberStates c) c) c) c

/-- GROUP_FORM (R437). -/
def execGroupForm (r : Req) (found : List MemberReport) (s : State) : Host.Outcome State Fault Refusal :=
  .next (s.run (formGroup found r))
/-- GROUP_LEAVE (R437). -/
def execGroupLeave (r : Req) (s : State) : Host.Outcome State Fault Refusal := .next (s.run (leaveGroup r))
/-- GROUP_STATUS (R437). -/
def execGroupStatus (r : Req) (s : State) : Host.Outcome State Fault Refusal := .next (s.run (groupState r))

end Sys2Proof.Machine
end

