-- ==== Sys2Proof/Machine/Plane.lean ====
section
/-! DEFINITION. The Plane: dispatch, preemption, the commands of a list, groups, steps, passes, drains and completion
(03 R78 to R104; 04 R117, R130 to R148; 05 R158; 10 R324, R327, R330; 13 R418; 17 R509). -/

namespace Sys2Proof.Machine

/-! ### The list that holds the Plane -/

/-- The job that holds the Plane, with a run in progress. -/
def Ctl.holding (c : Ctl) : Option Job :=
  (c.plane.holder.bind c.job?).filter fun j => j.running.isSome && !j.ended
def since (c : Ctl) (o : Option Nat) : Option Nat := o.orElse fun _ => some c.us

/-! ### Dispatch (R418, R509) -/

/-- ns of the last 10 ms in which the Plane was held. -/
def Ctl.planeBusy (c : Ctl) : Nat :=
  (c.plane.busyLog.map fun x => x.1 + x.2 - max x.1 (c.clk.ns - 10000000)).sum
/-- Firmware may start a run: once an entry is accepted, only a run in progress goes on (R483). -/
def Ctl.mayServe (c : Ctl) (j : Job) : Bool :=
  j.running.isSome && !j.ended && j.part && (c.power.stage == .on || j.exec != j.exec.afresh)
/-- Runs that are ready. -/
def Ctl.readyJobs (c : Ctl) : List Job :=
  if c.service.lee ∧ 1500000 < c.planeBusy then [] else c.jobs.filter c.mayServe
/-- `a` is served before `b`: class, then the time it became ready, then, for Gale, the intake context that triggers it, then
JOB_NO (R39, R375, R418). -/
def servedFirst (a b : Job) : Bool :=
  let t (j : Job) : Nat := (j.running.map (·.readyAt)).getD 0
  let n (j : Job) : Nat := if j.cls = 0 then j.trigger else 0
  a.cls < b.cls || (a.cls == b.cls
    && (t a < t b || (t a == t b && (n a < n b || (n a == n b && a.no ≤ b.no)))))
/-- The ready run that is served next. -/
def Ctl.bestReady (c : Ctl) (skip : Option Nat) : Option Job :=
  let l := c.readyJobs.filter fun j => some j.no != skip
  l.find? fun a => l.all fun b => servedFirst a b

/-- A job's save area goes back into the drain registers: sums that a drain in a drain wait left unwritten. They stay noted as cut off
until that drain has ended, and no pass runs before (R145). -/
def installCut (m : Mem) (no : Nat) (c : Ctl) : Ctl :=
  match c.job? no, c.plane.drain, c.plane.copying with
  | some j, none, none =>
    (match j.exec.cut with
    | none => c
    | some d =>
      let r := j.cmd d.idx
      if opKind (rOp r) = .array then
        let (vals, p) := (loadSums m c j r d.pass).run Port.empty
        let c := noteReads m (p.reads.map (·.2)) c
        c.withPlane fun pl => { pl with drain := some { d with vals := vals } }
      else c.withPlane fun pl => { pl with drain := some d })
  | _, _, _ => c

/-- The Plane serves a job: its streams resume, and a wait of its list counts from 0 (R144, R145, R261). -/
def takePlane (m : Mem) (no : Nat) (c : Ctl) : Ctl :=
  let c := c.withPlane fun p => { p with holder := some no, switch := none, last := some no, stopReq := false }
  let c := installCut m no (resumeStreams m no (fun _ => true) (c.mapJob no fun j => { j with quantumUsed := 0 }))
  match c.job? no with
  | some j => if j.exec.phase = 1 ∧ rOp j.now = 0x02 then c.withPlane fun p => { p with waitFull := some c.us } else c
  | none => c

/-- The Plane turns to the ready run that is served next, through a switch where another job was loaded (R418). -/
def nextRun (c : Ctl) : Ctl :=
  match c.bestReady none with
  | some j => c.withPlane fun p => { p with switch := some { job := j.no } }
  | none => c

/-- A run of a more urgent class asks the running list to stop (R143). -/
def dispatch (m : Mem) (c : Ctl) : Ctl :=
  if c.plane.switch.isSome ∨ !c.tilesServe then c
  else
    match c.bestReady none with
    | none => c
    | some j =>
      match c.holding with
      | some h => if j.cls < h.cls then c.withPlane fun p => { p with stopReq := true } else c
      | none =>
        if c.plane.last = none ∨ c.plane.last = some j.no then takePlane m j.no c
        else c.withPlane fun p => { p with switch := some { job := j.no } }
/-- RUN_DISPATCH. -/
def execRunDispatch (s : State) : Host.Outcome State Fault Refusal := .next (s.run dispatch)

/-- Quantum of a class, ns. -/
def quantum (c : Ctl) (cls : Nat) : Nat := 1000 * c.param (if cls = 1 then 0x0D80 else 0x0D81)
/-- A quantum is used up and another run of the class is ready: a stop is requested, and the job goes to the back (R418). -/
def quantumOver (_m : Mem) (c : Ctl) : Ctl :=
  match c.holding with
  | none => c
  | some h =>
    if h.cls = 0 ∨ h.quantumUsed < quantum c h.cls ∨ !(c.readyJobs.any fun j => j.cls == h.cls && j.no != h.no) then c
    else
      let back (r : Run) : Run := { r with readyAt := c.clk.ns }
      (c.mapJob h.no fun j => { j with running := j.running.map back }).withPlane fun p => { p with stopReq := true }
/-- QUANTUM_EXPIRY. -/
def execQuantumExpiry (s : State) : Host.Outcome State Fault Refusal := .next (s.run quantumOver)

/-! ### Preemption (R96, R97, R140, R143, R145) -/

/-- Saved sums join running sums, the saved one first: the sums and the saturations by tile (R97). -/
def joinSums (saved sums : Sums) : Sums × List (Nat × Nat) :=
  saved.foldl (fun a x =>
    let (y, n) := runningAdd x.2 (SMap.get 0#32 sums x.1)
    (SMap.insert a.1 x.1 y, if n = 0 then a.2 else (x.1 / 131072, n) :: a.2)) (sums, [])
def countSums (l : List (Nat × Nat)) (c : Ctl) : Ctl := l.foldl (fun c x => count .plnSatSum x.1 x.2 c) c

/-- A pass that stops, or ends, gives its sums to the drain registers. -/
def toDrain (j : Job) (save : Bool) (c : Ctl) : Ctl :=
  let e := j.exec
  let (vals, sat) := if e.savedState = 2 then joinSums e.saved e.sums else (e.sums, [])
  let d : Drain :=
    { job := j.no, idx := e.pc, pass := e.pass, vals := vals, toSave := save, table := e.table, paid := [], filled := [], rows := 0, undo := [] }
  countSums sat (c.withPlane fun p => { p with drain := some d, passWait := false, atPassEnd := !save })

/-- The sums that a drain in a drain wait has not written go to the save area of its command (R143). -/
def cutDrain (m : Mem) (c : Ctl) : Ctl :=
  match c.plane.drain with
  | none => c
  | some d =>
    match c.job? d.job with
    | none => freeDrain c
    | some j =>
      let r := j.cmd d.idx
      let c := freeDrain c
      let c := c.mapJob j.no fun k => { k with exec := { k.exec with cut := some d } }
      if opKind (rOp r) = .array then
        (match putRuns j (rOp r) (fun _ => true) (saveRuns r d.pass d.vals) false m c with
        | .ok (_, c, _) => c
        | .error _ => c)
      else c

/-- The Plane stops (R97, R143, R144, R300, R330). -/
def stopPlane (m : Mem) (j : Job) (at' : StopAt) (c : Ctl) : Ctl :=
  let c := match at' with
    | .inside =>
      onExec j.no (fun e => { e with sums := [], saved := [], savedState := 1, phase := 1 }) (toDrain j true c)
    | .abandon =>
      let again (e : Exec) : Exec :=
        { e with step := 0, grp := 0, sums := [], saved := [], savedState := 0, blocks := [] }
      let c := if j.kind = .array ∧ j.exec.phase = 1 ∧ j.exec.cut = none then count .plnAbandon 0 1 (onExec j.no again c) else c
      if c.plane.drainWait.isSome ∨ (j.kind = .vector ∧ c.plane.operandWait.isSome) then cutDrain m c else c
    | _ => c
  let c := count .plnStop j.cls 1 c
  let c := onExec j.no (fun e => { e with stopped := e.phase = 2, band := [] }) (saveStreams j.no c)
  let c := c.withPlane fun p =>
    { p with holder := none, stopReq := false, operandWait := none, drainWait := none, passWait := false, atPassEnd := false,
             waitFull := none, heldFaults := [] }
  nextRun c

/-- A requested stop reaches its point. -/
def preempt (m : Mem) (c : Ctl) : Ctl :=
  match c.holding with
  | none => c
  | some j => if !c.plane.stopReq ∨ j.cls = 0 ∨ stopAt c j = .no then c else stopPlane m j (stopAt c j) c
/-- PREEMPTION_STOP. -/
def execPreemptionStop (s : State) : Host.Outcome State Fault Refusal := .next (s.run preempt)

/-- A switch ends: the incoming job's list goes on (R144). -/
def switchDone (m : Mem) (c : Ctl) : Ctl :=
  match c.plane.switch with
  | none => c
  | some w =>
    match (c.job? w.job).filter fun j => j.running.isSome && !j.ended with
    | none => c.withPlane fun p => { p with switch := none }
    | some j => count .plnSwitch 0 1 (takePlane m j.no c)
/-- CLASS_SWITCH_COMPLETE. -/
def execClassSwitchComplete (s : State) : Host.Outcome State Fault Refusal := .next (s.run switchDone)

/-- The saved sums of a resumed pass are loaded (R97, R145). -/
def sumsLoaded (m : Mem) (c : Ctl) : Ctl :=
  match c.holding with
  | none => c
  | some j =>
    if j.exec.savedState ≠ 1 ∨ j.exec.phase ≠ 1 ∨ c.plane.drain.isSome ∨ c.plane.copying.isSome then c
    else
      let (vals, p) := (loadSums m c j j.now j.exec.pass).run Port.empty
      let c := noteReads m (p.reads.map (·.2)) c
      onExec j.no (fun e => { e with saved := vals, savedState := 2 }) (c.withPlane fun pl => { pl with passWait := false })
/-- SAVED_SUMS_LOADED. -/
def execSavedSumsLoaded (s : State) : Host.Outcome State Fault Refusal := .next (s.run sumsLoaded)

/-- An operator abort takes effect (R147): inside a command at a step boundary or in OP_WAIT_FULL, once every earlier command is
complete, or before the next command. Inside an OP_WAIT_FULL the status names that OP_WAIT_FULL (DESIGN CHOICE, log entry 126). -/
def abortNow (m : Mem) (c : Ctl) : Ctl :=
  match c.holding with
  | none => c
  | some j =>
    if j.abortReq.isNone then c
    else
      let e := j.exec
      let between : Bool := e.phase != 1 && e.incomplete == [] && c.plane.waitFull.isNone
      if between then failAt m j.no .aborted (if e.phase = 0 then e.pc else e.pc + 1) c
      else if j.cls ≠ 0 ∧ (e.phase = 1 ∨ j.inWaitFull) ∧ e.incomplete.all (· = e.pc) ∧ (stopAt c j = .clean ∨ stopAt c j = .inside) then
        failAt m j.no .aborted e.pc c
      else c
/-- ABORT_EFFECT. -/
def execAbortEffect (s : State) : Host.Outcome State Fault Refusal := .next (s.run abortNow)

/-! ### Faults of tiles (R80, R108, R469) -/

/-- A parity mismatch in logical tile `t` ends the command at record `idx` (R80); the third in a tile within 24 hours retires it
(Table 17.1). -/
def parityFault (t : Nat) (no idx : Nat) (m : Mem) (c : Ctl) : Ctl :=
  let c := failAt m no .planeFault idx c
  match c.physical t with
  | none => c
  | some p =>
    let c := c.withPlane fun pl => { pl with parityTiles := c.lastDay pl.parityTiles ++ [(p, c.clk.ns)] }
    if 3 ≤ c.plane.parityTiles.countP (·.1 = p) then retireTile p m c else c

/-! ### Beginning a command (R117, R132, R135, R138, R278) -/

/-- The command at record `i` may begin now. -/
def mayBegin (c : Ctl) (j : Job) (op : Nat) : Bool :=
  let i := j.next
  i < j.cmds.length && rOp (j.cmd i) == op && j.exec.phase != 1 && c.plane.switch.isNone && !c.plane.stopReq
    && j.abortReq.isNone && c.plane.waitFull.isNone && j.exec.cut.isNone && c.plane.copying.isNone && c.tilesServe
    && (!serial j i || j.exec.incomplete == [])
    && (opKind op != .vector || c.plane.drain.isNone)
    && (op != 0 || streamsDone c j i)
/-- Run `f` with the list and the index of the command that begins, where a command of opcode `op` may begin. -/
def beginOp (op : Nat) (f : Job → Nat → Mem → Ctl → Ctl) (m : Mem) (c : Ctl) : Ctl :=
  match c.holding with
  | none => c
  | some j =>
    if !mayBegin c j op then c
    else
      let i := j.next
      -- at the start of the run, the streams that start ahead of the first array command
      let c := if i = 0 then startAhead j none c else c
      f j i m c

/-- A command is begun: it is incomplete, it writes through its handles, its streams start. -/
def opened (j : Job) (i phase : Nat) (c : Ctl) : Ctl :=
  let r := j.cmd i
  let c := onExec j.no (fun e =>
    { e with pc := i, phase := phase, pass := 0, step := 0, grp := 0, sums := [], saved := [], savedState := 0, blocks := [], band := [],
             table := [], stopped := false, incomplete := e.incomplete ++ [i],
             writers := (rWrites r).foldl (fun l h => SMap.insert l h i) e.writers }) c
  startWith j i (c.withPlane fun p => { p with atPassEnd := false })

/-- An array command begins (R135, R138, R187). -/
def beginArray (j : Job) (i : Nat) (_m : Mem) (c : Ctl) : Ctl :=
  let r := j.cmd i
  let c := startAhead j (some i) (opened j i 1 c)
  let c := if isWindow (rOp r) ∧ rV r = 2 then count .plnWinSlow 0 1 c else c
  -- overlap: no stop between the two, and no fence
  if j.exec.phase = 2 ∧ !j.exec.stopped ∧ !serial j i then count .plnOverlap 0 1 c else c

/-- A vector-only command begins: all of it is a drain of the vector units. -/
def beginVector (j : Job) (i : Nat) (_m : Mem) (c : Ctl) : Ctl :=
  (opened j i 2 c).withPlane fun p =>
    { p with drain := some { job := j.no, idx := i, pass := 0, vals := [], toSave := false, table := [], paid := [], filled := [], rows := 0, undo := [] } }

/-- What completion does: releases, the signal, and the streams that follow (R131, R278). -/
def finishCommand (j : Job) (i : Nat) (c : Ctl) : Ctl := startAfter j i (closeCommand j i c)

/-- The command at record `index` of a job may complete: it is the earliest that is not complete, its row pairs are done, its
drain has ended, and its streams have ended (R131, R278). -/
def mayComplete (c : Ctl) (index : Nat) (j : Job) : Bool :=
  j.running.isSome && !j.ended && j.exec.incomplete.head? == some index && (j.exec.pc != index || decide (2 ≤ j.exec.phase))
    && c.drainOver j index && streamsDone c j index

/-- A command is complete, of the list that holds the Plane or of one whose last drain ended after it left (R131, R139). -/
def complete (index : Nat) (_m : Mem) (c : Ctl) : Ctl :=
  match (c.holding.toList ++ c.jobs).find? (mayComplete c index) with
  | some j => finishCommand j index c
  | none => c

def execCommandComplete (index : Nat) (s : State) : Host.Outcome State Fault Refusal := .next (s.run (complete index))

/-- A control command has its effect and is complete, at once unless streams are tied to it. -/
def control (effect : Job → Nat → Mem → Ctl → Ctl) (j : Job) (i : Nat) (m : Mem) (c : Ctl) : Ctl :=
  let c := effect j i m (opened j i 2 c)
  match c.job? j.no with
  | some k => if streamsDone c k i then finishCommand k i c else c
  | none => c

/-! ### Control commands (R133, R134) -/

/-- OP_END: the run ends with KS_OK; START 2 streams of the command before it have ended. -/
def endList (j : Job) (i : Nat) (m : Mem) (c : Ctl) : Ctl :=
  let c := onExec j.no (fun e => { e with pc := i, phase := 0 }) c
  runEnded m j.no (c.withPlane fun p => { p with holder := none })
/-- OP_WAIT_FULL: complete when every part of the slot is full, else it waits. -/
def waitFull (j : Job) (i : Nat) (m : Mem) (c : Ctl) : Ctl :=
  let w := rWord1 (j.cmd i)
  match j.handle? (bits w 7 0) with
  | none => c
  | some e =>
    if c.handleFull e (bits w 47 16) then control (fun _ _ _ c => c) j i m c
    else (opened j i 1 c).withPlane fun p => { p with waitFull := some c.us }
def signal (j : Job) (i : Nat) (_m : Mem) (c : Ctl) : Ctl :=
  let w := rWord1 (j.cmd i)
  match j.handle? (bits w 7 0) with
  | some e => setAll (if bits w 15 8 = 0 then setFull else setEmpty) (e.slotKeys (bits w 47 16)) c
  | none => c
/-- OP_REPLY hands its slots over (R134, R410). -/
def reply (j : Job) (i : Nat) (_m : Mem) (c : Ctl) : Ctl :=
  let w := rWord1 (j.cmd i)
  match j.running with
  | none => c
  | some run =>
    -- an unused one is 0xFF, which names no handle
    let hs := (List.range 4).map fun k => bits w (8 * k + 7) (8 * k)
    c.withProto fun p => { p with replies := p.replies ++
      [{ job := j.no, code := bits w 47 32, handles := hs, release := bit w 48, run := run, writers := j.exec.writers,
         waitSince := c.us, frozen := false }] }

/-- OP_END. -/
def execOpEnd (s : State) : Host.Outcome State Fault Refusal := .next (s.run (beginOp 0x00 endList))
/-- OP_NOP. -/
def execOpNop (s : State) : Host.Outcome State Fault Refusal := .next (s.run (beginOp 0x01 (control fun _ _ _ c => c)))
/-- OP_WAIT_FULL. -/
def execOpWaitFull (s : State) : Host.Outcome State Fault Refusal := .next (s.run (beginOp 0x02 waitFull))
/-- OP_SIGNAL. -/
def execOpSignal (s : State) : Host.Outcome State Fault Refusal := .next (s.run (beginOp 0x03 (control signal)))
/-- OP_REPLY. -/
def execOpReply (s : State) : Host.Outcome State Fault Refusal := .next (s.run (beginOp 0x04 (control reply)))

/-! ### Array and vector-only commands: their start (R135, R142) -/

/-- OP_MATMUL. -/
def execOpMatmul (s : State) : Host.Outcome State Fault Refusal := .next (s.run (beginOp 0x10 beginArray))
/-- OP_CONV2D. -/
def execOpConv2d (s : State) : Host.Outcome State Fault Refusal := .next (s.run (beginOp 0x11 beginArray))
/-- OP_CONV1D. -/
def execOpConv1d (s : State) : Host.Outcome State Fault Refusal := .next (s.run (beginOp 0x12 beginArray))
/-- OP_CONV_GROUPED. -/
def execOpConvGrouped (s : State) : Host.Outcome State Fault Refusal := .next (s.run (beginOp 0x13 beginArray))
/-- OP_CONV_DW. -/
def execOpConvDw (s : State) : Host.Outcome State Fault Refusal := .next (s.run (beginOp 0x14 beginArray))
/-- OP_POOL_MAX. -/
def execOpPoolMax (s : State) : Host.Outcome State Fault Refusal := .next (s.run (beginOp 0x40 beginVector))
/-- OP_POOL_AVG. -/
def execOpPoolAvg (s : State) : Host.Outcome State Fault Refusal := .next (s.run (beginOp 0x41 beginVector))
/-- OP_UPSAMPLE_NEAREST. -/
def execOpUpsampleNearest (s : State) : Host.Outcome State Fault Refusal := .next (s.run (beginOp 0x42 beginVector))
/-- OP_UPSAMPLE_BILINEAR. -/
def execOpUpsampleBilinear (s : State) : Host.Outcome State Fault Refusal := .next (s.run (beginOp 0x43 beginVector))
/-- OP_CROP_RESIZE. -/
def execOpCropResize (s : State) : Host.Outcome State Fault Refusal := .next (s.run (beginOp 0x44 beginVector))
/-- OP_ARGMAX_CHAN. -/
def execOpArgmaxChan (s : State) : Host.Outcome State Fault Refusal := .next (s.run (beginOp 0x45 beginVector))
/-- OP_SPACE_TO_CHAN. -/
def execOpSpaceToChan (s : State) : Host.Outcome State Fault Refusal := .next (s.run (beginOp 0x46 beginVector))
/-- OP_GATHER. -/
def execOpGather (s : State) : Host.Outcome State Fault Refusal := .next (s.run (beginOp 0x48 beginVector))
/-- OP_SCATTER. -/
def execOpScatter (s : State) : Host.Outcome State Fault Refusal := .next (s.run (beginOp 0x49 beginVector))
/-- OP_ELEMENTWISE. -/
def execOpElementwise (s : State) : Host.Outcome State Fault Refusal := .next (s.run (beginOp 0x4A beginVector))
/-- OP_ADAPT_UPDATE. -/
def execOpAdaptUpdate (s : State) : Host.Outcome State Fault Refusal := .next (s.run (beginOp 0x4B beginVector))

/-! ### Groups, steps and passes (R78, R90, R94, R158, R327) -/

/-- The Plane waits on an operand: pages that the wait needs are requested (R95, R301). -/
def operandWaits (cls : Nat) (miss : List (Nat × Nat)) (j : Job) (c : Ctl) : Ctl :=
  let first := c.plane.operandWait.isNone
  let c := c.withPlane fun p => { p with operandWait := since c p.operandWait }
  miss.foldl (fun c x =>
    match j.page? x.2 with
    | some p =>
      if !first ∧ c.store.pageIns.any fun q => q.flashAddr = p.flashAddr && q.big == p.big then c
      else requestPage p.flashAddr p.big cls (if first then count .strHalt x.1 1 c else c)
    | none => c) c

/-- A preemption point has come for a stop or an abort that is wanted: nothing goes past it. -/
def Ctl.stopsHere (c : Ctl) (j : Job) : Bool :=
  j.cls != 0 && (c.plane.stopReq || j.abortReq.isSome) && (stopAt c j == .clean || stopAt c j == .inside)

/-- Blocks decoded void that the pass has not met before (R327). -/
def noteBlocks (no : Nat) (old new : List Nat) (c : Ctl) : Ctl :=
  let fresh := new.filter fun k => !old.contains k
  let c := fresh.foldl (fun c k => count .pakPoisonBlock (blockUser k) 1 c) c
  c.mapJob no fun j => { j with exec := { j.exec with blocks := j.exec.blocks ++ fresh } }

/-- The prologue's load of the activation table: its knots are in the tiles, or what stands for the group (R158). -/
def prologue (m : Mem) (j : Job) (c : Ctl) : Except Ctl Ctl :=
  let e := j.exec
  if e.pass ≠ 0 ∨ e.step ≠ 0 ∨ e.grp ≠ 0 ∨ e.table ≠ [] then .ok c
  else
    match loadTable m c j j.now with
    | .ready [] _ => .ok c
    | .ready knots p => .ok (onExec j.no (fun e => { e with table := knots }) (noteReadsOf m j.no e.pc p c))
    | .wait _ => .error (operandWaits j.cls [] j c)
    | .outside t => .error (freezeTile .tileFrozen (some (j.no, e.pc)) t m c)
    | .bad => .error (failAt m j.no .badReserved e.pc c)

/-- Plane clocks of `n` row pairs whose decoders both operands share (R324). -/
def shareCount (r n : Nat) (c : Ctl) : Ctl :=
  if isPacked (rFmtA r) && isPacked (rFmtW r) then (List.range 16).foldl (fun c t => count .pakShared t (n * rCw r) c) c else c

/-- One group enters the cells on every tile and joins the running sums (R55, R56, R78, R93, R98). Blocks decoded void, and row
pairs whose elements are shared, are counted as the group is taken (R324, R327). -/
def groupBoundary (parity : Option Nat) (m : Mem) (c : Ctl) : Ctl :=
  match c.holding with
  | none => c
  | some j =>
    let e := j.exec
    let r := j.now
    if j.kind ≠ .array ∨ e.phase ≠ 1 ∨ c.plane.holds ≠ 0 ∨ c.plane.heldFaults ≠ [] ∨ e.cut.isSome ∨ c.plane.copying.isSome
        ∨ rSteps r ≤ e.step ∨ rStepGroups r e.step ≤ e.grp ∨ c.stopsHere j then c
    else
      match parity with
      | some t => parityFault t j.no e.pc m c
      | none =>
        match prologue m j c with
        | .error c => c
        | .ok c =>
          let (l, p) := (allGroups m c j r e).run Port.empty
          match p.outside with
          | some t => freezeTile .tileFrozen (some (j.no, e.pc)) t m c
          | none =>
            if p.wait then operandWaits j.cls p.miss j c
            else
              let keep (e : Exec) : Exec := { e with band := e.band ++ p.decoded }
              let c := (noteBlocks j.no e.blocks p.blocks c).mapJob j.no fun j => { j with exec := keep j.exec }
              if p.faults ≠ [] then c.withPlane fun pl => { pl with heldFaults := p.faults, operandWait := none }
              else
                let c := noteReadsOf m j.no e.pc p c
                let c := (p.voids.eraseDups).foldl (fun c x => count .plnVoidRow x.1 1 c) c
                let c := shareCount r (rG r) c
                let (sums, sat) := addContributions e.sums l
                let c := countSums sat c
                onExec j.no (fun e => { e with sums := sums, grp := e.grp + 1 })
                  (c.withPlane fun pl => { pl with operandWait := none, atPassEnd := false })

def execGroupBoundary (upsets : List Upset) (parity : Option Nat) (s : State) : Host.Outcome State Fault Refusal :=
  .next (s.run (withUpsets upsets (groupBoundary parity)))

/-- Stored rows of a lane block in a weight buffer: (first byte in the home slice, first byte in a ring buffer, bytes). -/
def ringRows (r len total own lanes : Nat) : List (Nat × Nat × Nat) :=
  let f := rFmtW r
  if isWindow (rOp r) then
    (List.range len).map fun i =>
      (own * len * rowBytes f (rLanes r) + i * rowBytes f lanes, i * rowBytes f lanes, rowBytes f lanes)
  else if bit (rWord1 r) 1 then
    (List.range len).map fun i =>
      (i * rowBytes f total + (place f (own * rLanes r)).1, i * rowBytes f lanes, rowBytes f lanes)
  else
    (List.range lanes).map fun l => ((own * rLanes r + l) * rowBytes f len, l * rowBytes f len, rowBytes f len)

/-- Tag FORMAT of a weight word. -/
def weightTag (f : Nat) : Nat := match f with | 1 => 4 | 3 => 5 | 5 => 6 | 6 => 1 | 7 => 2 | _ => 0

/-- Every row that a tile read in step `s` reaches the next tile's ring buffer (R90): the reads were granted in their step, whatever
the tags are by now (R256). -/
def rotate (m : Mem) (c : Ctl) (j : Job) (r : Nat) (e : Exec) : List OutRun :=
  (List.range 16).flatMap fun t =>
    let u := c.ringOrder.getD ((c.ringPos t + 15) % 16) 0
    match passBlock r e.pass u with
    | none => []
    | some (_, own, _, lanes) =>
      let home := homeOf c r u e.step
      let (base, len) := sliceOf r home
      let s0 := storedK r base
      let slen := storedK r (base + len) - s0
      let src := if e.step = 0 then rHandle r 2 else if e.step % 2 = 1 then rHandle r 4 else rHandle r 5
      let dst := if e.step % 2 = 0 then rHandle r 4 else rHandle r 5
      (ringRows r slen (tileLanes r home) own lanes).flatMap fun (a, b, n) =>
        let bs := ((readBytes m c j false src u (if e.step = 0 then a else b) n).run Port.empty).1
        poisonRuns dst t b (weightTag (rFmtW r)) bs

/-- A step ends (R90, R92). -/
def stepBoundary (m : Mem) (c : Ctl) : Ctl :=
  match c.holding with
  | none => c
  | some j =>
    let e := j.exec
    let r := j.now
    if j.kind ≠ .array ∨ e.phase ≠ 1 ∨ rSteps r ≤ e.step ∨ e.grp < rStepGroups r e.step ∨ c.plane.holds ≠ 0
        ∨ c.plane.copying.isSome then c
    else
      let go (c : Ctl) : Ctl := onExec j.no (fun e => { e with step := e.step + 1, grp := 0 }) c
      if rMap r = 1 ∨ 15 ≤ e.step then go c
      else
        match putRuns j (rOp r) (fun _ => true) (gatherRuns (rotate m c j r e)) false m c with
        | .ok (_, c, _) => go c
        | .error (.outside t) => freezeTile .tileFrozen (some (j.no, e.pc)) t m c
        | .error (.noWrite t) => freezeTile .addressFault (some (j.no, e.pc)) t m c
        | .error _ => go c
/-- STEP_BOUNDARY. -/
def execStepBoundary (s : State) : Host.Outcome State Fault Refusal := .next (s.run stepBoundary)

/-- A pass ends: its sums move to the drain registers, once the drain before it is complete (R94, R97, R145). -/
def passEnd (parity : Option Nat) (m : Mem) (c : Ctl) : Ctl :=
  match c.holding with
  | none => c
  | some j =>
    let e := j.exec
    let r := j.now
    if j.kind ≠ .array ∨ e.phase ≠ 1 ∨ e.step < rSteps r ∨ c.plane.holds ≠ 0 then c
    else
      match parity with
      | some t => parityFault t j.no e.pc m c
      | none =>
        if c.plane.drain.isSome ∨ e.savedState = 1 then c.withPlane fun p => { p with passWait := true }
        else
          let next (e : Exec) : Exec :=
            { e with sums := [], saved := [], savedState := 0, blocks := [], band := [], step := 0, grp := 0,
                     pass := if e.pass + 1 < rPasses r then e.pass + 1 else e.pass,
                     phase := if e.pass + 1 < rPasses r then 1 else 2 }
          onExec j.no next (toDrain j false c)
/-- PASS_END. -/
def execPassEnd (parity : Option Nat) (s : State) : Host.Outcome State Fault Refusal := .next (s.run (passEnd parity))

/-! ### The drain (R94, R130, R219, R301, R469) -/

/-- A violation, a bad address or a failed channel in a drain ends its command (R33, R148, R264, R305, R348, R469). -/
def drainFails (m : Mem) (d : Drain) (j : Job) (stop : DrainStop) (c : Ctl) : Ctl :=
  -- the stream engine of tile `t` is frozen in its lowest free context
  let engine (st : KS) (t : Nat) : Ctl :=
    let n := ((List.range 16).find? fun n => !c.ctxBusy t n).getD 0
    failAt m j.no st d.idx (freeze 1 st j.no t n d.idx (rTag (j.cmd d.idx)) c)
  match stop with
  | .badVa t => engine .addressFault t
  | .noWindow t => engine .windowFault t
  | .hbmFault => failAt m j.no .hbmFault d.idx c
  | .noWrite t => freezeTile .addressFault (some (j.no, d.idx)) t m c
  | .outside t => freezeTile .tileFrozen (some (j.no, d.idx)) t m c
  | .operandWait _ _ | .drainWait _ => c

/-- A vector-only command loads its activation table before its first row (R158). -/
def vectorTable (m : Mem) (d : Drain) (j : Job) (c : Ctl) : Except Ctl (Drain × Ctl) :=
  if opKind (rOp (j.cmd d.idx)) ≠ .vector ∨ d.table ≠ [] then .ok (d, c)
  else
    match loadTable m c j (j.cmd d.idx) with
    | .ready [] _ => .ok (d, c)
    | .ready knots p =>
      let d := { d with table := knots }
      .ok (d, noteReadsOf m j.no d.idx p (c.withPlane fun pl => { pl with drain := some d }))
    | .wait _ => .error (operandWaits j.cls [] j c)
    | .outside t => .error (freezeTile .tileFrozen (some (j.no, d.idx)) t m c)
    | .bad => .error (failAt m j.no .badReserved d.idx c)

/-- One attempt of the drain in progress: `parity` is a tile whose drain registers have a parity mismatch (R80). -/
def drainOnce (f : Mem → Drain → Job → Ctl → Attempt Ctl) (parity : Option Nat) (m : Mem) (c : Ctl) : Ctl :=
  match c.plane.drain with
  | none => (match c.holding with | some h => installCut m h.no c | none => c)
  | some d =>
    match c.job? d.job with
    | none => freeDrain c
    | some j =>
      if c.plane.copying.isSome then c
      else
        match parity with
        | some t => parityFault t d.job d.idx m c
        | none =>
          match vectorTable m d j c with
          | .error c => c
          | .ok (d, c) =>
            match f m d j c with
            | .ok c =>
              let c := if opKind (rOp (j.cmd d.idx)) = .vector then c.withPlane fun p => { p with operandWait := none } else c
              let c := noteMove j.no c
              -- sums cut off at a stop are drained once the registers are free
              (match c.holding with
              | some h => installCut (m.apply c.wq) h.no c
              | none => c)
            | .error (.operandWait miss _, c) => operandWaits j.cls miss j c
            | .error (.drainWait _, c) => c.withPlane fun p => { p with drainWait := since c p.drainWait }
            | .error (stop, c) => drainFails m d j stop c
/-- DRAIN_SLOT_FULL. -/
def execDrainSlotFull (slot : Nat) (second : Bool) (s : State) (parity : Option Nat := none) : Host.Outcome State Fault Refusal :=
  .next (s.run (drainOnce (fun m d j c => fillSlot m d j slot second c) parity))
/-- DRAIN_COMPLETE. -/
def execDrainComplete (s : State) (parity : Option Nat := none) : Host.Outcome State Fault Refusal :=
  .next (s.run (drainOnce completeDrain parity))

end Sys2Proof.Machine
end

