-- ==== Sys2Proof/Machine/Waits.lean ====
section
/-! DEFINITION. Blocked accesses, stall limits and the mutual wait, holds and their alarms, write-backs, the store scrubbers
and packing faults (03 R100 to R104; 08 R245 to R262; 09 R304 to R307; 10 R329 to R331; 13 R411; 14 R441; 17 R501). -/

namespace Sys2Proof.Machine

/-! ### The mutual wait (R306, R307) -/

/-- Time of the last change of a slot tag of the job, or of its run's start. -/
def lastChange (c : Ctl) (j : Job) : Nat :=
  (j.handles.flatMap fun h => (List.range h.2.slotCount).flatMap h.2.slotKeys).foldl
    (fun a k => max a (SMap.get 0 c.tagTimes k)) ((j.running.map (·.readyAt)).getD 0)

/-- Slots that the masters of the holding job wait on, as the tags stand: (handle, tag key). None where one of them is not
blocked: a stream that has a piece to move, a port or a drain that has work, a load of saved sums (R306). -/
def waitedOn (m : Mem) (c : Ctl) (j : Job) : Option (List (Nat × Nat)) :=
  let streams := c.ctxs.filter fun x => x.job = j.no
  let held := streams.map (streamWait m c j)
  let arrayRuns : Bool := j.kind == .array && j.exec.phase == 1
  let port := match operandWait m c j with | some w => w.1 | none => []
  let drain := match drainWait m c with | some w => w.2.2 | none => []
  let full := if c.plane.waitFull.isSome then fullWait c j else []
  -- a pass that waits for its drain is blocked with it; one that loads saved sums is not
  let passOk : Bool := c.plane.passWait && c.plane.drain.isSome
  let portOk : Bool := !arrayRuns || port ≠ [] || passOk
  let drainOk : Bool := c.plane.drain.isNone || drain ≠ [] || (!arrayRuns && port ≠ [])
  let listOk : Bool := arrayRuns || full ≠ [] || (c.plane.waitFull.isNone && j.exec.incomplete != [])
  -- a transfer in flight moves unless a tag holds it
  let moving : Bool := c.xfers.any fun x => x.job = j.no && x.granted j c
  if c.plane.holder ≠ some j.no ∨ held.any (· = []) ∨ !portOk ∨ !drainOk ∨ !listOk ∨ moving ∨ j.saved ≠ [] then none
  else some (held.flatten ++ port ++ drain ++ full)

/-- The conditions of R306 hold for a job. -/
def mutualWait (m : Mem) (c : Ctl) (j : Job) : Bool :=
  j.cls != 0 && j.moved ≤ lastChange c j && !(c.ctxs.any fun x => x.job = j.no && x.pos.halted) &&
    match waitedOn m c j with
    | some hs => hs ≠ [] && hs.all fun w => match j.handle? w.1 with | some e => e.producer == 0 && e.place != 2 | none => false
    | none => false

/-- A mutual wait ends its job (R307). -/
def endMutual (m : Mem) (j : Job) (c : Ctl) : Ctl :=
  let c := deliverData j.no m c
  let i := j.exec.incomplete.headD j.exec.pc
  let r := j.cmd i
  let read (h : Nat) : List Nat := (j.exec.readSlots.filter fun x => x.1 = i && x.2.1 = h).map (·.2.2)
  let release (h : Nat) (c : Ctl) : Ctl :=
    match j.handle? h with | some e => setAll setEmpty ((read h).flatMap e.slotKeys) c | none => c
  let c := if rRelA r then release (rHandle r 0) c else c
  let c := if rRelAux r then release (rHandle r 9) c else c
  failAt m j.no .mutualWait i (count .strMutual 0 1 c)

/-! ### Stall limits (R260 to R262, Table 8.6) -/

/-- The command that the job stands at ends, and the job is frozen with all that it holds. -/
def stallJob (m : Mem) (j : Job) (idx : Nat) (c : Ctl) : Ctl :=
  let c := freeze 2 .stallLimit j.no 0 0 idx (rTag (j.cmd idx)) (count .tstStall 0 1 c)
  failAt m j.no .stallLimit idx c

/-- The limit of a wait, µs: TST_EXT_WAIT_LIMIT for a read of slots that intake or the host fills, else TST_STALL_LIMIT (R260). -/
def stallUs (c : Ctl) (j : Job) (read : Bool) (on : List (Nat × Nat)) : Nat :=
  let ext : Bool := on ≠ [] && on.all fun w =>
    match j.handle? w.1 with | some e => e.producer == 1 || e.producer == 2 | none => false
  if read && ext then c.param 0x0801 else c.param 0x0800
/-- A wait that began at `start` has passed its limit (R261). -/
def overdue (c : Ctl) (limit : Nat) (start : Option Nat) : Bool := match start with | some t => t + limit ≤ c.us | none => false

/-- A wait of a master of a job, on slots `on`, past its limit: a mutual wait, or a stall-limit fault. What no tag holds back is
no such wait, and waits that halted streams would end are not counted (R262, R304). -/
def stall (m : Mem) (j : Job) (start : Option Nat) (read : Bool) (on : List (Nat × Nat)) (fault : Ctl → Ctl) (c : Ctl) : Ctl :=
  if on = [] ∨ onHalted m c j on ∨ !overdue c (stallUs c j read on) start then c
  else if mutualWait m c j then endMutual m j c
  else fault c

/-- A RESULT has waited past its limit: on a slot that does not fill, or with a job that is gone (R411). -/
def replyLate (c : Ctl) (rp : Reply) : Bool :=
  match c.job? rp.job with
  | some j => (j.ended || !replyReady c j rp) && overdue c (c.param 0x0800) (some rp.waitSince)
  | none => false

/-- The store copy of a substitution suspends the wait: it is not counted against any stall limit (R541; log entry 128). -/
def copySuspends (c : Ctl) : Waiter → Bool
  | .stream tile _ => c.plane.copying == some tile
  | _ => c.plane.copying.isSome

/-- The stall limit of a master has passed, where it waits past it. -/
def pastLimit (w : Waiter) (m : Mem) (c : Ctl) : Ctl :=
  match w with
  | .operand =>
    (match c.holding with
    | some j =>
      (match operandWait m c j with
      | some (on, _) => stall m j c.plane.operandWait true on (stallJob m j (j.exec.incomplete.getLastD j.exec.pc)) c
      | none => c)
    | none => c)
  | .drain =>
    (match drainWait m c with
    | some (j, d, on) =>
      -- a stage operand is read, an output slot written
      stall m j c.plane.drainWait (on.all fun w => !c.slotFull w.2) on (fun c => stallJob m j d.idx c) c
    | none => c)
  | .waitFull =>
    (match c.holding with
    | some j => if c.plane.waitFull.isNone then c else stall m j c.plane.waitFull true (fullWait c j) (stallJob m j j.exec.pc) c
    | none => c)
  | .stream tile n =>
    (match c.ctxs.find? fun x => x.tile = tile && x.ctx = n && x.blocked.isSome && c.plane.holder == some x.job with
    | some x =>
      (match c.job? x.job with
      | some j =>
        let on := streamWait m c j x
        stall m j x.blocked (on.all fun w => !c.slotFull w.2) on
          (fun c => streamFault m .stallLimit true x (count .tstStall 0 1 c)) c
      | none => c)
    | none => c)
  | .reply =>
    -- the RESULT handed over first that still waits: its transfer is frozen (R411)
    (match c.proto.replies.find? fun rp => !rp.frozen && replyLate c rp with
    | some rp =>
      let hit (x : Reply) : Reply := if x = rp then { x with frozen := true } else x
      let c := (count .tstStall 0 1 c).withProto fun p => { p with replies := p.replies.map hit }
      let c := freeze 3 .stallLimit rp.job 0 0 0 0 c
      let to' := match c.job? rp.job with | some j => [j.submitter] | none => []
      event 9 rp.job KS.stallLimit.code 0 0 0 (toBe 2 rp.code ++ toBe 4 rp.run.seq) to' c
    | none => c)
  | .intake n => if overdue c (c.param 0x0800) (c.intake n).waitSince then intakeStall n m c else c
  | .crosswind p =>
    if 4 ≤ p then c
    else
      let x := c.port p
      let dry := (sendable c p).filter fun k => !k.2
      (match x.waits.find? fun w => (dry.any fun k => k.1 == w.1) && overdue c (c.param 0x0800) (some w.2) with
      | some (k, _) =>
        (match c.job? k.1 with
        | some j =>
          let c := count .tstStall 0 1
            (c.setPort p { x with frozen := x.frozen ++ [k], sending := x.sending.filter fun y => (y.1, y.2.1, y.2.2.1, y.2.2.2.1) ≠ k })
          -- a thaw names the port
          let c := freeze 4 .stallLimit j.no k.2.2.2 p j.exec.pc (rTag j.now) c
          if j.running.isSome then failJob m j.no .stallLimit c else c
        | none => c)
      | none => c)
/-- The stall limit of a master has passed. -/
def stallLimit (w : Waiter) (m : Mem) (c : Ctl) : Ctl := if copySuspends c w then c else pastLimit w m c
/-- STALL_LIMIT_EXCEEDED (R262). -/
def execStallLimitExceeded (w : Waiter) (s : State) : Host.Outcome State Fault Refusal := .next (s.run (stallLimit w))

/-! ### Grants (R254) -/

/-- A blocked access is granted: the slot's tag allows it now. -/
def granted (w : Waiter) (m : Mem) (c : Ctl) : Ctl :=
  match w with
  | .operand =>
    (match c.holding with
    | some j =>
      (match operandWait m c j with
      | some (on, pagesOnly) =>
        if on = [] ∧ !pagesOnly ∧ c.plane.copying.isNone then noteMove j.no (c.withPlane fun p => { p with operandWait := none }) else c
      | none => c)
    | none => c)
  | .drain =>
    (match drainWait m c with
    | some (j, _, on) => if on = [] ∧ c.plane.copying.isNone then noteMove j.no (c.withPlane fun p => { p with drainWait := none }) else c
    | none => c)
  | .waitFull =>
    (match c.holding with
    | some j =>
      let w := rWord1 j.now
      (match j.handle? (bits w 7 0) with
      | some e =>
        if c.plane.waitFull.isNone ∨ c.plane.copying.isSome ∨ !c.handleFull e (bits w 47 16) then c
        else
          let c := onExec j.no (fun e => { e with phase := 2 }) (c.withPlane fun p => { p with waitFull := none })
          (match c.job? j.no with
          | some k => if streamsDone c k k.exec.pc then finishCommand k k.exec.pc c else c
          | none => c)
      | none => c)
    | none => c)
  | .stream tile n =>
    (match c.ctxs.find? fun x => x.tile = tile && x.ctx = n && x.blocked.isSome with
    | some x =>
      (match c.job? x.job with
      | some j =>
        if streamWait m c j x = [] then
          let put (y : Ctx) : Ctx := if y.tile = tile ∧ y.ctx = n then { y with blocked := none } else y
          noteMove j.no { c with ctxs := c.ctxs.map put }
        else c
      | none => c)
    | none => c)
  -- a reply whose slots are full is sent by RESULT_SEND
  | .reply => c
  | .intake n => intakeGranted n m c
  | .crosswind p =>
    if 4 ≤ p then c
    else
      let dry := (sendable c p).filter fun k => !k.2
      c.setPort p { c.port p with waits := (c.port p).waits.filter fun w => dry.any fun k => k.1 == w.1 }
/-- BLOCKED_ACCESS_GRANTED (R254). -/
def execBlockedAccessGranted (w : Waiter) (s : State) : Host.Outcome State Fault Refusal := .next (s.run (granted w))

/-! ### Corrections and holds (R100 to R104, R501) -/

/-- CORRECTION_WINDOW: each tile's corrections are counted afresh in the next window (R100). -/
def execCorrectionWindow (s : State) : Host.Outcome State Fault Refusal :=
  .next (s.run fun _ c => c.withPlane fun p => { p with windowCorr := [] })
/-- A hold of 4 plane clocks ends; one raised meanwhile begins (R101). -/
def holdEnds (c : Ctl) : Ctl :=
  if c.plane.holds = 0 then c else count .plnHoldClk 0 4 (c.withPlane fun p => { p with holds := p.holds - 1 })
/-- GLOBAL_HOLD_END (R101). -/
def execGlobalHoldEnd (s : State) : Host.Outcome State Fault Refusal := .next (s.run fun _ c => holdEnds c)
/-- HOLD_ALARM_INTERVAL (R104). -/
def execHoldAlarmInterval (s : State) : Host.Outcome State Fault Refusal :=
  .next (s.run fun _ c => c.withPlane fun p => { p with intervalHolds := 0, signalled := false })

/-- Banks of store `st` that the limits of R501 retire. -/
def banksOver (c : Ctl) (st : Nat) : List Nat :=
  (List.range 128).filterMap fun b =>
    let k := st * 128 + b
    if c.param 0x0D99 < c.store.bankCorr.countP (·.1 = k) ∨ 2 ≤ c.store.bankUncorr.countP (·.1 = k) then some k else none
/-- One second ends: at 100 signals or more the limits are applied at once to the tile with the most excess corrections
(R501). -/
def alarmWindow (c : Ctl) : Ctl :=
  let c := if c.plane.windowSignals < 100 then c
    else
      let n (t : Nat) : Nat := SMap.get 0 c.plane.windowExcess t
      match (List.range 16).find? fun t => (List.range 16).all fun u => n u ≤ n t with
      | some t => c.withStore fun s => { s with bankDue := (s.bankDue ++ banksOver c t).eraseDups }
      | none => c
  c.withPlane fun p => { p with windowSignals := 0, windowExcess := [] }
/-- HOLD_ALARM_WINDOW (R501). -/
def execHoldAlarmWindow (s : State) : Host.Outcome State Fault Refusal := .next (s.run fun _ c => alarmWindow c)

/-! ### Write-backs and scrubbing (R245 to R247) -/

/-- The write-back of a word that a read found corrected or uncorrectable is granted. -/
def correctionBack (w : Nat) (m : Mem) (c : Ctl) : Ctl :=
  if c.store.writeBacks.contains w ∧ (storeOf (32 * w)).isSome then emit (writeBack m w) c else c
/-- CORRECTION_WRITE_BACK (R245). -/
def execCorrectionWriteBack (w : Nat) (s : State) : Host.Outcome State Fault Refusal := .next (s.run (correctionBack w))

/-- The stores are clocked. -/
def Ctl.storesRun (c : Ctl) : Bool := c.accepting || c.power.stage = .link || c.power.stage = .training || c.power.stage = .padHold
/-- A store's scrubber reads its next word (R247). -/
def scrubStore (store : Nat) (m : Mem) (c : Ctl) : Ctl :=
  if 17 ≤ store ∨ !c.storesRun ∨ c.plane.copying = some store ∨ (store < 16 && (c.physical store).isNone) then c
  else
    let pos := SMap.get 0 c.store.storeScrub store
    let c := noteRead m (storeBase store / 32 + pos) c
    let wraps : Bool := storeBytes store / 32 ≤ pos + 1
    let c := c.withStore fun s => { s with storeScrub := SMap.put 0 s.storeScrub store (if wraps then 0 else pos + 1) }
    if wraps ∧ store < 16 then count .tstScrubPass store 1 c else c
/-- STORE_SCRUB_ACCESS (R247). -/
def execStoreScrubAccess (store : Nat) (upsets : List Upset) (s : State) : Host.Outcome State Fault Refusal :=
  .next (s.run (withUpsets upsets (scrubStore store)))

/-! ### Packing faults (R329 to R331) -/

/-- The cells reach a block that faulted. The faults of one clock, those of the row pair that the cells take first, are counted
each in its tile, and the report names the lowest tile (R329 to R331). -/
def packFault (m : Mem) (c : Ctl) : Ctl :=
  match c.holding with
  | none => c
  | some j =>
    if c.stopsHere j then c
    else
      let held := c.plane.heldFaults
      let fs := held.filter fun f => held.all fun g => f.pair ≤ g.pair
      match fs.find? fun f => fs.all fun g => f.tile ≤ g.tile with
      | none => c
      | some f =>
        -- the row pairs before it have entered: what their reads raised, their void rows, their shared clocks (R230, R324, R334)
        let (e, r) := (j.exec, j.now)
        let p := ((allGroups m c j r e).run Port.empty).2
        let c := noteReadsOf m j.no e.pc p c
        let c := ((p.voids.filter fun x => x.2 < groupK c r x.1 e.step e.grp + f.pair).eraseDups).foldl
          (fun c x => count .plnVoidRow x.1 1 c) c
        let c := shareCount r f.pair c
        let c := fs.foldl (fun c g =>
          let k : Cnt := if g.status = KS.packOverrun.code then .pakOverrun else if g.status = KS.packPadding.code then .pakPadding else .pakFormat
          count k g.tile 1 c) c
        let st : KS := if f.status = KS.packOverrun.code then .packOverrun else if f.status = KS.packPadding.code then .packPadding else .packFormat
        endJobWith ([byte f.tile, byte (b2n f.weight), byte f.handle, 0] ++ toBe 4 f.offset) m j.no st 4 j.exec.pc (rTag j.now) c
/-- PACKING_FAULT (R329). -/
def execPackingFault (s : State) : Host.Outcome State Fault Refusal := .next (s.run packFault)

end Sys2Proof.Machine
end

