-- ==== Sys2Proof/Machine/Memory.lean ====
section
/-! DEFINITION. HBM and weight flash on their own: page-ins, scrubbing, refresh, rows, alerts, retraining, repair, patrol,
refresh and erasure of erase blocks (11_hbm_flash.md R338 to R363). -/

namespace Sys2Proof.Machine

/-- HBM takes accesses: it is trained and out of self-refresh. -/
def Ctl.hbmOn (c : Ctl) : Bool := c.accepting || c.power.stage = .padHold || c.power.stage = .link

/-! ### Page-ins (R356 to R359) -/

/-- The stacks that a page-in reads, in whose queues it waits: one for a 64 KiB page, both for a 2 MiB page (R349, R357). -/
def PageIn.uses (q : PageIn) (stack : Nat) : Bool := q.big || (flashPlace q.flashAddr).1 == stack
/-- The queue's order: class, then age (R357). -/
def PageIn.before (a b : PageIn) : Bool := a.cls < b.cls || (a.cls == b.cls && a.order ≤ b.order)
/-- Page-ins that share a stack with `a`, itself among them. -/
def queueOf (c : Ctl) (a : PageIn) : List PageIn := c.store.pageIns.filter fun q => (List.range 2).any fun s => a.uses s && q.uses s
/-- The page-in that a stack's queue serves next: the first of every queue it waits in, where none of them is under way
(R357). -/
def nextPageIn (stack : Nat) (c : Ctl) : Option PageIn :=
  match (c.store.pageIns.filter (·.uses stack)).find? fun a => (c.store.pageIns.filter (·.uses stack)).all a.before with
  | some a => if (queueOf c a).all fun q => a.before q && q.frame.isNone then some a else none
  | none => none

/-- The page-in that the queue serves next takes a frame, free or made free (R356, R358). -/
def startPageIn (stack : Nat) (m : Mem) (c : Ctl) : Ctl :=
  if !c.hbmOn then c
  else
    match nextPageIn stack c with
    | none => c
    | some a =>
      match makeFrame m a.bytes [] (c.store.residents.length + 1) c with
      | none => c
      | some (f, c) =>
        let take (x : PageIn) : PageIn := if x = a then { x with frame := some f } else x
        c.withStore fun s => { s with pageIns := s.pageIns.map take }
/-- PAGE_IN_START (R357). -/
def execPageInStart (stack : Nat) (s : State) : Host.Outcome State Fault Refusal := .next (s.run (startPageIn stack))

/-- Patrol and refresh reads of a stack wait behind its page-ins: one is under way, or could start (R357). -/
def readsWait (stack : Nat) (m : Mem) (c : Ctl) : Bool :=
  c.store.pageIns.any (fun q => q.uses stack && q.frame.isSome)
    || (match nextPageIn stack c with
      | some a => (makeFrame m a.bytes [] (c.store.residents.length + 1) c).isSome
      | none => false)
/-- A page-in fails: every job with a stream halted on the page, or a wait of its list on it, ends with KS_FLASH_FAULT (R359). -/
def pageInFails (q : PageIn) (m : Mem) (c : Ctl) : Ctl :=
  let c := c.withStore fun s => { s with pageIns := s.pageIns.filter (· ≠ q) }
  let c := c.ctxs.foldl (fun c x =>
    match c.job? x.job with
    | some j => if x.pos.halted ∧ posIn m j x.pos q.flashAddr q.big then streamFault m .flashFault false x c else c
    | none => c) c
  -- streams that were saved while halted on it
  let c := c.jobs.foldl (fun c j0 =>
    match c.job? j0.no with
    | some j =>
      (match j.saved.find? fun p => p.halted && posIn m j p q.flashAddr q.big with
      | some p => if j.ended then c else failAt m j.no .flashFault (tCmd (j.stream p.record)) c
      | none => c)
    | none => c) c
  match c.holding with
  | some j =>
    let names (va : Nat) : Bool :=
      match j.page? va with | some p => p.flash && p.flashAddr == q.flashAddr && p.big == q.big | none => false
    let miss : List (Nat × Nat) :=
      if c.plane.operandWait.isNone then []
      else if j.kind = .array ∧ j.exec.phase = 1 then ((allGroups m c j j.now j.exec).run Port.empty).2.miss
      else match c.plane.drain with
        | some d => (match completeDrain m d j c with | .error (.operandWait l _, _) => l | _ => [])
        | none => []
    if miss.any fun x => names x.2 then failJob m j.no .flashFault c else c
  | none => c

/-- Every write of the page-in under way is acknowledged (R355, R356); its reads have suspended `suspends` programs or erases of the
stack, and `others` of the other one, which a 2 MiB page reaches too. In Lee mode a page-in for a job that was not kept leaves no page,
and its frame is free (R510). -/
def endPageIn (stack : Nat) (dead : Bool) (suspends others : Nat) (m : Mem) (c : Ctl) : Ctl :=
  match c.store.pageIns.find? fun q => q.uses stack && q.frame.isSome with
  | none => c
  | some q =>
    let c := noteSuspends stack suspends c
    let c := if q.big then noteSuspends (1 - stack) others c else c
    if dead ∨ pieceLost m q.flashAddr q.bytes then pageInFails q m c
    else
      let f := q.frame.getD 0
      let c := readFlash m q.flashAddr q.bytes c
      let c := count .flsPageIn q.cls 1 (emit (pageWrites m q.flashAddr f q.bytes) c)
      let c := c.withStore fun s => { s with pageIns := s.pageIns.filter (· ≠ q) }
      let c := touchHbm f (q.bytes / 32) c
      if c.service.lee ∧ !(c.jobs.any fun j => !j.ended && j.pages.any fun p => p.flash && p.flashAddr == q.flashAddr && p.big == q.big) then c
      else unhalt (m.apply c.wq) (becomeResident q.flashAddr q.big f q.asked c)
/-- PAGE_IN_COMPLETE (R356). -/
def execPageInComplete (stack : Nat) (upsets : List Upset) (channelDead : Bool) (s : State) (suspends : Nat := 0)
    (others : Nat := 0) : Host.Outcome State Fault Refusal :=
  .next (s.run (withUpsets upsets (endPageIn stack channelDead suspends others)))

/-! ### Write-backs and the patrol of HBM (R338, R339) -/

/-- The write-back of an HBM word that a read found corrected or uncorrectable: after the requests of every class that are queued for
its pseudo-channel (R338). -/
def hbmBack (w : Nat) (m : Mem) (c : Ctl) : Ctl :=
  let pc := (hbmPlace (32 * w)).1
  let others := c.withStore fun s => { s with writeBacks := s.writeBacks.filter (· ≠ w) }
  if !c.hbmOn ∨ !c.store.writeBacks.contains w ∨ regionOf (32 * w) ≠ .hbm
      ∨ (c.withStore fun s => { s with writeBacks := [] }).requestQueued (fun p => p.1 == pc) then c
  else emit (writeBack m w) (touchHbm (32 * w) 1 others)
/-- HBM_CORRECTION_WRITE_BACK (R338). -/
def execHbmCorrectionWriteBack (w : Nat) (s : State) : Host.Outcome State Fault Refusal := .next (s.run (hbmBack w))

/-- The patrol reads its next word; a pass ends with the last word of stack 1. -/
def patrolHbm (m : Mem) (c : Ctl) : Ctl :=
  if !c.hbmOn then c
  else
    let w := c.store.hbmScrub
    let c := touchHbm (32 * w) 1 (noteRead m w c)
    let wraps : Bool := hbmEnd / 32 ≤ w + 1
    let c := c.withStore fun s => { s with hbmScrub := if wraps then 0 else w + 1 }
    if wraps then count .hbmScrubPass 0 1 c else c
/-- HBM_PATROL_SCRUB (R339). -/
def execHbmPatrolScrub (upsets : List Upset) (s : State) : Host.Outcome State Fault Refusal :=
  .next (s.run (withUpsets upsets patrolHbm))

/-! ### Refresh and open rows (R343, R345, R346) -/

/-- Requests are queued for a bank (R346). -/
def bankQueued (c : Ctl) (pc bk : Nat) : Bool := c.requestQueued fun p => p.1 == pc && p.2.1 == bk
/-- A refresh closes the bank's row and leaves its predictor. -/
def refreshBank (pc bk : Nat) (c : Ctl) : Ctl :=
  let k := pc * 48 + bk
  c.setBank k { c.bank k with openRow := none, postponed := false }
/-- The rotation's next bank is refreshed, or its refresh is postponed while requests are queued for it. -/
def nextRefresh (pc bk : Nat) (c : Ctl) : Ctl :=
  if !c.hbmOn ∨ 64 ≤ pc ∨ c.store.failed.contains pc ∨ bk ≠ SMap.get 0 c.store.refreshNext pc then c
  else
    let c := c.withStore fun s => { s with refreshNext := SMap.put 0 s.refreshNext pc ((bk + 1) % 48) }
    if bankQueued c pc bk then c.setBank (pc * 48 + bk) { c.bank (pc * 48 + bk) with postponed := true } else refreshBank pc bk c
/-- PER_BANK_REFRESH (R345). -/
def execPerBankRefresh (pc bk : Nat) (s : State) : Host.Outcome State Fault Refusal := .next (s.run fun _ c => nextRefresh pc bk c)
/-- REFRESH_DEADLINE: a postponed refresh is issued ahead of every request (R346). -/
def execRefreshDeadline (pc bk : Nat) (s : State) : Host.Outcome State Fault Refusal :=
  .next (s.run fun _ c => if pc < 64 ∧ bk < 48 ∧ c.hbmOn ∧ (c.bank (pc * 48 + bk)).postponed then refreshBank pc bk c else c)
/-- ROW_CLOSE_TIMEOUT: a row kept open with no request queued for it closes; the last decision stands (R343). -/
def execRowCloseTimeout (pc bk : Nat) (s : State) : Host.Outcome State Fault Refusal :=
  .next (s.run fun _ c =>
    let k := pc * 48 + bk
    let queued : Bool := match (c.bank k).openRow with | some row => c.rowQueued pc bk row | none => false
    if pc < 64 ∧ bk < 48 ∧ c.hbmOn ∧ (c.bank k).keptOpen ∧ !queued then c.setBank k { c.bank k with openRow := none } else c)

/-! ### Faults of HBM (R344, R347, R348) -/

/-- Every bank of a pseudo-channel is precharged. -/
def precharge (pc : Nat) (c : Ctl) : Ctl :=
  (List.range 48).foldl (fun c b => c.setBank (pc * 48 + b) { c.bank (pc * 48 + b) with openRow := none }) c

/-- Pseudo-channels fail: jobs whose transfers reach them end with KS_HBM_FAULT, and Lee cause 3 arises (R348, R506). -/
def failChannels (pcs : List Nat) (m : Mem) (c : Ctl) : Ctl :=
  let c := c.withStore fun s => { s with failed := (s.failed ++ pcs).eraseDups }
  let hit (x : Xfer) : Bool := match x.hbmSide with | some a => c.hbmFailed a x.words | none => false
  let c := (c.xfers.filter hit).foldl (fun c x =>
    match c.job? x.job with
    | some j =>
      -- what has not been delivered of such a transfer is lost
      let c := { c with xfers := c.xfers.filter fun y => !(y.job = x.job && hit y) }
      failAt m x.job .hbmFault (tCmd (j.stream x.record)) c
    | none => c) c
  raiseLee 3 m c
/-- Retrain a pseudo-channel; a retraining that fails makes it failed (R347). -/
def retrain (pc : Nat) (ok : Bool) (m : Mem) (c : Ctl) : Ctl :=
  let c := precharge pc (count .hbmRetrain (pc / 32) 1 c)
  if ok then c else failChannels [pc] m c

/-- A parity alert: the commands of the last 24 clocks are sent again and no result changes; three in a row without a good
command between them retrain the pseudo-channel (R344). -/
def parityAlert (pc : Nat) (good ok : Bool) (m : Mem) (c : Ctl) : Ctl :=
  if !c.hbmOn ∨ 64 ≤ pc ∨ c.store.failed.contains pc then c
  else
    let n := (if good then 0 else SMap.get 0 c.store.alerts pc) + 1
    let c := precharge pc (count .hbmCaParity (pc / 32) 1 c)
    let c := c.withStore fun s => { s with alerts := SMap.put 0 s.alerts pc (if 3 ≤ n then 0 else n) }
    if 3 ≤ n then retrain pc ok m c else c
/-- CA_PARITY_ALERT: `good` says that a good command came since the alert before, `succeeds` how a retraining ends (R344, R347). -/
def execCaParityAlert (pc : Nat) (good : Bool) (s : State) (succeeds : Bool := true) : Host.Outcome State Fault Refusal :=
  .next (s.run (parityAlert pc good succeeds))
/-- HBM_RETRAINING: in a gap with no Gale run running or waiting (R347). -/
def execHbmRetraining (pc : Nat) (succeeds : Bool) (s : State) : Host.Outcome State Fault Refusal :=
  .next (s.run fun m c =>
    if c.hbmOn ∧ pc < 64 ∧ !c.store.failed.contains pc ∧ c.galeIdle then retrain pc succeeds m c else c)
/-- FORCED_RETRAINING (R347, Table 17.3). -/
def execForcedRetraining (pc : Nat) (succeeds : Bool) (s : State) : Host.Outcome State Fault Refusal :=
  .next (s.run fun m c =>
    if c.hbmOn ∧ pc < 64 ∧ !c.store.failed.contains pc then
      retrain pc succeeds m (serviceEvent 5 5 pc 0 (count .hbmRetrainForced (pc / 32) 1 c))
    else c)
/-- HBM_STACK_NOT_RESPONDING (R348). -/
def execHbmStackNotResponding (stack : Nat) (s : State) : Host.Outcome State Fault Refusal :=
  .next (s.run fun m c => if c.hbmOn ∧ stack < 2 then failChannels ((List.range 32).map (32 * stack + ·)) m c else c)

/-- Device addresses of the two 512-byte chunks of a row: the inverse of the map of R335. -/
def rowChunks (pc bk row : Nat) : List Nat :=
  (List.range 2).map fun h =>
    let v := 2 * (row * 48 + bk) + h
    let low := pc % 32 ^^^ bits v 4 0 ^^^ bits v 9 5
    pc / 32 * 0x000600000000 + (v * 32 + low) * 512

/-- HBM_PPR_LEFT at or below 2, and at 0 (R504). -/
def repairWear (stack : Nat) (c : Ctl) : Ctl :=
  let n := repairsLeft c stack
  let c := if n ≤ 2 then wearEvent (0x400 + 2 * stack) 5 stack n c else c
  if n = 0 then wearEvent (0x401 + 2 * stack) 5 stack n c else c

/-- A candidate row is repaired with its words kept, or its frames are retired (R348); in Lee mode the repair waits (R509). -/
def repairRow (pc bk row : Nat) (m : Mem) (c : Ctl) : Ctl :=
  let bank := pc * 48 + bk
  let k := bank * 16384 + row
  if !c.hbmOn ∨ c.service.lee ∨ !c.store.repairDue.contains k ∨ !c.atPoint ∨ !c.galeIdle then c
  else
    let chunks := rowChunks pc bk row
    let forget (s : Store) : Store :=
      { s with repairDue := s.repairDue.filter (· ≠ k), rowCorr := s.rowCorr.filter fun x => x.1 ≠ k }
    if SMap.get 0 c.store.repairsUsed bank < Config.repairsPerBank then
      -- the 32 words are read, and written back with fresh check codes
      let ws := chunks.flatMap fun a => m.listedWords a (a + 512)
      let c := touchRow pc bk row 32 (noteReads m ws c)
      let c := emit ((ws.filter fun w => (m.readWord w).found ≠ .clean).flatMap (writeBack m)) c
      let c := c.withStore fun s =>
        { forget s with softRepairs := s.softRepairs ++ [k], repairsUsed := addAt s.repairsUsed bank 1,
                        writeBacks := s.writeBacks.filter fun w => !ws.contains w }
      let c := count .hbmRowRepair (pc / 32) 1 (touchRow pc bk row 32 (refreshBank pc bk c))
      repairWear (pc / 32) (serviceEvent 4 5 (pc / 32) (repairsLeft c (pc / 32)) c)
    else
      let c := c.withStore fun s => { forget s with retiredFrames := (s.retiredFrames ++ chunks.map (· / 0x10000)).eraseDups }
      serviceEvent 4 5 (pc / 32) (repairsLeft c (pc / 32)) c
/-- ROW_REPAIR (R348). -/
def execRowRepair (pc bk row : Nat) (s : State) : Host.Outcome State Fault Refusal := .next (s.run (repairRow pc bk row))

/-! ### Weight flash (R361 to R363) -/

/-- The patrol reads the 16 pieces of an installed 64 KiB unit and its parity piece, behind every page-in; more than 4 corrected
words in a piece make its block a refresh candidate (R357, R362). -/
def patrolFlash (unit suspends : Nat) (m : Mem) (c : Ctl) : Ctl :=
  let fa := flashBase + 0x10000 * unit
  if !c.accepting ∨ flashEnd ≤ fa ∨ !c.installed fa ∨ readsWait (unit % 2) m c then c
  else
    let pieces := ((List.range 16).map fun i => fa + 4096 * i) ++ [parityPiece unit]
    let c := readPieces pieces (noteSuspends (unit % 2) suspends c)
    let c := (pieces.flatMap fun a => m.listedWords a (a + 4096)).foldl (fun c w => noteFlash m w c) c
    pieces.foldl (fun c a =>
      let n := (m.listedWords a (a + 4096)).countP fun w => (m.readWord w).found = .corrected
      if 4 < n then
        c.withStore fun s => { s with refreshDue := (s.refreshDue ++ [c.blockOf (blockKey a)]).eraseDups }
      else c) c
/-- FLASH_PATROL (R362). -/
def execFlashPatrol (unit : Nat) (upsets : List Upset) (s : State) (suspends : Nat := 0) : Host.Outcome State Fault Refusal :=
  .next (s.run (withUpsets upsets (patrolFlash unit suspends)))

/-- Words of the pieces that a place holds. -/
def placeWords (m : Mem) (place : Nat) : List Nat :=
  (m.listedWords flashBase (parityPiece (2 ^ 22))).filter fun w => blockKey (32 * w) = place

/-- A refresh candidate's pieces go to a block of its channel's spare pool, behind every page-in, and the map follows; the old
block is erased and joins the pool (R357, R362). -/
def refreshBlock (key suspends : Nat) (m : Mem) (c : Ctl) : Ctl :=
  let stack := key / 4096 / 17
  if !c.accepting ∨ !c.store.refreshDue.contains key ∨ readsWait stack m c then c
  else
    let due (c : Ctl) : Ctl := c.withStore fun s => { s with refreshDue := s.refreshDue.filter (· ≠ key) }
    match placeOf c key with
    | none => due c
    | some p =>
      if !(heldPlaces c).contains p then due c
      else
        match sparePool c (key / 4096) with
        | none => c
        | some new =>
          let ws := placeWords m p
          let c := ws.foldl (fun c w => noteFlash m w c) (noteSuspends stack suspends c)
          let c := emit (ws.flatMap fun w =>
            let r := (m.flashRead w).1
            -- a parity word that cannot be formed stays as it is
            if (m.readWord w).found = .clean ∨ (flashEnd ≤ 32 * w ∧ r.found = .uncorrectable) then []
            else wholeWord w r.data r.tag) c
          let c := (due c).withStore fun s =>
            { s with blockMap := SMap.put p s.blockMap p new,
                     -- a place of a removed bundle is still to be erased, where it is now
                     toErase := s.toErase ++ [key]
                       ++ (if c.store.removed.any fun r => (bundleBlocks r.1 r.2).contains p then [new] else []),
                     blockReads := SMap.put 0 s.blockReads new 0 }
          count .flsRefresh stack 1 c
/-- FLASH_BLOCK_REFRESH (R362). -/
def execFlashBlockRefresh (channel block : Nat) (s : State) (suspends : Nat := 0) : Host.Outcome State Fault Refusal :=
  .next (s.run (refreshBlock (channel * 4096 + block) suspends))

/-- An admitted job names a page of the range, or a page-in is queued for one (R361). -/
def rangeNamed (c : Ctl) (r : Nat × Nat) : Bool :=
  let within (fa : Nat) : Bool := r.1 ≤ fa && fa < r.1 + alignUp r.2 0x200000
  c.jobs.any (fun j => j.pages.any fun p => p.flash && within p.flashAddr) || c.store.pageIns.any fun q => within q.flashAddr
/-- A block of a removed bundle or of a refreshed place is erased, or retired where it fails (R361, R363, R504). -/
def eraseBlock (key : Nat) (ok : Bool) (m : Mem) (c : Ctl) : Ctl :=
  let blocks (r : Nat × Nat) : List Nat := (bundleBlocks r.1 r.2).map c.blockOf
  let reading : Bool := c.store.pageIns.any fun q => q.frame.isSome && q.uses (key / 4096 / 17)
  if !c.accepting ∨ !c.store.toErase.contains key ∨ reading
      ∨ c.store.removed.any (fun r => (blocks r).contains key && rangeNamed c r) then c
  else
    let c := if ok then
        c.withStore fun s =>
          { s with toErase := s.toErase.filter (· ≠ key), wear := addAt s.wear key 1, blockReads := SMap.put 0 s.blockReads key 0 }
      else retireBlock key c
    let done := c.store.removed.filter fun r => (blocks r).all fun k => !c.store.toErase.contains k
    let gone (fa : Nat) : Bool := done.any fun r => r.1 ≤ fa && fa < r.1 + alignUp r.2 0x200000
    let c := emit (done.flatMap fun r => m.clearFlash r.1 (alignUp r.2 0x200000)) c
    let c := c.withStore fun s =>
      { s with removed := s.removed.filter fun r => !done.contains r,
               residents := s.residents.filter fun r => !gone r.flashAddr }
    let stack := key / 4096 / 17
    if 2400 ≤ readParam c (0x0B84 + stack) then wearEvent (0x700 + stack) 6 stack (flashSpareLeft c stack) c else c
/-- FLASH_BLOCK_ERASE (R361). -/
def execFlashBlockErase (channel block : Nat) (succeeds : Bool) (s : State) : Host.Outcome State Fault Refusal :=
  .next (s.run (eraseBlock (channel * 4096 + block) succeeds))

end Sys2Proof.Machine
end

