-- ==== Sys2Proof/Machine/Net.lean ====
section
/-! DEFINITION. The command ports below the requests: MACsec and MKA, failover, address resolution, echo, packets that are no
requests; time; results (13_host_protocol.md R393 to R400, R410). -/

namespace Sys2Proof.Machine

/-! ### MACsec and MKA (R394, R465) -/

/-- The command ports run: their links train, or commands are accepted. -/
def Ctl.portsRun (c : Ctl) : Bool := c.accepting || c.power.stage = .link

/-- Frames pass on a port: every frame of it is protected by its secure association (R394). -/
def Ctl.portOpen (c : Ctl) (p : Nat) : Bool := c.portsRun && p < 2 && c.proto.sa.getD p false
/-- A secure association stands on a port; its packet numbers begin anew. -/
def setAssociation (p : Nat) (c : Ctl) : Ctl :=
  c.withProto fun x => { x with sa := x.sa.set p true, txPn := x.txPn.set p 0, rxPn := x.rxPn.set p 0 }
/-- MKA_SA_REPLACE: a new association takes the place of one that stands (R394). -/
def execMkaSaReplace (port : Nat) (s : State) : Host.Outcome State Fault Refusal :=
  .next (s.run fun _ c => if c.portsRun ∧ c.proto.sa.getD port false then setAssociation port c else c)

/-- Port of unsolicited packets (R396). -/
def activePort (up : List Bool) : Nat := if up.getD 0 false then 0 else 1
/-- A link comes up or goes down. -/
def setLink (port : Nat) (up : Bool) (c : Ctl) : Ctl :=
  c.withProto fun x =>
    let l := x.linkUp.set port up
    { x with linkUp := l, active := activePort l, slavePort := slaveOf (c.param 0x0D06) l }

/-- MKA with the peer completes on a port that had no association. -/
def associate (port : Nat) (c : Ctl) : Ctl :=
  if !c.portsRun ∨ 2 ≤ port ∨ c.proto.sa.getD port false then c
  else
    let was := c.proto.active
    let up := c.proto.linkUp.getD was false
    let c := setLink port true (setAssociation port c)
    -- the traffic of a link that is up moves (R396)
    let c := if up ∧ c.proto.active ≠ was then event 8 0 0 0 0 0 [] [] (count .proFailover 0 1 c) else c
    c.withPower fun p => { p with mkaRestart := p.mkaRestart.filter (· ≠ port) }
/-- MKA_SECURE_ASSOCIATION (R394, R489). -/
def execMkaSecureAssociation (port : Nat) (s : State) : Host.Outcome State Fault Refusal :=
  .next (s.run fun _ c => associate port c)

/-- A link is lost or returns: unsolicited traffic moves, and the move is counted and reported (R396, R397, R412). -/
def failover (port : Nat) (up : Bool) (c : Ctl) : Ctl :=
  if !c.portsRun ∨ 2 ≤ port ∨ c.proto.linkUp.getD port false = up then c
  else
    let was := c.proto.active
    let c := setLink port up c
    if c.proto.active = was then c else event 8 0 0 0 0 0 [] [] (count .proFailover 0 1 c)
/-- PORT_FAILOVER (R396). -/
def execPortFailover (port : Nat) (up : Bool) (s : State) : Host.Outcome State Fault Refusal :=
  .next (s.run fun _ c => failover port up c)

/-! ### Time (R397, R398) -/

/-- A Sync of the domain PRO_PTP_DOMAIN on the slave port: the first lock after a wake steps device time to the grandmaster's, later
ones slew it (R397, R398). -/
def sync (port time domain : Nat) (c : Ctl) : Ctl :=
  if !c.portOpen port ∨ domain ≠ c.param 0x0D05 ∨ port ≠ c.proto.slavePort ∨ !c.proto.linkUp.getD port false then c
  else
    let target := time + SMap.get 0 c.proto.peerDelay port
    let clk := if c.proto.sync = 0 then { c.clk with device := target, slew := 0 }
      else { c.clk with slew := (target : Int) - c.clk.device }
    { c with clk := clk, proto := { c.proto with sync := 2, unsync := false } }
/-- PTP_SYNC (R398). -/
def execPtpSync (port time : Nat) (s : State) (domain : Nat := 0) : Host.Outcome State Fault Refusal :=
  .next (s.run fun _ c => sync port time domain c)
/-- PTP_PEER_DELAY: peer delay is measured on both ports (R397). -/
def execPtpPeerDelay (port delay : Nat) (s : State) : Host.Outcome State Fault Refusal :=
  .next (s.run fun _ c =>
    if c.portOpen port ∧ c.proto.linkUp.getD port false then
      c.withProto fun p => { p with peerDelay := SMap.put 0 p.peerDelay port delay }
    else c)
/-- Three Sync intervals were missed: device time runs on the local reference. -/
def holdover (c : Ctl) : Ctl :=
  if c.proto.sync ≠ 2 then c
  else { c with clk := { c.clk with slew := 0 }, proto := { c.proto with sync := 3, holdAt := c.clk.ns } }
/-- PTP_HOLDOVER (R398). -/
def execPtpHoldover (s : State) : Host.Outcome State Fault Refusal := .next (s.run fun _ c => holdover c)
/-- A second of holdover has passed: the entry is counted and reported. -/
def unsynchronised (c : Ctl) : Ctl :=
  if c.proto.sync ≠ 3 ∨ c.proto.unsync ∨ c.clk.ns < c.proto.holdAt + 1000000000 then c
  else event 7 0 0 0 0 0 [] [] (count .proSyncLoss 0 1 (c.withProto fun p => { p with unsync := true }))
/-- PTP_UNSYNCHRONISED (R398). -/
def execPtpUnsynchronised (s : State) : Host.Outcome State Fault Refusal := .next (s.run fun _ c => unsynchronised c)

/-! ### Results (R410) -/

/-- The first result handed over whose slots are all full is sent. -/
def sendReady (m : Mem) (c : Ctl) : Ctl :=
  let ok (rp : Reply) : Bool := !rp.frozen && match c.job? rp.job with | some j => !j.ended && replyReady c j rp | none => false
  match c.proto.replies.find? ok with
  | none => c
  | some rp =>
    match c.job? rp.job with
    | none => c
    | some j =>
      let c := sendResult m j rp c
      c.withProto fun p => { p with replies := p.replies.filter (· ≠ rp) }
/-- RESULT_SEND (R410). -/
def execResultSend (s : State) : Host.Outcome State Fault Refusal := .next (s.run sendReady)

/-! ### Address resolution and echo (R393) -/

/-- The IPv4 and IPv6 addresses of a port, where they are enabled. -/
def ownV4 (c : Ctl) (port : Nat) : Option Nat := let v := c.param (0x0D12 + port); if bit v 38 then some (bits v 31 0) else none
def ownV6 (c : Ctl) (port : Nat) : Option Nat := let v := c.param (0x0D14 + port); if bit v 136 then some (bits v 127 0) else none
/-- An answer that is no KCP packet: kind 0x100 an ARP reply, 0x101 a neighbour advertisement, 0x102 an echo reply (log
entry 27). -/
def answerLink (port kind to' : Nat) (body : List Byte) (c : Ctl) : Ctl :=
  send { dst := { port := port, addr := to', udp := 0 }, src := portAddr c port to', srcUdp := 0, kind := kind, flags := 0, reqId := 0, status := 0, role := 0,
         epoch := 0, payload := body } c
/-- A request for one of the port's addresses is answered with its MAC address. -/
def resolve (port : Nat) (v6 : Bool) (target sender : Nat) (c : Ctl) : Ctl :=
  let own := if v6 then ownV6 c port else ownV4 c port
  if c.portOpen port ∧ own = some target then
    answerLink port (if v6 then 0x101 else 0x100) sender
      (toBe 6 (bits (c.param (0x0D10 + port)) 47 0) ++ toBe (if v6 then 16 else 4) target) c
  else c
/-- ADDRESS_RESOLUTION_REQUEST (R393). -/
def execAddressResolutionRequest (port : Nat) (v6 : Bool) (target sender : Nat) (s : State) : Host.Outcome State Fault Refusal :=
  .next (s.run fun _ c => resolve port v6 target sender c)
/-- An echo request to one of the port's addresses is answered with its own body. -/
def echo (port target sender : Nat) (body : List Byte) (c : Ctl) : Ctl :=
  if c.portOpen port ∧ (ownV4 c port = some target ∨ ownV6 c port = some target) then answerLink port 0x102 sender body c
  else c
/-- ICMP_ECHO_REQUEST (R393). -/
def execIcmpEchoRequest (port target sender : Nat) (body : List Byte) (s : State) : Host.Outcome State Fault Refusal :=
  .next (s.run fun _ c => echo port target sender body c)

/-! ### Packets that are no requests (R393, R394, checks 1 to 4 of R400) -/

/-- Discard or refuse. A refusal echoes the packet's TYPE byte (log entry 27). -/
def badPacket (port : Nat) (why : BadPacket) (r : Req) (c : Ctl) : Ctl :=
  let refusal (st : KS) (kind : Nat) : Ctl :=
    (replyPackets r (kind % 256) st [[]] c.proto.epoch port).foldl (fun c p => send p c) (count .proBad port 1 c)
  if why = .macsec ∧ c.portsRun ∧ port < 2 then count .proMacsecDrop port 1 c
  else if !c.accepting ∨ 2 ≤ port then c
  else
    match why with
    | .macsec => c
    | .otherPort => c
    | .vlan => c
    | .ipFragment => c
    | .magicOrLength => if c.proto.sa.getD port false then count .proBad port 1 c else c
    | .version k => if c.proto.sa.getD port false then refusal .badVersion k else c
    | .type k => if c.proto.sa.getD port false then refusal .badType k else c
    | .length k => if c.proto.sa.getD port false then refusal .badPacket k else c
/-- UNRECOGNISED_PACKET (R400). -/
def execUnrecognisedPacket (port : Nat) (why : BadPacket) (r : Req) (s : State) : Host.Outcome State Fault Refusal :=
  .next (s.run fun _ c => badPacket port why r c)

end Sys2Proof.Machine
end

