-- ==== Sys2Proof/Machine/Power.lean ====
section
/-! DEFINITION. Power states, wakes, resets, operating points, and the requests and events of Lee mode
(15 R456 to R458, R472; 16_power_clocks_reset.md; 17 R506 to R512; 18 R526 to R537). -/

namespace Sys2Proof.Machine

/-! ### What a wake from DORMANT or OFF, or a reset, leaves (R472, R486, R495, Table 16.4) -/

/-- HBM and flash: what flash and the spare record keep; `hbm` says that HBM kept its power, and with it its training. -/
def Store.afterLoss (s : Store) (hbm : Bool) : Store :=
  { Store.reset with
    softRepairs := s.softRepairs, repairsUsed := s.repairsUsed, retiredFrames := s.retiredFrames,
    failed := if hbm then s.failed else [], cstRetBank := s.cstRetBank, bundles := s.bundles, nextBundle := s.nextBundle,
    removed := s.removed, toErase := s.toErase, eraseAtWake := s.eraseAtWake, badBlocks := s.badBlocks, wear := s.wear, blockReads := s.blockReads, blockMap := s.blockMap,
    refreshDue := s.refreshDue, blocksRetired := s.blocksRetired, sparesUsed := s.sparesUsed }

/-- OBJECT_ID counts from 1 again at a wake (R468). -/
def recount (l : List Frozen) : List Frozen := (List.range l.length).zipWith (fun i f => { f with id := i + 1 : Frozen }) l
/-- Of the frozen objects the tiles stay (R472). -/
def tilesOnly (l : List Frozen) : List Frozen := recount (l.filter fun f => f.kind = 6)

/-- The security block: everything it keeps in flash or fuses, and the tiles that stay frozen. -/
def Sec.afterLoss (s : Sec) : Sec :=
  let l := tilesOnly s.frozen
  { s with ramCounters := [], frozen := l, nextObject := l.length + 1, fallback := false, trial := false }

/-- The intake contexts that the configuration enables wait for their release (R489). -/
def heldIntakes (c : Ctl) : List (Nat × Intake) :=
  ((List.range 64).filter fun n => (c.config n).enable).map fun n => (n, { Intake.off with held := true })

/-- Everything that a loss of the switched domains takes. Stores read as zero words with their tags empty (R486); HBM bytes go
with its power. No job sends a reply or an event. -/
def wipe (hbm : Bool) (m : Mem) (c : Ctl) : Ctl :=
  let m := m.apply c.wq
  let lost (a : Nat) : Bool := (storeOf a).isSome || (!hbm && regionOf a == .hbm)
  let c := emit (m.eraseWrites fun a => !lost a) c
  -- an install that is not committed leaves no trace (R361)
  let c := c.store.transfers.foldl (fun c t => if t.kind = 0 then dropInstall t.base t.size c else c) c
  let thawed := c.sec.frozen.filter fun f => f.kind ≠ 6
  let keepPwr (p : Nat × Nat) : Bool := blockOfKey p.1 = 11
  let c1 : Ctl :=
    { Ctl.reset with
      clk := { c.clk with slew := 0, plane := 0, planeFrac := 0 }, params := c.params, counters := c.counters.filter keepPwr,
      plane := { Plane.reset with retireDue := c.plane.retireDue.filter fun p => (c.tile p).frozen },
      tiles := c.tiles, store := c.store.afterLoss hbm, intakes := heldIntakes c,
      proto := { Proto.reset with
        epoch := c.proto.epoch, slavePort := b2n (bit (c.param 0x0D06) 0), wearSent := c.proto.wearSent, wearDue := c.proto.wearDue, sent := c.proto.sent,
        wire := c.proto.wire },
      -- no spare lane or spare port is released (R502)
      group := { Group.reset with
        epoch := c.group.epoch, changes := c.group.changes, spareFor := c.group.spareFor,
        ports := c.group.ports.map fun x => { XwPort.reset with swapped := x.swapped } },
      sec := c.sec.afterLoss,
      power := { c.power with
        idle := false, enterReq := none, ended := 0, opNext := none, throttle := 0, mkaRestart := [],
        hbmTrained := hbm && c.power.hbmTrained },
      service := { leeCause := c.service.leeCause, lee := false, bootFault := false },
      pins := { c.pins with portsOff := false }, wq := c.wq, freeIx := c.freeIx }
  balls (thawed.foldl (fun c f => count .secThaw (f.kind - 1) 1 c) c1)

/-! ### The wake sequence (R488 to R492, Table 16.7) -/

/-- The first step whose condition does not already hold; the device stays in reset while SYS_RESET_N is low or REF_CLK is
lost (R495). -/
def beginWake (c : Ctl) : Ctl :=
  let st : Stage :=
    if !(c.pins.sysResetN && c.pins.refClk) then .held
    else if c.pins.aonPwrReq && c.pins.aonPwrGood then .boot else .waitGood
  ((erasureAtWake c).withPins fun p => { p with aonPwrReq := true }).withPower fun p =>
    { p with stage := st, wakeHeld := none, wakeAt := c.clk.ns }

/-- A system reset by source `b` of Table 16.9. -/
def systemReset (b : Nat) (hbm : Bool) (m : Mem) (c : Ctl) : Ctl :=
  let c := wipe hbm m c
  let c := c.withPower fun p => { p with resetCause := 2 ^ b, wakeCause := 5, target := 0 }
  beginWake (count .pwrReset b 1 (count .pwrWake 5 1 c))

/-- Command-port PHYs, intake receivers and Crosswind ports start. -/
def startPorts (c : Ctl) : Ctl :=
  let c := c.withPower fun p => { p with stage := .link }
  if c.service.lee then c
  else c.withGroup fun g => { g with ports := g.ports.map fun p => { p with idle := false } }
/-- HBM is ready: the pads are released next, where they are held. -/
def hbmReady (c : Ctl) : Ctl := if c.pins.padHold then c.withPower fun p => { p with stage := .padHold } else startPorts c

/-- AON_PWR_GOOD is high: the boot ROM starts (R488). -/
def powerGood (c : Ctl) : Ctl :=
  let c := c.withPins fun p => { p with aonPwrGood := true }
  if c.power.stage = .waitGood then c.withPower fun p => { p with stage := .boot } else c
/-- AON_PWR_GOOD falls: with AON_PWR_REQ high the safety core resets the device (R529). -/
def powerBad (m : Mem) (c : Ctl) : Ctl :=
  let was := c.pins.aonPwrGood
  let c := c.withPins fun p => { p with aonPwrGood := false }
  if was ∧ c.pins.aonPwrReq ∧ c.power.stage ≠ .dead then systemReset 3 false m c else c

/-- The image of a slot verifies against the keys of the ROM (R456, R460); the bytes of a factory image are not given (log entry
10). -/
def imageGood (c : Ctl) (slot : Nat) : Bool :=
  let bs := c.sec.slotImage.getD slot []
  bs == [] || (verifyBundle c 1 bs.length (c.sec.slotDigest.getD slot []) bs).isSome
/-- The boot ROM verifies the next image, or the active slot's, then the other slot (R456 to R458). `okA` and `okB`: the flash
gives back the bytes of slot 0 and of slot 1 as they were written. -/
def bootVerify (okA okB : Bool) (c : Ctl) : Ctl :=
  if c.power.stage ≠ .boot then c
  else
    let svn (s : Nat) : Nat := c.sec.slotSvn.getD s 0
    let ok (s : Nat) : Bool := (if s = 0 then okA else okB) && imageGood c s && svn s != 0 && c.sec.svn ≤ svn s
    let first := c.sec.nextSlot.getD c.sec.bootSlot
    let runs (c : Ctl) : Ctl :=
      let c := c.withPower fun p => { p with opNow := c.param 0x1001, opNext := none, stage := .training }
      if c.power.hbmTrained then hbmReady c else c
    if ok first then runs (c.withSec fun s => { s with trial := s.nextSlot.isSome })
    else if ok (1 - first) then
      runs (count .secBootFallback 0 1 (c.withSec fun s =>
        { s with bootSlot := 1 - first, fallback := true, nextSlot := none, trial := false }))
    else
      let c := { c with service := { c.service with bootFault := true } }
      (c.withPins fun p => { p with faultN := false }).withPower fun p => { p with stage := .bootFailed, reachedAt := c.clk.ns }

/-- A bit of SVC_LEE_CAUSE, set or cleared. -/
def setCause (b : Nat) (on : Bool) (c : Ctl) : Ctl :=
  let v := c.service.leeCause
  { c with service := { c.service with leeCause := if bit v b = on then v else if on then v + 2 ^ b else v - 2 ^ b } }

/-- Full training ends: the pseudo-channels that failed it have failed (R347, R348, Table 17.4 bit 3). -/
def trained (failed : List Nat) (c : Ctl) : Ctl :=
  if c.power.stage ≠ .training then c
  else
    let l := failed.filter (· < 64)
    let c := (c.withStore fun s => { s with failed := l }).withPower fun p => { p with hbmTrained := true }
    hbmReady (balls (setCause 3 (l != []) c))

/-- Every ball group leaves pad hold in one clock (R491, R492). -/
def releasePads (c : Ctl) : Ctl :=
  if c.power.stage ≠ .padHold ∧ c.power.stage ≠ .sleepExit then c
  else startPorts (balls (c.withPins fun p => { p with padHold := false, portsOff := c.service.lee }))

/-- Lee causes as a wake finds them (R506, R512, R536; Table 17.4). -/
def wakeCauses (monitorInRange sleep : Bool) (c : Ctl) : Ctl :=
  let c := if sleep then c else setCause 4 false c
  -- a cause 0 that stands waits for its clearing condition
  setCause 0 (!c.pins.coolantOk || bit c.service.leeCause 0) (setCause 2 (c.inService < 16) (setCause 5 (!monitorInRange) c))

/-- Intake contexts are enabled as configured; in Lee mode only those that a kept job is bound to (R489, R507). -/
def wakeIntakes (m : Mem) (c : Ctl) : Ctl :=
  if !c.service.lee then releaseContexts m c
  else
    let bound (n : Nat) : Bool := c.jobs.any fun j => j.mode == 2 && j.trigger == n && !j.ended
    (List.range 64).foldl (fun c n =>
      if (c.intake n).held ∧ (c.config n).enable ∧ bound n then enableContext m n c else c) c

/-- A next image that accepts commands becomes the active one (R458). -/
def acceptImage (s : Sec) : Sec :=
  match s.trial, s.nextSlot with
  | true, some n => { s with bootSlot := n, svn := max s.svn (s.slotSvn.getD n 0), nextSlot := none, trial := false }
  | _, _ => s

/-- Commands are accepted: the wake is complete (R489, R491). `cells` are those that fail the array self-test of a wake from
DORMANT or OFF or of a reset (Table 17.1): (logical tile, active row, active column). -/
def acceptCommands (monitorInRange : Bool) (found : List MemberReport) (cells : List (Nat × Nat × Nat)) (m : Mem) (c : Ctl) : Ctl :=
  if c.power.stage ≠ .link ∨ !c.proto.sa.any id then c
  else
    let sleep : Bool := c.power.target == 2
    let c := (List.range 2).foldl (fun c p => if c.proto.sa.getD p false then setLink p true c else c) c
    let c := balls (wakeCauses monitorInRange sleep c)
    let c := (c.withSec acceptImage).withPower fun p => { p with stage := .on, target := 0 }
    let c := if sleep then c else cells.foldl (fun d f => cellFails false m c f d) c
    let lowest := ((List.range 6).find? fun b => bit c.service.leeCause b).getD 0
    let c :=
      if c.service.leeCause ≠ 0 ∧ !c.service.lee then enterLee m (count .svcLeeEntry lowest 1 c)
      else if c.service.leeCause = 0 ∧ c.service.lee then leaveLee m c else c
    let c := wakeIntakes m c
    let c :=
      if sleep then c
      else serviceEvent 10 11 0 (c.power.wakeCause * 65536 + c.power.resetCause * 256 + b2n c.sec.fallback) c
    if bit (c.param 0x0E02) 0 ∧ !c.service.lee then (form found m c).1 else c

/-! ### Entering SLEEP, DORMANT and OFF (R482 to R484) -/

/-- The POWER reply (R482). -/
def powerBytes (state : Nat) (c : Ctl) : List Byte := [byte state, byte c.power.opNow, 0, 0] ++ toBe 4 c.power.ended

/-- Nothing is left to drain: no run, and no frame in an intake context (R483). -/
def Ctl.drained (c : Ctl) : Bool :=
  !(c.jobs.any fun j => j.running.isSome && !j.ended) &&
    (List.range 64).all fun n => let x := c.intake n; x.frozen || !(x.busy || x.dropping || x.ended != [])

/-- Steps 3 and 4: jobs end for DORMANT and OFF, and the reply is sent. -/
def replyEntry (m : Mem) (c : Ctl) : Ctl :=
  let t := c.power.target
  let c := if t = 2 then c else c.jobs.foldl (fun c j => endJob m j.no .powerState 4 j.lastIndex j.lastTag c) c
  let c := match c.power.enterReq with | some r => answer r 0x40 .ok (powerBytes t c) c | none => c
  c.withPower fun p => { p with stage := .powerDown, enterReq := none }

def readPower (r : Req) (_m : Mem) (c : Ctl) : Ctl :=
  bySub 0 [1, 2] 0x40 17 (r.len == 4) .badValue r (fun c =>
    gate (plainGate 0x40 17 (r.len == 4) (r.zeros 2 2)) r (fun c =>
      if r.u8 1 ≠ 0 then answer r 0x40 .badValue [] c
      else answer r 0x40 .ok (powerBytes (powerState c) c) c) c) c

/-- An accepted ENTER: no new run starts, intake contexts stop, what runs drains. -/
def enterPower (r : Req) (m : Mem) (c : Ctl) : Ctl :=
  let t := r.u8 1
  let mode := if t = 2 ∧ c.service.lee then KS.leeMode else .ok
  bySub 1 [0, 2] 0x40 17 (r.len == 4) .badValue r (fun c =>
    gate { plainGate 0x40 17 (r.len == 4) (r.zeros 2 2) with mode := mode } r (fun c =>
      if t < 2 ∨ 4 < t then answer r 0x40 .badValue [] c
      else
        let c := c.withPower fun p =>
          { p with stage := .entering, target := t, enterReq := some r, ended := 0, idle := false, wakeHeld := none, enterAt := c.clk.ns }
        let c := (List.range 64).foldl (fun c n => holdContext n c) c
        if c.drained then replyEntry m c else c) c) c

/-- POWER RESET: the reply, then the system reset. -/
def resetPower (r : Req) (m : Mem) (c : Ctl) : Ctl :=
  bySub 2 [0, 1] 0x40 17 (r.len == 4) .badValue r (fun c =>
    gate (plainGate 0x40 17 (r.len == 4) (r.zeros 2 2)) r (fun c =>
      if r.u8 1 ≠ 0 then answer r 0x40 .badValue [] c
      else systemReset 5 true m (answer r 0x40 .ok (powerBytes (powerState c) c) c)) c) c

/-- PWR_ENTRY_DRAIN has passed: the runs that remain end with KS_POWER_STATE (R483). -/
def drainOver (m : Mem) (c : Ctl) : Ctl :=
  if c.power.stage ≠ .entering ∨ c.clk.ns < c.power.enterAt + 1000000 * c.param 0x1006 then c
  else
    let c := c.jobs.foldl (fun c j =>
      if j.running.isNone ∨ j.ended then c
      else
        let n := 1 + b2n j.waiting.isSome
        count .pwrRunEnded 0 n ((failJob m j.no .powerState c).withPower fun p => { p with ended := p.ended + n })) c
    if c.drained then replyEntry (m.apply c.wq) c else c

/-- A wake by cause `k` of Table 16.11. A device that found no image that boots tries again (R457). -/
def wake (k : Nat) (c : Ctl) : Ctl :=
  if c.power.stage = .bootFailed then
    let c := balls { c with service := { c.service with bootFault := false } }
    beginWake (count .pwrWake k 1 (c.withPower fun p => { p with wakeCause := k }))
  else if c.power.stage ≠ .low then c
  else
    let c := count .pwrWake k 1 (c.withPower fun p => { p with wakeCause := k, wakeHeld := none })
    if c.power.target = 2 then
      let c := if c.proto.unsync then c else count .proSyncLoss 0 1 c
      -- the plane clock runs again: its windows count from its restart (R100)
      let c := { erasureAtWake c with clk := { c.clk with plane := 0, planeFrac := 0 } }
      let c := c.withSec fun s => { s with frozen := recount s.frozen, nextObject := s.frozen.length + 1 }
      (c.withProto fun p => { p with sync := 0, unsync := true }).withPower fun p => { p with stage := .sleepExit }
    else beginWake c

/-- Steps 5 to 7: the wake configuration is copied, HBM enters self-refresh or its soft repairs become hard, the pads are
held, the domains that the state does not keep lose their power (R483, R485, R486, R492). -/
def reachState (m : Mem) (c : Ctl) : Ctl :=
  let t := c.power.target
  let held := c.power.wakeHeld
  let c := storeCounters c
  let c := c.withPower fun p => { p with wakeCfg := c.param 0x1004, wakeTimer := c.param 0x1005 }
  let c := idlePorts (count .pwrEntry (t - 2) 1 c)
  let c := c.withPins fun p => { p with padHold := true, aonPwrReq := t == 2, portsOff := true }
  let c :=
    if t = 2 then
      let close (p : Nat × Bank) : Nat × Bank := (p.1, { p.2 with openRow := none, postponed := false })
      let c := c.withStore fun s => { s with banks := (s.banks.map close).filter fun p => p.2 ≠ Bank.reset }
      c.withProto fun p => { p with linkUp := [false, false], active := activePort [false, false] }
    else wipe false m (setCause 4 false (c.withStore fun s => { s with softRepairs := [] }))
  let c := c.withPower fun p => { p with stage := .low, reachedAt := c.clk.ns }
  match held with
  | some k => wake k c
  | none => c

/-- The end of always-on clock 64. -/
def entryDone (m : Mem) (c : Ctl) : Ctl :=
  if c.power.stage = .powerDown then reachState m c
  else if c.power.stage = .entering ∧ c.drained then
    let c := replyEntry m c
    reachState (m.apply c.wq) c
  else c

/-! ### Wake sources (R484, R485) -/

/-- A wake event while an entry is in progress is held or latched. -/
def holdWake (k : Nat) (c : Ctl) : Ctl := c.withPower fun p => { p with wakeHeld := p.wakeHeld.orElse fun _ => some k }
def Ctl.inEntry (c : Ctl) : Bool := c.power.stage = .entering || c.power.stage = .powerDown

/-- AON_WAKE reaches a level: the active one of PIN_POL, or its edge, wakes the device; before the entry window, in it, or in the state
reached (R484, R485, Table 16.3). -/
def aonWakes (inWindow high : Bool) (c : Ctl) : Ctl :=
  let c := c.withPins fun p => { p with aonWake := high }
  let cfg := if c.inEntry then c.param 0x1004 else c.power.wakeCfg
  if high ≠ bit cfg 2 then c
  else if c.inEntry then
    if !bit cfg 0 ∨ (inWindow && bit cfg 1) then c else holdWake 1 c
  else if bit cfg 0 then wake 1 c else c
/-- A link partner signals on a port, in SLEEP and DORMANT. -/
def energy (port : Nat) (c : Ctl) : Ctl :=
  if 2 ≤ port ∨ c.power.target = 4 then c
  else if c.inEntry then (if bit (c.param 0x1004) (3 + port) then holdWake (2 + port) c else c)
  else if bit c.power.wakeCfg (3 + port) then wake (2 + port) c else c
/-- The wake timer expires: it counts from the state reached, or from the boot that found no image (R457). -/
def timerWakes (c : Ctl) : Ctl :=
  if (c.power.stage = .low ∨ c.power.stage = .bootFailed) ∧ bit c.power.wakeCfg 5 ∧ c.power.wakeTimer ≠ 0
      ∧ c.power.reachedAt + 1000000000 * c.power.wakeTimer ≤ c.clk.ns then wake 4 c
  else c

/-! ### Resets (R495, Table 16.9) -/

/-- Control cores run firmware. -/
def Ctl.firmwareRuns (c : Ctl) : Bool :=
  match c.power.stage with
  | .training | .padHold | .link | .on | .entering | .powerDown | .sleepExit => true
  | _ => false
/-- The safety core runs: in every state but OFF, and during wakes and resets (Table 16.1, R529). -/
def Ctl.safetyRuns (c : Ctl) : Bool := c.power.stage != .dead && !(c.power.stage == .low && c.power.target == 4)

/-- VDD_AON rises: a cold reset (R495). What flash and fuses keep stays; the levels of the input balls stay. -/
def coldReset (m : Mem) (c : Ctl) : Ctl :=
  let c := wipe false m c
  let c := { c with
    clk := Ctl.reset.clk, counters := [], power := Power.reset, service := Ctl.reset.service,
    pins := { Pins.reset with
      aonPwrGood := c.pins.aonPwrGood, sysResetN := c.pins.sysResetN, refClk := c.pins.refClk, coolantOk := c.pins.coolantOk,
      aonWake := c.pins.aonWake } }
  beginWake (count .pwrReset 0 1 (count .pwrWake 0 1 c))

def pinReset (m : Mem) (c : Ctl) : Ctl :=
  let c := c.withPins fun p => { p with sysResetN := false }
  if c.power.stage = .dead then c else systemReset 1 true m c
def pinReleased (c : Ctl) : Ctl :=
  let c := c.withPins fun p => { p with sysResetN := true }
  if c.power.stage = .held then beginWake c else c
/-- REF_CLK is lost while it must run (R495, R496). -/
def clockLost (m : Mem) (c : Ctl) : Ctl :=
  if !c.pins.aonPwrReq ∨ c.power.stage = .dead then c
  else systemReset 6 true m (c.withPins fun p => { p with refClk := false })
def clockBack (c : Ctl) : Ctl :=
  let c := c.withPins fun p => { p with refClk := true }
  if c.power.stage = .held then beginWake c else c
/-- A next image has not accepted commands within 5 s: the previous one boots (R457, R458). -/
def trialFails (m : Mem) (c : Ctl) : Ctl :=
  if !c.sec.trial ∨ !(c.power.stage == .training || c.power.stage == .padHold || c.power.stage == .link)
      ∨ c.clk.ns < c.power.wakeAt + 5000000000 then c
  else
    let c := systemReset 4 true m c
    count .secBootFallback 0 1 (c.withSec fun s => { s with nextSlot := none, fallback := true })
/-- VDD_AON is gone, and with it everything but flash and fuses (R526). -/
def aonLost (m : Mem) (c : Ctl) : Ctl :=
  let c := wipe false m c
  (c.withPins fun p => { p with aonPwrReq := false }).withPower fun p => { p with stage := .dead }

/-! ### IDLE, operating points and temperature (R480, R493, R494, R537) -/

def goIdle (c : Ctl) : Ctl :=
  if c.power.stage ≠ .on ∨ c.power.idle ∨ c.power.opNext.isSome ∨ c.jobs.any (fun j => j.running.isSome && !j.ended)
      ∨ c.power.quiet < 1000 * c.param 0x1003 then c
  else count .pwrIdle 0 1 (c.withPower fun p => { p with idle := true })

/-- The switch of a change in progress; three AVSBus failures in a row are a supply out of range (R493, R524). -/
def pointSwitch (avsFailures : Nat) (m : Mem) (c : Ctl) : Ctl :=
  match c.power.opNext with
  | none => c
  | some op =>
    if !(c.power.stage == .on || c.power.stage == .entering) then c
    else if 3 ≤ avsFailures then systemReset 3 true m c
    else if c.mayRetire ∧ c.galeIdle then switchPoint op c else c

/-- Firmware runs the Plane: throttling acts in RUN and IDLE, and until an entry's state is reached. -/
def Ctl.throttles (c : Ctl) : Bool := (c.power.stage == .on || c.power.stage == .entering) && !c.service.lee
/-- The device is to go to a point, below PWR_OP by what the throttle takes. -/
def throttleTo (t : Nat) (c : Ctl) : Ctl :=
  c.withPower fun p => { p with throttle := t - c.param 0x1001, opNext := if t = p.opNow then none else some t }
/-- THROTTLE_STEP_DOWN: one point below PWR_OP_NOW, or the slower one to which a change is in progress. -/
def stepDown (tj : Int) (c : Ctl) : Ctl :=
  if !c.throttles ∨ tj ≤ (c.param 0x1007 : Int) ∨ 2 ≤ c.power.opNow then c
  else count .pwrThrottle 0 1 (throttleTo (max (c.power.opNow + 1) (c.power.opNext.getD 0)) c)
/-- THROTTLE_STEP_UP: one point above PWR_OP_NOW, never above PWR_OP. -/
def stepUp (tj : Int) (c : Ctl) : Ctl :=
  if !c.throttles ∨ (c.param 0x1007 : Int) - 5 ≤ tj ∨ c.power.opNow ≤ c.param 0x1001 then c
  else throttleTo (c.power.opNow - 1) c
def thermal (tj : Int) (c : Ctl) : Ctl :=
  if !c.safetyRuns then c
  else if 115 ≤ tj then c.withPins fun p => { p with thermAlertN := false }
  else if tj ≤ 100 then c.withPins fun p => { p with thermAlertN := true }
  else c

/-! ### Lee mode (R506, R511, R512, R536) -/

/-- A cause is acted on until a state is reached, also during the entry; in that state the next wake evaluates it (R510, R536). -/
def Ctl.leeActs (c : Ctl) : Bool := c.accepting
def coolantLost (m : Mem) (c : Ctl) : Ctl :=
  let c := c.withPins fun p => { p with coolantOk := false }
  if c.leeActs then raiseLee 0 m c else c
def overTemperature (tj : Int) (fastRise : Bool) (m : Mem) (c : Ctl) : Ctl :=
  if !c.leeActs then c
  else if fastRise then raiseLee 0 m c
  else if 110 ≤ tj ∧ c.power.opNow = 2 then raiseLee 1 m c
  else c
def monitorTrips (m : Mem) (c : Ctl) : Ctl := if c.leeActs then raiseLee 5 m c else c
/-- The clearing condition of bit 0, 1 or 2 of Table 17.4 has held; bits 3 and 5 clear at a wake, bit 4 by LEE LEAVE. -/
def causeClears (b : Nat) (m : Mem) (c : Ctl) : Ctl :=
  if b = 0 then clearLee 0 m (c.withPins fun p => { p with coolantOk := true })
  else if b = 1 ∨ (b = 2 ∧ c.inService = 16) then clearLee b m c
  else c

/-- The LEE reply: the mode and SVC_LEE_CAUSE (R512). -/
def leeBytes (c : Ctl) : List Byte := [byte (b2n c.service.lee), byte c.service.leeCause, 0, 0]
def leeGate (r : Req) (found : List MemberReport := []) : Gate :=
  { plainGate 0x41 18 (r.len == 4) true with again := if r.u8 0 = 2 then some (.leeLeave r found) else none }
/-- A LEE request with its SUB; bytes 1 to 3 must be 0, else KS_BAD_VALUE. -/
def leeRequest (own : Nat) (others : List Nat) (found : List MemberReport) (r : Req) (f : Ctl → Ctl) (c : Ctl) : Ctl :=
  bySub own others 0x41 18 (r.len == 4) .badValue r (fun c =>
    gate (leeGate r found) r (fun c => if r.zeros 1 3 then f c else answer r 0x41 .badValue [] c) c) c
def readLee (r : Req) (_m : Mem) (c : Ctl) : Ctl := leeRequest 0 [1, 2] [] r (fun c => answer r 0x41 .ok (leeBytes c) c) c
def requestLee (r : Req) (m : Mem) (c : Ctl) : Ctl :=
  leeRequest 1 [0, 2] [] r (fun c =>
    let c := raiseLee 4 m c
    answer r 0x41 .ok (leeBytes c) c) c
def quitLee (r : Req) (found : List MemberReport) (m : Mem) (c : Ctl) : Ctl :=
  leeRequest 2 [0, 1] found r (fun c =>
    let c := leaving found (clearLee 4) m c
    answer r 0x41 (if c.service.leeCause = 0 then .ok else .badValue) (leeBytes c) c) c

/-! ### Meanings -/

/-- POWER_READ. -/
def execPowerRead (r : Req) (s : State) : Host.Outcome State Fault Refusal := .next (s.run (readPower r))
/-- POWER_ENTER. -/
def execPowerEnter (r : Req) (s : State) : Host.Outcome State Fault Refusal := .next (s.run (enterPower r))
/-- POWER_RESET. -/
def execPowerReset (r : Req) (s : State) : Host.Outcome State Fault Refusal := .next (s.run (resetPower r))
/-- LEE_READ. -/
def execLeeRead (r : Req) (s : State) : Host.Outcome State Fault Refusal := .next (s.run (readLee r))
/-- LEE_ENTER. -/
def execLeeEnter (r : Req) (s : State) : Host.Outcome State Fault Refusal := .next (s.run (requestLee r))
/-- LEE_LEAVE. -/
def execLeeLeave (r : Req) (s : State) (found : List MemberReport := []) : Host.Outcome State Fault Refusal := .next (s.run (quitLee r found))
/-- IDLE_ENTRY (R480). -/
def execIdleEntry (s : State) : Host.Outcome State Fault Refusal := .next (s.run fun _ c => goIdle c)
/-- ENTRY_DRAIN_TIMEOUT. -/
def execEntryDrainTimeout (s : State) : Host.Outcome State Fault Refusal := .next (s.run drainOver)
/-- POWER_STATE_REACHED. -/
def execPowerStateReached (s : State) : Host.Outcome State Fault Refusal := .next (s.run entryDone)
/-- AON_WAKE. -/
def execAonWake (activeInWindow : Bool) (s : State) (high : Bool := true) : Host.Outcome State Fault Refusal :=
  .next (s.run fun _ c => aonWakes activeInWindow high c)
/-- ENERGY_DETECT. -/
def execEnergyDetect (port : Nat) (s : State) : Host.Outcome State Fault Refusal := .next (s.run fun _ c => energy port c)
/-- WAKE_TIMER. -/
def execWakeTimer (s : State) : Host.Outcome State Fault Refusal := .next (s.run fun _ c => timerWakes c)
/-- AON_PWR_GOOD_RISE. -/
def execAonPwrGoodRise (s : State) : Host.Outcome State Fault Refusal := .next (s.run fun _ c => powerGood c)
/-- AON_PWR_GOOD_FALL. -/
def execAonPwrGoodFall (s : State) : Host.Outcome State Fault Refusal := .next (s.run powerBad)
/-- BOOT_VERIFICATION. -/
def execBootVerification (okA okB : Bool) (s : State) : Host.Outcome State Fault Refusal := .next (s.run fun _ c => bootVerify okA okB c)
/-- HBM_TRAINING_COMPLETE. -/
def execHbmTrainingComplete (failed : List Nat) (s : State) : Host.Outcome State Fault Refusal := .next (s.run fun _ c => trained failed c)
/-- PAD_HOLD_RELEASE. -/
def execPadHoldRelease (s : State) : Host.Outcome State Fault Refusal := .next (s.run fun _ c => releasePads c)
/-- COMMANDS_ACCEPTED. -/
def execCommandsAccepted (monitorInRange : Bool) (found : List MemberReport) (s : State) (cells : List (Nat × Nat × Nat) := []) :
    Host.Outcome State Fault Refusal :=
  .next (s.run (acceptCommands monitorInRange found cells))
/-- POWER_ON. -/
def execPowerOn (s : State) : Host.Outcome State Fault Refusal := .next (s.run coldReset)
/-- SYS_RESET_N. -/
def execSysResetN (s : State) : Host.Outcome State Fault Refusal := .next (s.run pinReset)
/-- SYS_RESET_N_RELEASE. -/
def execSysResetNRelease (s : State) : Host.Outcome State Fault Refusal := .next (s.run fun _ c => pinReleased c)
/-- WATCHDOG_RESET. -/
def execWatchdogReset (s : State) : Host.Outcome State Fault Refusal :=
  .next (s.run fun m c => if c.firmwareRuns then systemReset 2 true m c else c)
/-- SAFETY_CORE_RESET. -/
def execSafetyCoreReset (s : State) : Host.Outcome State Fault Refusal :=
  .next (s.run fun m c => if c.safetyRuns then systemReset 3 true m c else c)
/-- BOOT_ACCEPTANCE_TIMEOUT. -/
def execBootAcceptanceTimeout (s : State) : Host.Outcome State Fault Refusal := .next (s.run trialFails)
/-- REFERENCE_LOSS. -/
def execReferenceLoss (s : State) : Host.Outcome State Fault Refusal := .next (s.run clockLost)
/-- REF_CLK_RETURN. -/
def execRefClkReturn (s : State) : Host.Outcome State Fault Refusal := .next (s.run fun _ c => clockBack c)
/-- VDD_AON_LOSS. -/
def execVddAonLoss (s : State) : Host.Outcome State Fault Refusal := .next (s.run aonLost)
/-- OPERATING_POINT_SWITCH. -/
def execOperatingPointSwitch (avsFailures : Nat) (s : State) : Host.Outcome State Fault Refusal := .next (s.run (pointSwitch avsFailures))
/-- THROTTLE_STEP_DOWN. -/
def execThrottleStepDown (tj : Int) (s : State) : Host.Outcome State Fault Refusal := .next (s.run fun _ c => stepDown tj c)
/-- THROTTLE_STEP_UP. -/
def execThrottleStepUp (tj : Int) (s : State) : Host.Outcome State Fault Refusal := .next (s.run fun _ c => stepUp tj c)
/-- THERM_ALERT. -/
def execThermAlert (tj : Int) (s : State) : Host.Outcome State Fault Refusal := .next (s.run fun _ c => thermal tj c)
/-- COOLANT_LOSS. -/
def execCoolantLoss (s : State) : Host.Outcome State Fault Refusal := .next (s.run coolantLost)
/-- OVER_TEMPERATURE_LEE. -/
def execOverTemperatureLee (tj : Int) (fastRise : Bool) (s : State) : Host.Outcome State Fault Refusal :=
  .next (s.run (overTemperature tj fastRise))
/-- SAFETY_MONITOR_LEE. -/
def execSafetyMonitorLee (s : State) : Host.Outcome State Fault Refusal := .next (s.run monitorTrips)
/-- LEE_CAUSE_CLEAR. -/
def execLeeCauseClear (causeBit : Nat) (s : State) (found : List MemberReport := []) : Host.Outcome State Fault Refusal :=
  .next (s.run (leaving found (causeClears causeBit)))

end Sys2Proof.Machine
end

