-- ==== Sys2Proof/Machine/Dispatch.lean ====
section
/-! DEFINITION. The dispatch: one arm for each command of the table. -/

namespace Sys2Proof.Machine

/-- The effect of a command on everything but the queue. -/
def exec (i : Instr) (s : State) : Host.Outcome State Fault Refusal :=
  match i with
  | .identify r => Sys2Proof.Machine.execIdentify r s
  | .paramRead r => Sys2Proof.Machine.execParamRead r s
  | .paramWrite r => Sys2Proof.Machine.execParamWrite r s
  | .counterRead r => Sys2Proof.Machine.execCounterRead r s
  | .counterClear r => Sys2Proof.Machine.execCounterClear r s
  | .jobSubmit r suspends dead => Sys2Proof.Machine.execJobSubmit r s suspends dead
  | .jobRun r => Sys2Proof.Machine.execJobRun r s
  | .jobAbort r => Sys2Proof.Machine.execJobAbort r s
  | .jobEnd r => Sys2Proof.Machine.execJobEnd r s
  | .jobStatus r => Sys2Proof.Machine.execJobStatus r s
  | .slotWrite r => Sys2Proof.Machine.execSlotWrite r s
  | .slotRead r => Sys2Proof.Machine.execSlotRead r s
  | .bundleBegin r => Sys2Proof.Machine.execBundleBegin r s
  | .bundleData r failing => Sys2Proof.Machine.execBundleData r failing s
  | .bundleCommit r => Sys2Proof.Machine.execBundleCommit r s
  | .bundleRemove r => Sys2Proof.Machine.execBundleRemove r s
  | .bundleList r => Sys2Proof.Machine.execBundleList r s
  | .protectRead r => Sys2Proof.Machine.execProtectRead r s
  | .protectWrite r => Sys2Proof.Machine.execProtectWrite r s
  | .protectClaim r => Sys2Proof.Machine.execProtectClaim r s
  | .protectRelease r => Sys2Proof.Machine.execProtectRelease r s
  | .thawList r => Sys2Proof.Machine.execThawList r s
  | .thaw r => Sys2Proof.Machine.execThaw r s
  | .attestReport r => Sys2Proof.Machine.execAttestReport r s
  | .attestKeys r => Sys2Proof.Machine.execAttestKeys r s
  | .journalRead r => Sys2Proof.Machine.execJournalRead r s
  | .journalTrim r => Sys2Proof.Machine.execJournalTrim r s
  | .powerRead r => Sys2Proof.Machine.execPowerRead r s
  | .powerEnter r => Sys2Proof.Machine.execPowerEnter r s
  | .powerReset r => Sys2Proof.Machine.execPowerReset r s
  | .leeRead r => Sys2Proof.Machine.execLeeRead r s
  | .leeEnter r => Sys2Proof.Machine.execLeeEnter r s
  | .leeLeave r found => Sys2Proof.Machine.execLeeLeave r s found
  | .groupForm r found => Sys2Proof.Machine.execGroupForm r found s
  | .groupLeave r => Sys2Proof.Machine.execGroupLeave r s
  | .groupStatus r => Sys2Proof.Machine.execGroupStatus r s
  | .streamEnable context => Sys2Proof.Machine.execStreamEnable context s
  | .streamDisable context => Sys2Proof.Machine.execStreamDisable context s
  | .streamForcedDisable context => Sys2Proof.Machine.execStreamForcedDisable context s
  | .operatingPointChange => Sys2Proof.Machine.execOperatingPointChange s
  | .epochCommit => Sys2Proof.Machine.execEpochCommit s
  | .commitDeadline => Sys2Proof.Machine.execCommitDeadline s
  | .mkaSaReplace port => Sys2Proof.Machine.execMkaSaReplace port s
  | .portFailover port up => Sys2Proof.Machine.execPortFailover port up s
  | .ptpSync port time domain => Sys2Proof.Machine.execPtpSync port time s domain
  | .ptpPeerDelay port delay => Sys2Proof.Machine.execPtpPeerDelay port delay s
  | .ptpHoldover => Sys2Proof.Machine.execPtpHoldover s
  | .ptpUnsynchronised => Sys2Proof.Machine.execPtpUnsynchronised s
  | .hostXferTimeout jobNo handle tile slot => Sys2Proof.Machine.execHostXferTimeout jobNo handle tile slot s
  | .bundleIdleTimeout bundleNo => Sys2Proof.Machine.execBundleIdleTimeout bundleNo s
  | .resultSend => Sys2Proof.Machine.execResultSend s
  | .runDispatch => Sys2Proof.Machine.execRunDispatch s
  | .quantumExpiry => Sys2Proof.Machine.execQuantumExpiry s
  | .preemptionStop => Sys2Proof.Machine.execPreemptionStop s
  | .classSwitchComplete => Sys2Proof.Machine.execClassSwitchComplete s
  | .savedSumsLoaded => Sys2Proof.Machine.execSavedSumsLoaded s
  | .abortEffect => Sys2Proof.Machine.execAbortEffect s
  | .opEnd => Sys2Proof.Machine.execOpEnd s
  | .opNop => Sys2Proof.Machine.execOpNop s
  | .opWaitFull => Sys2Proof.Machine.execOpWaitFull s
  | .opSignal => Sys2Proof.Machine.execOpSignal s
  | .opReply => Sys2Proof.Machine.execOpReply s
  | .opMatmul => Sys2Proof.Machine.execOpMatmul s
  | .opConv2d => Sys2Proof.Machine.execOpConv2d s
  | .opConv1d => Sys2Proof.Machine.execOpConv1d s
  | .opConvGrouped => Sys2Proof.Machine.execOpConvGrouped s
  | .opConvDw => Sys2Proof.Machine.execOpConvDw s
  | .opPoolMax => Sys2Proof.Machine.execOpPoolMax s
  | .opPoolAvg => Sys2Proof.Machine.execOpPoolAvg s
  | .opUpsampleNearest => Sys2Proof.Machine.execOpUpsampleNearest s
  | .opUpsampleBilinear => Sys2Proof.Machine.execOpUpsampleBilinear s
  | .opCropResize => Sys2Proof.Machine.execOpCropResize s
  | .opArgmaxChan => Sys2Proof.Machine.execOpArgmaxChan s
  | .opSpaceToChan => Sys2Proof.Machine.execOpSpaceToChan s
  | .opGather => Sys2Proof.Machine.execOpGather s
  | .opScatter => Sys2Proof.Machine.execOpScatter s
  | .opElementwise => Sys2Proof.Machine.execOpElementwise s
  | .opAdaptUpdate => Sys2Proof.Machine.execOpAdaptUpdate s
  | .groupBoundary upsets parity => Sys2Proof.Machine.execGroupBoundary upsets parity s
  | .stepBoundary => Sys2Proof.Machine.execStepBoundary s
  | .passEnd parity => Sys2Proof.Machine.execPassEnd parity s
  | .drainSlotFull slot second parity => Sys2Proof.Machine.execDrainSlotFull slot second s parity
  | .drainComplete parity => Sys2Proof.Machine.execDrainComplete s parity
  | .commandComplete index => Sys2Proof.Machine.execCommandComplete index s
  | .blockedAccessGranted who => Sys2Proof.Machine.execBlockedAccessGranted who s
  | .stallLimitExceeded who => Sys2Proof.Machine.execStallLimitExceeded who s
  | .correctionWindow => Sys2Proof.Machine.execCorrectionWindow s
  | .globalHoldEnd => Sys2Proof.Machine.execGlobalHoldEnd s
  | .holdAlarmInterval => Sys2Proof.Machine.execHoldAlarmInterval s
  | .holdAlarmWindow => Sys2Proof.Machine.execHoldAlarmWindow s
  | .correctionWriteBack word => Sys2Proof.Machine.execCorrectionWriteBack word s
  | .storeScrubAccess store upsets => Sys2Proof.Machine.execStoreScrubAccess store upsets s
  | .packingFault => Sys2Proof.Machine.execPackingFault s
  | .blockListFetch tile context => Sys2Proof.Machine.execBlockListFetch tile context s
  | .transferIssue tile => Sys2Proof.Machine.execTransferIssue tile s
  | .transferDelivered tile tag upsets => Sys2Proof.Machine.execTransferDelivered tile tag upsets s
  | .governorWindow => Sys2Proof.Machine.execGovernorWindow s
  | .pageInStart stack => Sys2Proof.Machine.execPageInStart stack s
  | .pageInComplete stack upsets channelDead suspends others => Sys2Proof.Machine.execPageInComplete stack upsets channelDead s suspends others
  | .hbmCorrectionWriteBack word => Sys2Proof.Machine.execHbmCorrectionWriteBack word s
  | .hbmPatrolScrub upsets => Sys2Proof.Machine.execHbmPatrolScrub upsets s
  | .perBankRefresh pseudoChannel bank => Sys2Proof.Machine.execPerBankRefresh pseudoChannel bank s
  | .refreshDeadline pseudoChannel bank => Sys2Proof.Machine.execRefreshDeadline pseudoChannel bank s
  | .rowCloseTimeout pseudoChannel bank => Sys2Proof.Machine.execRowCloseTimeout pseudoChannel bank s
  | .caParityAlert pseudoChannel good succeeds => Sys2Proof.Machine.execCaParityAlert pseudoChannel good s succeeds
  | .hbmRetraining pseudoChannel succeeds => Sys2Proof.Machine.execHbmRetraining pseudoChannel succeeds s
  | .forcedRetraining pseudoChannel succeeds => Sys2Proof.Machine.execForcedRetraining pseudoChannel succeeds s
  | .rowRepair pseudoChannel bank row => Sys2Proof.Machine.execRowRepair pseudoChannel bank row s
  | .flashPatrol unit upsets suspends => Sys2Proof.Machine.execFlashPatrol unit upsets s suspends
  | .flashBlockRefresh channel block suspends => Sys2Proof.Machine.execFlashBlockRefresh channel block s suspends
  | .flashBlockErase channel block succeeds => Sys2Proof.Machine.execFlashBlockErase channel block succeeds s
  | .bankSubstitution store bank => Sys2Proof.Machine.execBankSubstitution store bank s
  | .tileSubstitution physical => Sys2Proof.Machine.execTileSubstitution physical s
  | .storeCopyComplete lost => Sys2Proof.Machine.execStoreCopyComplete s lost
  | .tileFreeze tile => Sys2Proof.Machine.execTileFreeze tile s
  | .planeTest failing => Sys2Proof.Machine.execPlaneTest failing s
  | .csi2FrameStart h => Sys2Proof.Machine.execCsi2FrameStart h s
  | .csi2LongPacket h p => Sys2Proof.Machine.execCsi2LongPacket h p s
  | .csi2FrameEnd h => Sys2Proof.Machine.execCsi2FrameEnd h s
  | .intakeFrameTimeout context => Sys2Proof.Machine.execIntakeFrameTimeout context s
  | .ethIntakeFrame f => Sys2Proof.Machine.execEthIntakeFrame f s
  | .tdmFrame port bitCount samples => Sys2Proof.Machine.execTdmFrame port bitCount samples s
  | .relayCopy context => Sys2Proof.Machine.execRelayCopy context s
  | .disableTimeout context => Sys2Proof.Machine.execDisableTimeout context s
  | .xwWordsPacket p => Sys2Proof.Machine.execXwWordsPacket p s
  | .xwZeroMaskPacket p => Sys2Proof.Machine.execXwZeroMaskPacket p s
  | .xwReducePacket p => Sys2Proof.Machine.execXwReducePacket p s
  | .xwRunStart p => Sys2Proof.Machine.execXwRunStart p s
  | .xwRunEnd p => Sys2Proof.Machine.execXwRunEnd p s
  | .xwConfigRelay p => Sys2Proof.Machine.execXwConfigRelay p s
  | .xwAcknowledge port seq => Sys2Proof.Machine.execXwAcknowledge port seq s
  | .xwReplayRequest port seq => Sys2Proof.Machine.execXwReplayRequest port seq s
  | .xwCredit port jobNo link slot tile => Sys2Proof.Machine.execXwCredit port jobNo link slot tile s
  | .xwRefusal port seq status => Sys2Proof.Machine.execXwRefusal port seq status s
  | .xwTimeProbe port probe sent peerReceived received => Sys2Proof.Machine.execXwTimeProbe port probe sent peerReceived received s
  | .xwHeartbeat port member groupEpoch memberState reaches => Sys2Proof.Machine.execXwHeartbeat port member groupEpoch memberState s reaches
  | .xwAlignment port lane count named => Sys2Proof.Machine.execXwAlignment port lane count s named
  | .xwReservedBlock port kind => Sys2Proof.Machine.execXwReservedBlock port kind s
  | .xwPacketSend port => Sys2Proof.Machine.execXwPacketSend port s
  | .xwHeartbeatSend => Sys2Proof.Machine.execXwHeartbeatSend s
  | .xwTimeProbeSend port => Sys2Proof.Machine.execXwTimeProbeSend port s
  | .xwLaneSwap port lane errors lostLock => Sys2Proof.Machine.execXwLaneSwap port lane s errors lostLock
  | .xwPortSwap port => Sys2Proof.Machine.execXwPortSwap port s
  | .xwMemberLost member => Sys2Proof.Machine.execXwMemberLost member s
  | .xwLinkUp port mine peer peerMember peerPort => Sys2Proof.Machine.execXwLinkUp port mine peer peerMember peerPort s
  | .xwRekey port mine peer peerMember peerPort => Sys2Proof.Machine.execXwRekey port mine peer peerMember peerPort s
  | .idleEntry => Sys2Proof.Machine.execIdleEntry s
  | .entryDrainTimeout => Sys2Proof.Machine.execEntryDrainTimeout s
  | .powerStateReached => Sys2Proof.Machine.execPowerStateReached s
  | .aonWake activeInWindow high => Sys2Proof.Machine.execAonWake activeInWindow s high
  | .energyDetect port => Sys2Proof.Machine.execEnergyDetect port s
  | .wakeTimer => Sys2Proof.Machine.execWakeTimer s
  | .aonPwrGoodRise => Sys2Proof.Machine.execAonPwrGoodRise s
  | .aonPwrGoodFall => Sys2Proof.Machine.execAonPwrGoodFall s
  | .bootVerification okA okB => Sys2Proof.Machine.execBootVerification okA okB s
  | .hbmTrainingComplete failed => Sys2Proof.Machine.execHbmTrainingComplete failed s
  | .padHoldRelease => Sys2Proof.Machine.execPadHoldRelease s
  | .commandsAccepted monitorInRange found cells => Sys2Proof.Machine.execCommandsAccepted monitorInRange found s cells
  | .powerOn => Sys2Proof.Machine.execPowerOn s
  | .sysResetN => Sys2Proof.Machine.execSysResetN s
  | .watchdogReset => Sys2Proof.Machine.execWatchdogReset s
  | .safetyCoreReset => Sys2Proof.Machine.execSafetyCoreReset s
  | .bootAcceptanceTimeout => Sys2Proof.Machine.execBootAcceptanceTimeout s
  | .referenceLoss => Sys2Proof.Machine.execReferenceLoss s
  | .operatingPointSwitch avsFailures => Sys2Proof.Machine.execOperatingPointSwitch avsFailures s
  | .throttleStepDown tj => Sys2Proof.Machine.execThrottleStepDown tj s
  | .throttleStepUp tj => Sys2Proof.Machine.execThrottleStepUp tj s
  | .thermAlert tj => Sys2Proof.Machine.execThermAlert tj s
  | .coolantLoss => Sys2Proof.Machine.execCoolantLoss s
  | .overTemperatureLee tj fastRise => Sys2Proof.Machine.execOverTemperatureLee tj fastRise s
  | .safetyMonitorLee => Sys2Proof.Machine.execSafetyMonitorLee s
  | .leeCauseClear causeBit found => Sys2Proof.Machine.execLeeCauseClear causeBit s found
  | .tileSelfTestComplete physical passes found => Sys2Proof.Machine.execTileSelfTestComplete physical passes s found
  | .sysResetNRelease => Sys2Proof.Machine.execSysResetNRelease s
  | .refClkReturn => Sys2Proof.Machine.execRefClkReturn s
  | .hbmStackNotResponding stack => Sys2Proof.Machine.execHbmStackNotResponding stack s
  | .addressResolutionRequest port v6 target sender => Sys2Proof.Machine.execAddressResolutionRequest port v6 target sender s
  | .icmpEchoRequest port target sender body => Sys2Proof.Machine.execIcmpEchoRequest port target sender body s
  | .unrecognisedPacket port why r => Sys2Proof.Machine.execUnrecognisedPacket port why r s
  | .mkaSecureAssociation port => Sys2Proof.Machine.execMkaSecureAssociation port s
  | .vddAonLoss => Sys2Proof.Machine.execVddAonLoss s

end Sys2Proof.Machine
end

