-- ==== Sys2Proof/Machine/Tick.lean ====
section
/-! DEFINITION. One nanosecond of the control domain, which the block idles through while no command waits (log 2): device
time, the plane clock counter and the time counters (01 R25; 03 R94, R95, R100; 13 R398; 16 Table 16.11; 17 R513). -/

namespace Sys2Proof.Machine

/-- Twentieths of a plane clock in a ns at an operating point: 1.25, 0.9 and 0.5 GHz (Table 1.2). -/
def planeRate (op : Nat) : Nat := if op = 0 then 25 else if op = 1 then 18 else 10

/-- The Plane is clocked: the block is in RUN, or leaves it; in IDLE the Plane is clock-gated (R480, R483, Table 16.1). -/
def planeClocked (c : Ctl) : Bool := (c.power.stage == .on && !c.power.idle) || c.power.stage == .entering

/-- The ns of slew taken now: at most one in 2,000 (R398); which ns of the 2,000 takes it is the model's choice (log 2). -/
def slewStep (c : Ctl) : Int :=
  if c.clk.ns % 2000 ≠ 0 then 0 else if 0 < c.clk.slew then 1 else if c.clk.slew < 0 then -1 else 0

/-- The control-domain and device clocks, one ns on. -/
def tickClocks (c : Ctl) : Ctl :=
  let sl := slewStep c
  { c with clk := { c.clk with ns := c.clk.ns + 1, device := ((c.clk.device : Int) + 1 + sl).toNat, slew := c.clk.slew - sl } }

/-- The busy log with the ns before `now` added, without what lies more than 10 ms back (R509). -/
def busyTick (now : Nat) (l : List (Nat × Nat)) : List (Nat × Nat) :=
  let l := l.filter fun x => now < x.1 + x.2 + 10000000
  match l.getLast? with
  | some x => if x.1 + x.2 + 1 = now then l.dropLast ++ [(x.1, x.2 + 1)] else l ++ [(now - 1, 1)]
  | none => [(now - 1, 1)]

/-- The plane clock counter and the counters of Plane time (R94, R95, R100). -/
def tickPlane (c : Ctl) : Ctl :=
  if !planeClocked c then c
  else
    let f := c.clk.planeFrac + planeRate c.power.opNow
    let n := f / 20
    let c := { c with clk := { c.clk with plane := c.clk.plane + n, planeFrac := f % 20 } }
    let c := if c.plane.operandWait.isSome then count .plnOperandWait 0 n c else c
    let c := if c.plane.passWait then count .plnDrainWait 0 n c else c
    match c.plane.holder with
    | some no => (c.mapJob no fun j => { j with quantumUsed := j.quantumUsed + 1 }).withPlane fun p =>
        { p with busyLog := busyTick c.clk.ns p.busyLog }
    | none => c

/-- Time in RUN, in IDLE and in Lee mode, and without a run, ns (R480; Tables 16.12 and 17.7). -/
def tickTimes (c : Ctl) : Ctl :=
  let up := c.power.stage == .on
  let c := c.withPower fun p =>
    { p with quiet := if up && !c.jobs.any fun j => j.running.isSome && !j.ended then p.quiet + 1 else 0 }
  let c := if up && c.power.idle then count .pwrTimeIdle 0 1 c else if up then count .pwrTimeRun 0 1 c else c
  if c.service.lee then count .svcLeeTime 0 1 c else c

/-- One ns: everything of the block that has power. -/
def tickAll (c : Ctl) : Ctl :=
  if c.power.stage = .dead then c
  else
    let c := tickTimes (tickPlane (tickClocks c))
    if c.accepting then flushWear c else c

/-- One ns of the state. -/
def State.tick (s : State) : State := { s with ctl := tickAll s.ctl }

/-! ### The queue of accepted requests (R402) -/

/-- The front request may be served: commands are accepted, and no copy of a store holds a slot transfer (R541). -/
def Ctl.serves (c : Ctl) (i : Instr) : Bool :=
  c.accepting && match i with
    | .slotWrite _ => c.plane.copying.isNone
    | .slotRead _ => c.plane.copying.isNone
    | _ => true
/-- What the block does while no command waits: firmware serves the first request of its queue, by `run`; with none that may be
served, a ns passes (log entries 2 and 107). -/
def State.idle (run : Instr → State → Host.Outcome State Fault Refusal) (s : State) : Host.Outcome State Fault Refusal :=
  match s.ctl.proto.queue with
  | [] => .next s.tick
  | i :: rest =>
    if s.ctl.serves i then
      match run i { s with ctl := s.ctl.withProto fun p => { p with queue := rest, serving := true } } with
      | .next t => .next { t with ctl := t.ctl.withProto fun p => { p with serving := false } }
      | .fault f => .fault f
      | .refused f => .refused f
    else .next s.tick

end Sys2Proof.Machine
end

