-- ==== Sys2Proof/Safety.lean ====
section
/-! DEFINITION. What counts as a safe state and a safe run, and the words in which the statements speak of a command's next
state, its replies and its frame. -/

namespace Sys2Proof

/-- The memories are in canonical form: equal memories are equal data. -/
def Machine.State.canonical (s : Machine.State) : Prop := s.mem.wf = true

/-- Between commands: the memories are in canonical form and no write of a command waits. Every step leaves a state so. -/
def Machine.State.ready (s : Machine.State) : Prop := s.mem.wf = true ∧ s.ctl.wq = []

/-- A run of `k` steps from `s` never stops. -/
def runsOn (k : Nat) (s : Machine.State) : Prop := ∃ t, core.run k s = .next t

/-- The state with another control state: memories and queue unchanged. -/
def Machine.State.withCtl (s : Machine.State) (c : Machine.Ctl) : Machine.State := { s with ctl := c }

/-- What packets, events and counters never touch: all but the counters, the packets sent, their bytes and numbers, the reports of
service events and the free values taken. -/
def Machine.Ctl.quiet (c : Machine.Ctl) : Machine.Ctl :=
  { c with counters := [], freeIx := 0, proto := { c.proto with sent := [], txPn := [], rxPn := [], wire := [], serviceSent := [] } }

/-- The command answers a next state of which `P` holds. -/
def Machine.completes (i : Instr) (s : Machine.State) (P : Machine.State → Prop) : Prop :=
  ∃ t, Machine.exec i s = .next t ∧ P t

/-- The command answers a next state that is `c` in everything but counters, packets and reports of events; memories and queue
stay. -/
def Machine.reaches (i : Instr) (s : Machine.State) (c : Machine.Ctl) : Prop :=
  Machine.completes i s fun t => t.ctl.quiet = c.quiet ∧ t.mem = s.mem ∧ t.pending = s.pending

/-- From `s` to `t` a counter has counted `n` events, with its saturation (R513, R514). -/
def Machine.counted (k : Machine.Cnt) (i n : Nat) (s t : Machine.State) : Prop :=
  t.ctl.counter k i = (Machine.countValue k.info.2.2 (s.ctl.counter k i) n).1

/-- From `s` to `t` the device has sent more packets, `ps` among them, one after the other. -/
def Machine.sends (s t : Machine.State) (ps : List Machine.Packet) : Prop :=
  ∃ a b, t.ctl.proto.sent = s.ctl.proto.sent ++ (a ++ (ps ++ b))

/-- From `s` to `t` the device has answered request `r`, of TYPE `kind`, with a status and payloads, one a packet: to the
source of the request, on its port, with REQ_ID and ROLE of the request and the epoch of the answer (R395, R399, R415). -/
def Machine.replies (s t : Machine.State) (r : Req) (kind : Nat) (st : Machine.KS) (bodies : List (List Byte)) : Prop :=
  Machine.sends s t (Machine.replyPackets r kind st bodies t.ctl.proto.epoch r.port)

/-- Nothing of the device has changed but what a served request always may: the cache of requests, the packet number of its frame,
the counters kept for signing keys, packets and counters. -/
def Machine.onlyServed (s t : Machine.State) : Prop :=
  t.mem = s.mem ∧ t.pending = s.pending ∧
    { t.ctl with
      counters := [], freeIx := 0
      proto := { t.ctl.proto with sent := [], txPn := [], rxPn := [], wire := [], serviceSent := [], cache := [] }
      sec := { t.ctl.sec with keys := [], ramCounters := [] } } =
    { s.ctl with
      counters := [], freeIx := 0
      proto := { s.ctl.proto with sent := [], txPn := [], rxPn := [], wire := [], serviceSent := [], cache := [] }
      sec := { s.ctl.sec with keys := [], ramCounters := [] } }

end Sys2Proof
end

