-- ==== Sys2Proof/Certificates/Slice0/Obligations.lean ====
section
/-! DEFINITION. The statements for the provers: what each family of commands does to every kind of state, in the words of the
spec's rules. -/

open Sys2Proof Sys2Proof.Machine

/-! ### The block as a whole -/

/-- A step takes the command at the front of the queue and runs it on the rest: exec of it on the state with the queue's rest
(the block's form of a step; log entry 2). [Rests on 95_what_each_step_holds.md; what it holds of the model's own choices and
readings: log entries 1, 2] -/
def Obligations.StepRunsFrontCommand : Prop :=
  ∀ (c : Instr) (rest : List Instr) (s : State),
    step { s with pending := c :: rest } = exec c { s with pending := rest }

/-- With no command waiting a step is one ns of the control domain, unless firmware serves a request that waits (the model's
choice, log entries 2 and 107): memories and queue stay, device time goes on by a ns where no slew is left, and a dead device
does nothing. The request that is first in the queue of accepted requests is served where commands are accepted and, a slot
transfer, where no store is being copied: it runs as its command does. [Rests on R398, R402, 16_power_clocks_reset.md; what
it holds of the model's own choices and readings: log entries 2, 107] -/
def Obligations.IdleStepIsOneNs : Prop :=
  ∀ s : State, s.pending = [] →
    ((s.ctl.proto.queue = [] ∨ ∃ i rest, s.ctl.proto.queue = i :: rest ∧ s.ctl.serves i = false) →
      ∃ t, step s = .next t ∧ t.mem = s.mem ∧ t.pending = [] ∧ t.ctl.params = s.ctl.params ∧ t.ctl.sec = s.ctl.sec ∧
        t.ctl.store = s.ctl.store ∧ t.ctl.slotTags = s.ctl.slotTags ∧ t.ctl.proto.queue = s.ctl.proto.queue ∧
        (s.ctl.power.stage = .dead → t = s) ∧
        (s.ctl.power.stage ≠ .dead → t.ctl.clk.ns = s.ctl.clk.ns + 1) ∧
        (s.ctl.power.stage ≠ .dead → s.ctl.clk.slew = 0 → t.ctl.clk.device = s.ctl.clk.device + 1)) ∧
    (∀ i rest, s.ctl.proto.queue = i :: rest →
      (s.ctl.accepting = false → s.ctl.serves i = false) ∧
      (∀ r, i = .slotWrite r ∨ i = .slotRead r → s.ctl.plane.copying.isSome = true → s.ctl.serves i = false) ∧
      (s.ctl.serves i = true →
        ∃ t, exec i (s.withCtl (s.ctl.withProto fun p => { p with queue := rest, serving := true })) = .next t ∧
          step s = .next (t.withCtl (t.ctl.withProto fun p => { p with serving := false }))))

/-- Every command answers a next state, whatever the state and the operands, and leaves the queue as it found it: no command
of this block stops. [Rests on 95_what_each_step_holds.md; what it holds of the model's own choices and readings: log entry
1] -/
def Obligations.EveryCommandAnswers : Prop :=
  ∀ (c : Instr) (s : State), completes c s fun t => t.pending = s.pending

/-- The canonical form of the memories, and that no write of a command waits, hold after every step from a state that has
them. [Rests on R233, R235, R351, 08_tile_stores.md, 11_hbm_flash.md; what it holds of the model's own choices and readings:
log entry 8] -/
def Obligations.StepKeepsReady : Prop :=
  ∀ s t : State, s.ready → step s = .next t → t.ready

/-- The state after reset is ready, with the wake sequence at its first step, nothing in the memories, no job, the reset
contents of the protection tables and of the status registers, and every counter 0 but those of the power-on. [Rests on R14,
R448, R454, R486, R489, R495, R498; what it holds of the model's own choices and readings: log entries 8, 9, 10, 135] -/
def Obligations.ResetLeavesWakeAtItsStart : Prop :=
  State.reset.ready ∧ State.reset.pending = [] ∧ State.reset.ctl.power.stage = .waitGood ∧
    (∀ k i, State.reset.ctl.counter k i = if i = 0 ∧ (k = .pwrReset ∨ k = .pwrWake) then 1 else 0) ∧
    (∀ a, State.reset.mem.byteAt a = 0) ∧ State.reset.ctl.jobs = [] ∧ State.reset.ctl.proto.epoch = 0 ∧
    State.reset.ctl.power.resetCause = 0x01 ∧ State.reset.ctl.power.wakeCause = 0 ∧ State.reset.ctl.group.lead = 0xFF ∧
    State.reset.ctl.sec.claimed = false ∧ State.reset.ctl.sec.rights = Sec.rightsReset ∧
    State.reset.ctl.pins.padHold = true ∧ State.reset.ctl.service.leeCause = 0 ∧
    (∀ t < 16, State.reset.ctl.physical t = some t) ∧ State.reset.ctl.spares = [16, 17] ∧
    ∀ k, State.reset.ctl.slotFull k = false ∧ State.reset.ctl.slotVoided k = false

/-! ### Spiral numbers (02) -/

/-- SP4 widens to the SP8 element of the same value: sign and magnitude code, in eighths of a turn above scale − 15 turns, f
of 0 or 4, zero to 0x00, void to 0x80. [Rests on R46, R47, R48] -/
def Obligations.Sp4WidensExactly : Prop :=
  ∀ n < 16,
    (n % 8 = 0 → sp4Widen n = if n = 0 then 0x00#8 else 0x80#8) ∧
    (n % 8 ≠ 0 →
      sp8Mag (sp4Widen n) = 92 + 4 * (n % 8) ∧ sp8Neg (sp4Widen n) = decide (8 ≤ n) ∧
      ((sp8Mag (sp4Widen n) : Int) - 120 = 4 * ((n % 8 : Nat) - 7 : Int)) ∧
      (sp8Mag (sp4Widen n) % 8 = 0 ∨ sp8Mag (sp4Widen n) % 8 = 4) ∧
      sp8IsVoid (sp4Widen n) = false ∧ sp8IsZero (sp4Widen n) = false)

/-- The inner sum is exact: the sum of the mapped products in any order, and it fits the 50-bit accumulator for every group
of up to 128 pairs. [Rests on R53] -/
def Obligations.InnerSumExactInAnyOrder : Prop :=
  (∀ l l' : List (Byte × Byte), l.Perm l' → innerSum l = innerSum l') ∧
  (∀ l : List (Byte × Byte), ∀ v, innerSum l = some v → v = ((l.map fun p => (mappedProduct p.1 p.2).getD 0).sum)) ∧
  (∀ l : List (Byte × Byte), l.length ≤ 128 → ∀ v, innerSum l = some v → -(2 ^ 49) ≤ v ∧ v < 2 ^ 49)

/-- A product is void exactly where an operand is void, the other being 0x00 or not. The inner sum of a group is void, and
with it the group's contribution, if a product in it is void or a scale of either operand's group is the void scale; a void
contribution makes the running sum void, and a void running sum stays void; in every format that the Plane emits it is the
void encoding. [Rests on R52, R54, R58] -/
def Obligations.InnerSumVoid : Prop :=
  (∀ a w : Byte, mappedProduct a w = none ↔ a = 0x80#8 ∨ w = 0x80#8) ∧
  ∀ (l : List (Byte × Byte)) (ga gw : Int),
    (innerSum l = none ↔ ∃ p ∈ l, mappedProduct p.1 p.2 = none) ∧
    ((∃ p ∈ l, mappedProduct p.1 p.2 = none) ∨ ga = voidScale ∨ gw = voidScale →
      contribution (innerSum l) ga gw = (f32Void, 0)) ∧
    (∀ a c : F32, f32IsVoid a = true ∨ f32IsVoid c = true → runningAdd a c = (f32Void, 0)) ∧
    f32Void = 0x7FC00001#32 ∧ (f32to16 f32Void).1 = 0x7E01 ∧ ∀ g, toSp8 f32Void g = (0x80#8, 0) ∧ toSp4 f32Void g = (8, 0)

/-- A rounding to binary32 that passes the largest finite value gives that value with the sign and one saturation event; no
contribution and no running sum is an infinity, or a NaN other than the void encoding; a conversion to SP8 of an infinity, or
of a magnitude of 2 or more in units of the scale, gives code 127 with the sign and one event. [Rests on R57, R58, R60, R61]
-/
def Obligations.ResultsSaturate : Prop :=
  (∀ q : Q, 0x7F7FFFFF < roundMag 24 (-149) q.num.natAbs q.den → q.num ≠ 0 →
    round32 q = (if q.num < 0 then 0xFF7FFFFF#32 else 0x7F7FFFFF#32, 1)) ∧
  (∀ q : Q, f32IsVoid (round32 q).1 = false ∧ f32IsInf (round32 q).1 = false) ∧
  (∀ s ga gw, (contribution s ga gw).1 = f32Void ∨
    (f32IsVoid (contribution s ga gw).1 = false ∧ f32IsInf (contribution s ga gw).1 = false)) ∧
  (∀ a c, (runningAdd a c).1 = f32Void ∨ (f32IsVoid (runningAdd a c).1 = false ∧ f32IsInf (runningAdd a c).1 = false)) ∧
  (∀ (x : F32) (g : Int), f32IsVoid x = false → g ≠ voidScale → x.toNat % 0x80000000 ≠ 0 →
    (f32IsInf x = true ∨ g + 1 ≤ (normalise x).1) → toSp8 x g = (byte ((if f32Neg x then 128 else 0) + 127), 1))

/-- Any NaN becomes 0x80, and so does any input converted with the void scale. [Rests on R63] -/
def Obligations.NanConvertsToVoid : Prop :=
  ∀ (x : F32) (g : Int), f32IsVoid x = true ∨ g = voidScale → toSp8 x g = (0x80#8, 0)

/-! ### Packing (10) -/

/-- A P6 block decodes to the elements it was made from, and a P4 block to those rounded to half-turns as Table 10.5 says,
those flushed as zero: an encoder's block that is not void decodes without a fault, and with nothing flushed it is lossless.
[Rests on R313, R314, R315, R316, R317, R318] -/
def Obligations.P6DecodesWhatWasEncoded : Prop :=
  (∀ (p4 : Bool) (es : List Byte), es.length = 128 →
    let xs := if p4 = true then es.map fun b => (p4Round b).1 else es
    ∃ ys, decodeExp p4 (encodeExp p4 xs).bytes = .ok ys ∧ ys.length = 128 ∧
      ((encodeExp p4 xs).blockVoid = 1 → ys = List.replicate 128 0x80#8) ∧
      ((encodeExp p4 xs).blockVoid = 0 →
        ∃ l ≤ 15, ys = xs.map (flushElem (topTurn xs) l)) ∧
      ((encodeExp p4 xs).blockVoid = 0 → (encodeExp p4 xs).flushed = 0 → ys = xs)) ∧
  p4Round 0x00#8 = (0x00#8, 0) ∧ p4Round 0x80#8 = (0x80#8, 0) ∧
  ∀ s t f, s < 2 → t < 16 → f < 8 → t ≠ 0 ∨ f ≠ 0 →
    let becomes (t' f' clips : Nat) : Prop := p4Round (byte (128 * s + 8 * t + f)) = (byte (128 * s + 8 * t' + f'), clips)
    (1 ≤ t → f ≤ 2 → becomes t 0 0) ∧ (t = 0 → f ≤ 2 → becomes 0 4 0) ∧ (3 ≤ f → f ≤ 6 → becomes t 4 0) ∧
      (t ≤ 14 → f = 7 → becomes (t + 1) 0 0) ∧ (t = 15 → f = 7 → becomes 15 4 1)

/-- A zero-mask block in masked form decodes to the 128 elements it was made from; a dense one holds them as they are. [Rests
on R319, R320, R321, R322] -/
def Obligations.ZeroMaskIsLossless : Prop :=
  ∀ es : List Byte, es.length = 128 →
    ((encodeZm es).2 = true → (encodeZm es).1 = es ∧ 112 < (es.filter fun b => !sp8IsZero b).length) ∧
    ((encodeZm es).2 = false → decodeZm (encodeZm es).1 = .ok es ∧
      (encodeZm es).1.length = 32 * zmUsedWords (encodeZm es).1)

/-- Where one block meets more than one fault class, it reports the first in the order overrun, padding, format: a P6 or P4
block with codes, one marked wholly void, and a zero-mask block, masked or dense. A word whose tag FORMAT disagrees is a
format fault. [Rests on R328] -/
def Obligations.FaultClassesInOrder : Prop :=
  (∀ (p4 : Bool) (ws : List WordRead),
    let blk := ws.flatMap (·.data)
    let h := (blk.headD 0).toNat
    let bs := (blk.drop 1).flatMap byteBits
    let tagsAgree : Bool := ws.all fun w => w.format == (if p4 = true then 2 else 1)
    let decodes (r : Except PackFault (List Byte)) : Prop := decodeBlock (if p4 = true then 7 else 6) ws = r
    (bit h 4 = false →
      (decodeElems p4 (h % 16) 128 bs = none → decodes (.error .overrun)) ∧
      (∀ es r, decodeElems p4 (h % 16) 128 bs = some (es, r) →
        let clean : Prop := h / 32 = 0 ∧ es.any Option.isNone = false ∧ tagsAgree = true
        (r.any id = true → decodes (.error .padding)) ∧
        (r.any id = false → ¬clean → decodes (.error .format)) ∧
        (r.any id = false → clean → decodes (.ok (es.map (·.getD 0)))))) ∧
    (bit h 4 = true →
      let dirty : Prop := h % 16 ≠ 0 ∨ bs.any id = true
      (dirty → decodes (.error .padding)) ∧
      (¬dirty → h / 32 ≠ 0 ∨ tagsAgree = false → decodes (.error .format)) ∧
      (¬dirty → h / 32 = 0 → tagsAgree = true → decodes (.ok (List.replicate 128 0x80#8))))) ∧
  (∀ (w : WordRead) (ws : List WordRead),
    let blk := (w :: ws).flatMap (·.data)
    let tagsAgree : Bool := (w :: ws).all fun v => v.format == w.format
    let padded : Bool := (blk.drop (16 + maskCount blk)).any (· ≠ 0)
    let decodes (r : Except PackFault (List Byte)) : Prop := decodeBlock 8 (w :: ws) = r
    (w.format = 3 →
      (112 < maskCount blk → decodes (.error .overrun)) ∧
      (maskCount blk ≤ 112 → padded = true → decodes (.error .padding)) ∧
      (maskCount blk ≤ 112 → padded = false → tagsAgree = false → decodes (.error .format)) ∧
      (maskCount blk ≤ 112 → padded = false → tagsAgree = true → decodes (.ok (spreadMask (maskBits blk) (blk.drop 16))))) ∧
    (w.format = 0 → decodes (if tagsAgree = true then .ok blk else .error .format)) ∧
    (w.format ≠ 3 → w.format ≠ 0 → decodes (.error .format)))

/-! ### Stored words, banks and slot tags (08) -/

/-- A word whose tag byte is a legal one: no more than POISON and a FORMAT that is not reserved (Table 8.1). -/
def legalTag (tag : Nat) : Prop := tag < 16 ∧ tag % 8 ≠ 7

/-- One symbol in error, wherever it lies, is delivered corrected; two are delivered with the poison bit set; none, as
stored. Of three or more nothing is claimed. [Rests on R234] -/
def Obligations.ReadCorrectsOneSymbol : Prop :=
  ∀ (m : Mem) (w : Nat), legalTag (m.tagAt w).toNat →
    (m.errors w = 0 →
      m.readWord w = { data := (List.range 32).map fun i => m.byteAt (32 * w + i), tag := (m.tagAt w).toNat, found := .clean }) ∧
    (m.errors w = 1 →
      m.readWord w = { data := (List.range 32).map fun i => m.byteAt (32 * w + i), tag := (m.tagAt w).toNat, found := .corrected }) ∧
    (m.errors w = 2 → (m.readWord w).poison = true ∧ (m.readWord w).found = .uncorrectable ∧
      (m.readWord w).data = m.rawData w)

/-- A write of a whole word is what the next read of it delivers, with its FORMAT and POISON and a fresh check code, and no
other word changes. [Rests on R233, R235] -/
def Obligations.WholeWordWriteIsReadBack : Prop :=
  ∀ (m : Mem) (w tag : Nat) (data : List Byte), data.length = 32 → legalTag tag →
    (m.wf = true → (m.apply (wholeWord w data tag)).wf = true) ∧
    (m.apply (wholeWord w data tag)).readWord w = { data := data, tag := tag, found := .clean } ∧
    ∀ w', w' ≠ w → (m.apply (wholeWord w data tag)).readWord w' = m.readWord w'

/-- A write of part of a word replaces its bytes alone: the other bytes are the word's as delivered, FORMAT and POISON stay,
a word with one bad symbol is mended on the way and one with two is stored poisoned. No other word changes. [Rests on R235,
R245, R246] -/
def Obligations.PartWordWriteKeepsFormatAndPoison : Prop :=
  ∀ (m : Mem) (w o : Nat) (data : List Byte), legalTag (m.tagAt w).toNat → m.errors w ≤ 2 →
    o + data.length ≤ 32 → 0 < data.length →
    (m.apply (partWord m (32 * w + o) data)).readWord w =
      { data := (m.readWord w).data.take o ++ data ++ (m.readWord w).data.drop (o + data.length),
        tag := (m.readWord w).tag, found := .clean } ∧
    ∀ w', w' ≠ w → (m.apply (partWord m (32 * w + o) data)).readWord w' = m.readWord w'

/-- The bank maps of the stores: a bank below 64 and a row below 6,144 in a tile store, a bank below 32 and a row below
32,768 in the common store, and no two words share both. [Rests on R231, R232] -/
def Obligations.BankMapsAreOneToOne : Prop :=
  ∀ st ≤ 16, ∀ w < storeBytes st / 32,
    (bankOf st (32 * w)).1 < (if st < 16 then 64 else 32) ∧ (bankOf st (32 * w)).2 < (if st < 16 then 6144 else 32768) ∧
    ∀ w' < storeBytes st / 32, bankOf st (32 * w) = bankOf st (32 * w') → w = w'

/-- The HBM map: a device address of HBM lies in one of 64 pseudo-channels, 48 banks and 16,384 rows, and the two 512-byte
chunks of that row are the chunk of the address and one other. [Rests on R335] -/
def Obligations.HbmMapIsOneToOne : Prop :=
  ∀ a < hbmEnd,
    (hbmPlace a).1 < 64 ∧ (hbmPlace a).2.1 < 48 ∧ (hbmPlace a).2.2 < 16384 ∧
    a / 512 * 512 ∈ rowChunks (hbmPlace a).1 (hbmPlace a).2.1 (hbmPlace a).2.2 ∧
    (rowChunks (hbmPlace a).1 (hbmPlace a).2.1 (hbmPlace a).2.2).Nodup

/-- The slot tags: a slot set full that was full keeps its state; one set full anew is not VOIDED; a void set-full sets both
bits; a slot set empty has neither; other slots keep their state. [Rests on R253, R256, R257, R258] -/
def Obligations.SlotTagChanges : Prop :=
  ∀ (c : Ctl) (k : Nat), (c.slotVoided k = true → c.slotFull k = true) →
    ((setFull k c).slotFull k = true ∧ (c.slotFull k = true → setFull k c = c) ∧
      (c.slotFull k = false → (setFull k c).slotVoided k = false)) ∧
    ((setVoided k c).slotFull k = true ∧ (setVoided k c).slotVoided k = true) ∧
    ((setEmpty k c).slotFull k = false ∧ (setEmpty k c).slotVoided k = false) ∧
    (∀ f ∈ [setFull, setVoided, setEmpty], { f k c with slotTags := c.slotTags, tagTimes := c.tagTimes } = c ∧
      (∀ j, j ≠ k → (f k c).slotFull j = c.slotFull j ∧ (f k c).slotVoided j = c.slotVoided j) ∧
      ((f k c).slotVoided k = true → (f k c).slotFull k = true))

/-- A counter of events: it counts up to 2^48 − 1, and an event past that sets the overflow bit and stays there; counting
touches nothing but the counters, the packets and the reports of service events. A time counter is 64 bits wide. [Rests on
R513, R514] -/
def Obligations.CountersSaturate : Prop :=
  ∀ (k : Cnt) (i n : Nat) (c : Ctl),
    (k.info.2.2 = false → c.counter k i + n ≤ cntMax → (count k i n c).counter k i = c.counter k i + n) ∧
    (k.info.2.2 = false → c.counter k i ≤ cntMax → cntMax < c.counter k i + n →
      (count k i n c).counter k i = 2 ^ 63 + cntMax) ∧
    (k.info.2.2 = false → 2 ^ 63 ≤ c.counter k i → (count k i n c).counter k i = c.counter k i) ∧
    (k.info.2.2 = true → c.counter k i + n < 2 ^ 64 → (count k i n c).counter k i = c.counter k i + n) ∧
    (count k i n c).quiet = c.quiet ∧
    ∀ k' i', k'.info.2.2 = true → (k', i') ≠ (k, i) → (count k i n c).counter k' i' = c.counter k' i'

/-- A parameter's committed value: a commit of one parameter changes that one alone. [Rests on R413, R414] -/
def Obligations.ParameterCommitChangesItAlone : Prop :=
  ∀ (c : Ctl) (id v id' : Nat),
    (c.setParam id v).param id = v ∧ (id' ≠ id → (c.setParam id v).param id' = c.param id') ∧
    { c.setParam id v with params := c.params } = c

/-! ### Host requests (13, 15, 16, 17) -/

/-- Request `r` passes the gate `g` of its type and is served (R400). -/
def served (g : Gate) (r : Req) (c : Ctl) : Prop := passes g (trustCheck c g r) r c = true

/-- Every job numbered `no` that is left has ended. -/
def endedJob (t : State) (no : Nat) : Prop := ∀ k ∈ t.ctl.jobs, k.no = no → k.ended = true

/-- The job numbered `no` stands in state `t`, and `P` holds of it. -/
def withJob (t : State) (no : Nat) (P : Job → Prop) : Prop := ∃ k, t.ctl.job? no = some k ∧ P k

/-- Memories and queue are as they were. -/
def sameMem (s t : State) : Prop := t.mem = s.mem ∧ t.pending = s.pending

/-- A request that fails a check of R400 is refused with the status of the first that fails, and a refusal changes nothing
but counters and packets: length, reserved fields, header, signature and right, mode, epoch and a full queue, in this order.
A copy of a cached request gets the cached reply again, and another request under its REQ_ID gets KS_DUPLICATE_ID. A request
that passes is served, or joins the queue of at most 256: at its end, a Gale JOB_RUN ahead of all others. A frame without an
association, one that came before, and one that is not for the device change nothing. [Rests on R400, R401, R402, R17, R393,
R394; what it holds of the model's own choices and readings: log entries 105, 107, 116, 129] -/
def Obligations.RequestsAreCheckedInOrder : Prop :=
  ∀ (g : Gate) (t : KS) (r : Req) (serve : Ctl → Ctl) (c : Ctl),
    let out := gateWith g t r serve c
    let refused (st : KS) : Prop := out.quiet = c.quiet ∧
      ∃ a, out.proto.sent = c.proto.sent ++ (a ++ replyPackets r g.code st [g.detail] c.proto.epoch r.port)
    let form : Prop := c.hears r = true ∧ g.lengthOk = true ∧ g.reservedOk = true ∧ headerCheck r = .ok
    let fresh : Prop := g.fragment = true ∨ c.cached r = none
    let good : Prop := form ∧ fresh ∧ t = .ok ∧ modeCheck c g r = .ok ∧ (bit r.flags 3 = false ∨ r.epoch = c.proto.epoch)
    (c.proto.serving = false → (c.accepting = false ∨ c.proto.sa.getD r.port false = false) → out = c) ∧
    (c.proto.serving = false → (c.frameLate r.port r.pn = true ∨ c.frameFor r = false) → out.quiet = c.quiet) ∧
    (c.proto.serving = true → modeCheck c g r = .ok → out = serve c) ∧
    (c.proto.serving = true → modeCheck c g r ≠ .ok → out = answer r g.code (modeCheck c g r) [] c) ∧
    (c.hears r = true → g.lengthOk = false → refused .badPacket) ∧
    (c.hears r = true → g.lengthOk = true → g.reservedOk = false → refused .badReserved) ∧
    (c.hears r = true → g.lengthOk = true → g.reservedOk = true → headerCheck r ≠ .ok → refused (headerCheck r)) ∧
    (form → g.fragment = false → ∀ q, c.cached r = some q → (q.code ≠ g.code ∨ q.holds r = false) → refused .duplicateId) ∧
    (form → g.fragment = false → ∀ q ps, c.cached r = some q → q.code = g.code → q.holds r = true → q.reply = some ps →
      out.quiet = c.quiet ∧ ∃ a, out.proto.sent =
        c.proto.sent ++ (a ++ ps.map fun p => { p with dst := { p.dst with port := r.port }, src := r.dst, srcUdp := r.dstUdp })) ∧
    (form → g.fragment = false → ∀ q, c.cached r = some q → q.code = g.code → q.holds r = true → q.reply = none →
      (q.req.port = r.port ∨ q.copyPort ≠ none → refused .pending) ∧
      (q.req.port ≠ r.port → q.copyPort = none → out.proto.sent = c.proto.sent ∧
        ∃ x ∈ out.proto.cache, x.req = q.req ∧ x.copyPort = some (r.port, r.dst, r.dstUdp))) ∧
    (form → fresh → t ≠ .ok → refused t) ∧
    (form → fresh → t = .ok → modeCheck c g r ≠ .ok → refused (modeCheck c g r)) ∧
    (form → fresh → t = .ok → modeCheck c g r = .ok → bit r.flags 3 = true → r.epoch ≠ c.proto.epoch → refused .epochChanged) ∧
    (good → 256 ≤ c.proto.queue.length → g.exempt = false → refused .busy) ∧
    (good → c.proto.queue.length < 256 → c.queues g.code r = true → g.exempt = false →
      let i := g.again.getD (instrOf g.code r)
      (c.galeRun g.code r = false → out.proto.queue = c.proto.queue ++ [i]) ∧
      (c.galeRun g.code r = true → ∃ a b, c.proto.queue = a ++ b ∧ (∀ x ∈ a, c.galeWaits x = true) ∧
        (∀ x ∈ b.head?, c.galeWaits x = false) ∧ out.proto.queue = a ++ i :: b) ∧
      out.jobs = c.jobs ∧ out.params = c.params ∧ out.store = c.store ∧ out.slotTags = c.slotTags ∧ out.plane = c.plane) ∧
    (passes g t r c = true → out = serve (accept g r c))

/-- The requests that read: each that passes its gate is answered with what it asks for, and nothing else changes. [Rests on
R404, R414, R425, R437, R462, R471, R473, R476, R482, R512, R515; what it holds of the model's own choices and readings: log
entries 13, 76, 101] -/
def Obligations.ReadRequestsAreAnswered : Prop :=
  ∀ (s : State) (r : Req), s.ready →
    let c := s.ctl
    let read (i : Instr) (g : Gate) (bodies : Ctl → List (List Byte)) : Prop :=
      served g r c → completes i s fun t => replies s t r g.code .ok (bodies (accept g r c)) ∧ onlyServed s t
    read (.identify r) (plainGate 0x01 0 (r.len == 0) true) (fun c => [identity c]) ∧
    (∀ l, readEntries (accept (plainGate 0x02 1 (r.len % 4 == 0 && r.len ≤ 64) true) r c) (paramIds r) = some l →
      read (.paramRead r) (plainGate 0x02 1 (r.len % 4 == 0 && r.len ≤ 64) true) fun _ => [l]) ∧
    (r.u8 0 < 13 → read (.counterRead r) (plainGate 0x04 0 (r.len == 4) (r.zeros 1 3))
      fun c => offsetFragments ((blockValues c (r.u8 0)).flatMap (toBe 8))) ∧
    (∀ j, c.admitted (r.be 0 2) = some j → j.ended = false ∨ c.frozenIn j.no = true →
      read (.jobStatus r) (jobGate 0x14 0 r) fun _ => [jobStatusBytes j]) ∧
    (served (jobGate 0x14 0 r) r c → (∀ j, c.admitted (r.be 0 2) = some j → j.ended = true ∧ c.frozenIn j.no = false) →
      completes (.jobStatus r) s fun t => replies s t r 0x14 .noJob [[]] ∧ onlyServed s t) ∧
    read (.bundleList r) (plainGate 0x34 0 (r.len == 0) true) (fun c => fragments (c.store.bundles.flatMap fun b =>
      toBe 4 b.no ++ [byte b.kind] ++ toBe 8 b.size ++ slice b.digest 0 16)) ∧
    (r.u8 0 = 0 → r.be 2 2 < entryCount (r.u8 1) →
      read (.protectRead r) (protectGate 9 (r.len == 8 && r.u8 1 ≤ 4) r) fun c => [c.entryRead (r.u8 1) (r.be 2 2)]) ∧
    (r.u8 0 = 0 → read (.thawList r) (plainGate 0x39 12 (r.len == 8) (r.zeros 1 7))
      fun c => fragments (c.sec.frozen.flatMap Frozen.bytes)) ∧
    (r.u8 0 = 0 → read (.attestReport r) (plainGate 0x3A 14 (r.len == 36) (r.zeros 1 3))
      fun c => fragments (report (slice r.payload 4 32) c)) ∧
    (r.u8 0 = 1 → read (.attestKeys r) (plainGate 0x3A 14 (r.len == 4) (r.zeros 1 3))
      fun _ => fragments (slice Config.attestKeys 0 1984 ++ slice Config.attestKeySigs 0 3373)) ∧
    (r.u8 0 = 0 → read (.journalRead r) (plainGate 0x3B 15 (r.len == 16) (r.zeros 1 7))
      fun c => fragments (journalReply (r.be 8 8) c.sec)) ∧
    (r.u8 0 = 0 → r.u8 1 = 0 → read (.powerRead r) (plainGate 0x40 17 (r.len == 4) (r.zeros 2 2))
      fun c => [powerBytes (powerState c) c]) ∧
    (r.u8 0 = 0 → r.zeros 1 3 = true → read (.leeRead r) (leeGate r) fun c => [leeBytes c]) ∧
    (r.u8 0 = 2 → read (.groupStatus r) (plainGate 0x48 20 (r.len == 4) (r.zeros 1 3)) fun c => [memberStates c])

/-- The requests that change the configuration: each that passes its gate and its own checks is staged behind the changes
staged before it, with its request and its deadline, as a change of the group where the lead takes it for its group, and
until it commits nothing of the configuration changes: no parameter, no epoch, no table, no bundle, no memory. [Rests on
R413, R414, R423, R460, R462, R463; what it holds of the model's own choices and readings: log entry 97] -/
def Obligations.ChangesAreStaged : Prop :=
  ∀ (s : State) (r : Req), s.ready → s.ctl.journalFull = false →
    let c := s.ctl
    let staged (grouped : Bool) (ch : Change) (t : State) : Prop :=
      t.ctl.proto.staged = c.proto.staged ++
        [{ change := ch, grouped := grouped, req := some r, at' := c.clk.ns
           deadline := if r.deadline = 0 then c.param 0x0D01 else r.deadline
           number := if grouped = true then c.group.changeNo + 1 else 0 }] ∧
      t.ctl.proto.epoch = c.proto.epoch ∧ t.ctl.params = c.params ∧ sameMem s t ∧ t.ctl.jobs = c.jobs ∧
      t.ctl.store.bundles.map (·.no) = c.store.bundles.map (·.no) ∧ t.ctl.sec.journal = c.sec.journal ∧
      t.ctl.sec.rights = c.sec.rights ∧ t.ctl.sec.peers = c.sec.peers ∧ t.ctl.sec.policy = c.sec.policy ∧ t.ctl.sec.linkKeys = c.sec.linkKeys
    (∀ es res, parseEntries 32 r.payload = some (es, res) →
      let g := plainGate 0x03 2 true res
      served g r c → firstBad (valueAfter (accept g r c) (es.map fun e => (e.1, e.2.2))) 0 es = none →
      frozenEntry (accept g r c) es = none →
      completes (.paramWrite r) s (staged (c.isLead && es.all fun e => !memberSpecific e.1)
        (.params (es.map fun e => (e.1, e.2.2))))) ∧
    (∀ x slot, c.store.transfers.find? (fun t => t.no = r.be 0 4 && !t.staged) = some x → x.size ≤ x.received →
      let g := { plainGate 0x32 (bundleRow (xferKind c (r.be 0 4))) (r.len == 4) true with mode := leeBars c }
      served g r c →
      verifyBundle (accept g r c) x.kind x.size x.digest (if x.kind = 1 then x.data else s.mem.flashBytes x.base x.size) = some slot →
      completes (.bundleCommit r) s fun t => staged c.isLead (.bundleCommit (r.be 0 4)) t ∧
        ∃ y ∈ t.ctl.store.transfers, y.no = x.no ∧ y.staged = true ∧ y.signer = slot) ∧
    ((∃ b ∈ c.store.bundles, b.no = r.be 0 4) →
      served (plainGate 0x33 (bundleRow (((c.store.bundles.find? fun b => b.no = r.be 0 4).map (·.kind)).getD 0)) (r.len == 4) true)
        r c →
      completes (.bundleRemove r) s (staged c.isLead (.bundleRemove (r.be 0 4)))) ∧
    (r.u8 0 = 1 → r.be 2 2 < entryCount (r.u8 1) → entryOk c (r.u8 1) (r.be 2 2) (r.payload.drop 8) = true →
      tightens c (r.u8 1) (r.be 2 2) (r.payload.drop 8) = false →
      served (protectGate 11 (r.u8 1 ≤ 4 && r.len == 8 + entrySize (r.u8 1)) r) r c →
      completes (.protectWrite r) s (staged false (.protect (r.u8 1) (r.be 2 2) (r.payload.drop 8))))

/-- The requests on jobs: an admission makes the job and starts the run of MODE 0; that of a group job waits until every
other member in service has admitted it, and is answered then; a run request makes a run, running or pending behind it; an
abort of a list that is not on the Plane, and an end between runs, take the job away with their reply, and otherwise wait
with the job. [Rests on R147, R406, R407, R409, R419, R440; what it holds of the model's own choices and readings: log
entries 15, 35, 91] -/
def Obligations.JobRequestsTakeEffect : Prop :=
  ∀ (s : State) (r : Req), s.ready →
    let c := s.ctl
    let no := r.be 0 2
    (∀ suspends dead,
      let x := submitOf r suspends dead
      let mode := if c.service.lee = true ∧ leeKeeps c x.bundleNo x.index x.cls = false then KS.leeMode else .ok
      let gs := { plainGate 0x10 4 (r.len == 16) (r.zeros 9 7) with mode := mode }
      ∀ j c', served gs r c → buildJob s.mem x (accept gs r c) = .ok (j, c') → c'.job? j.no = none →
        let same (k : Job) : Prop := k.bundle = j.bundle ∧ k.cmds = j.cmds ∧ k.streams = j.streams ∧ k.handles = j.handles ∧
          k.submitter = j.submitter ∧ k.waiting = j.waiting
        (j.grouped = false ∨ c'.peersUp = [] → c'.proto.sa.getD r.port false = true →
          completes (.jobSubmit r suspends dead) s fun t => replies { s with ctl := c' } t r 0x10 .ok [toBe 2 j.no] ∧
            t.pending = s.pending ∧ withJob t j.no fun k => same k ∧ (j.mode ≠ 0 → k.running = j.running) ∧
              (j.mode = 0 → j.running = none → k.running.isSome = true ∧ k.exec = Exec.start)) ∧
        (j.grouped = true → c'.peersUp ≠ [] →
          completes (.jobSubmit r suspends dead) s fun t => t.pending = s.pending ∧ t.ctl.admitted j.no = none ∧
            withJob t j.no fun k => same k ∧ k.running = j.running ∧ k.admitReq = some r ∧ k.admitLeft = c'.peersUp)) ∧
    (∀ j, c.job? no = some j → c.frozenIn no = false → j.ended = false → j.admitReq = none →
      (served (jobGate 0x11 4 r) r c → j.mode = 1 → j.waiting = none → (j.cls = 0 → galeRoom c = true) →
          (j.grouped = true → c.isLead = true) →
        let run : Run := { seq := j.runSeq, requester := r.peer, startEpoch := if j.grouped = true then c.group.epoch else c.proto.epoch,
                           triggerTime := c.clk.device, readyAt := c.clk.ns }
        completes (.jobRun r) s fun t => replies s t r 0x11 .ok [toBe 4 j.runSeq] ∧ sameMem s t ∧ t.ctl.power.idle = false ∧
          withJob t no fun k => k.runSeq = j.runSeq + 1 ∧
            (j.running = none → k.running = some run ∧ k.exec = j.exec.afresh) ∧
            (∀ x, j.running = some x → k.running = some x ∧ k.waiting = some run ∧ k.exec = j.exec)) ∧
      (served (jobGate 0x12 5 r) r c → j.abortReq = none →
        (c.plane.holder ≠ some no →
          completes (.jobAbort r) s fun t => replies s t r 0x12 .aborted [[]] ∧ endedJob t no) ∧
        (c.plane.holder = some no →
          completes (.jobAbort r) s fun t => sameMem s t ∧ t.ctl.plane = c.plane ∧ withJob t no fun k => k = { j with abortReq := some r })) ∧
      (served (jobGate 0x13 5 r) r c → j.endReq = none →
        (j.running = none → completes (.jobEnd r) s fun t => replies s t r 0x13 .ok [[]] ∧ endedJob t no) ∧
        (j.running.isSome = true →
          completes (.jobEnd r) s fun t => sameMem s t ∧ t.ctl.plane = c.plane ∧ withJob t no fun k => k = { j with endReq := some r })))

/-- Slot transfers: a SLOT_WRITE whose first packet is its last writes its bytes and no others, and sets the slot full where
it asks to; the first of several leaves a transfer that the next continues in order, up to the one marked LAST, which is
answered; a fragment out of order, or for another slot, ends the transfer with KS_BAD_SEQUENCE and leaves its slot VOIDED. A
SLOT_READ answers the bytes and empties the part that it names where it asks to; a transfer that has waited longer than
PRO_XFER_TIMEOUT leaves its slot VOIDED, where it is not full already. [Rests on R257, R403, R408; what it holds of the
model's own choices and readings: log entries 92, 117] -/
def Obligations.SlotTransfersMoveBytes : Prop :=
  ∀ (s : State) (r : Req), s.ready →
    let c := s.ctl
    let off := r.be 8 4
    let key (h : Handle) (tile slot : Nat) : Nat := h.slotKey tile slot
    (∀ j h tile slot, slotTarget c r = .ok (j, h, tile, slot) → off % 32 = 0 →
      (xferOf c r = none → c.fragmentWaits r = false → off + (r.len - 16) ≤ h.slotBytes → c.slotFull (key h tile slot) = false →
        served { plainGate 0x18 6 (16 ≤ r.len && r.len ≤ 16 + 1376) (r.be 12 4 / 2 == 0) with job := some (r.be 0 2) } r c →
        (bit r.flags 2 = true → completes (.slotWrite r) s fun t => replies s t r 0x18 .ok [[]] ∧
          t.mem = s.mem.apply (runWrite s.mem (h.addr tile (slot * h.slotBytes + off)) (r.payload.drop 16) 0 false) ∧
          t.ctl.slotFull (key h tile slot) = bit (r.be 12 4) 0 ∧
          (∀ k, k ≠ key h tile slot → t.ctl.slotFull k = c.slotFull k) ∧ t.ctl.proto.xfers = c.proto.xfers) ∧
        (bit r.flags 2 = false → completes (.slotWrite r) s fun t =>
          t.mem = s.mem.apply (runWrite s.mem (h.addr tile (slot * h.slotBytes + off)) (r.payload.drop 16) 0 false) ∧
          t.ctl.slotTags = c.slotTags ∧
          t.ctl.proto.xfers = c.proto.xfers ++ [{
            jobNo := j.no, handle := r.u8 2, tile := tile, slot := slot, source := r.peer
            reqId := r.reqId, nextOffset := off + (r.len - 16), at' := c.clk.ns }])) ∧
      (c.resultOut j.bundle = true → off + r.be 12 4 % 2 ^ 24 ≤ h.slotBytes → c.handleFull h slot = true →
        served { plainGate 0x19 6 (r.len == 16) (r.be 12 4 / 2 ^ 25 == 0) with job := some (r.be 0 2) } r c →
        completes (.slotRead r) s fun t =>
          replies s t r 0x19 .ok (slotFragments r (s.mem.bytesAt (h.addr tile (slot * h.slotBytes + off)) (r.be 12 4 % 2 ^ 24))) ∧
          sameMem s t ∧ (bit (r.be 12 4) 24 = true → t.ctl.slotFull (key h tile slot) = false) ∧
          (bit (r.be 12 4) 24 = false → t.ctl.slotTags = c.slotTags) ∧
          (∀ k, k ≠ key h tile slot → t.ctl.slotFull k = c.slotFull k))) ∧
    (∀ x, xferOf c r = some x → (∀ q, c.cached r = some q → q.code ≠ 0x18 ∨ q.holds r = false) →
      served { plainGate 0x18 6 (16 ≤ r.len && r.len ≤ 16 + 1376) (r.be 12 4 / 2 == 0) with
        job := some (r.be 0 2), fragment := true } r c →
      let left := c.proto.xfers.filter (· ≠ x)
      (∀ j h, slotTarget c r = .ok (j, h, x.tile, x.slot) → j.no = x.jobNo → r.u8 2 = x.handle → off = x.nextOffset →
        off + (r.len - 16) ≤ h.slotBytes → c.slotFull (key h x.tile x.slot) = false →
        let mem := s.mem.apply (runWrite s.mem (h.addr x.tile (x.slot * h.slotBytes + off)) (r.payload.drop 16) 0 false)
        (bit r.flags 2 = true → completes (.slotWrite r) s fun t => replies s t r 0x18 .ok [[]] ∧ t.mem = mem ∧
          t.ctl.proto.xfers = left ∧ t.ctl.slotFull (key h x.tile x.slot) = bit (r.be 12 4) 0 ∧
          ∀ k, k ≠ key h x.tile x.slot → t.ctl.slotFull k = c.slotFull k) ∧
        (bit r.flags 2 = false → completes (.slotWrite r) s fun t => t.mem = mem ∧ t.ctl.slotTags = c.slotTags ∧
          t.ctl.proto.xfers = left ++ [{
            jobNo := j.no, handle := x.handle, tile := x.tile, slot := x.slot, source := r.peer
            reqId := r.reqId, nextOffset := off + (r.len - 16), at' := c.clk.ns }])) ∧
      (∀ j h tile slot, slotTarget c r = .ok (j, h, tile, slot) →
        (j.no ≠ x.jobNo ∨ r.u8 2 ≠ x.handle ∨ tile ≠ x.tile ∨ slot ≠ x.slot ∨ off ≠ x.nextOffset) →
        completes (.slotWrite r) s fun t => replies s t r 0x18 .badSequence [[]] ∧ sameMem s t ∧ t.ctl.proto.xfers = left ∧
          ∀ y e, c.job? x.jobNo = some y → y.handle? x.handle = some e →
            t.ctl.slotFull (key e x.tile x.slot) = true ∧
            (c.slotFull (key e x.tile x.slot) = false → t.ctl.slotVoided (key e x.tile x.slot) = true))) ∧
    (∀ x j h, c.proto.xfers.find? (fun y => y.jobNo = x.jobNo && y.handle = x.handle && y.tile = x.tile && y.slot = x.slot) = some x →
      c.job? x.jobNo = some j → j.handle? x.handle = some h →
      (c.clk.ns ≤ x.at' + 1000000 * c.param 0x0D02 → exec (.hostXferTimeout x.jobNo x.handle x.tile x.slot) s = .next s) ∧
      (x.at' + 1000000 * c.param 0x0D02 < c.clk.ns →
        completes (.hostXferTimeout x.jobNo x.handle x.tile x.slot) s fun t => sameMem s t ∧
          t.ctl.proto.xfers = c.proto.xfers.filter (· ≠ x) ∧ t.ctl.slotFull (key h x.tile x.slot) = true ∧
          (c.slotFull (key h x.tile x.slot) = false → t.ctl.slotVoided (key h x.tile x.slot) = true) ∧
          (c.slotFull (key h x.tile x.slot) = true → t.ctl.slotTags = c.slotTags)))

/-- Bundle transfers: a BUNDLE_BEGIN that fits reserves its range, which reads as zero with its parity; BUNDLE_DATA in
sequence programs its bytes; a transfer idle for 60 s, and none before, is abandoned and its blocks go to erasure at the next
wake. [Rests on R360, R361, R423; what it holds of the model's own choices and readings: log entries 7, 16, 17] -/
def Obligations.BundleTransfersStepByStep : Prop :=
  ∀ (s : State) (r : Req), s.ready →
    let c := s.ctl
    let size := r.be 4 8
    (∀ base, r.u8 0 < 2 →
      (r.u8 0 = 1 → size ≤ 0x8000000 ∧ base = 0) →
      (r.u8 0 = 0 → flashFits c size = true ∧ freeAperture c size = some base) →
      served { plainGate 0x30 (bundleRow (r.u8 0)) (r.len == 76) (r.zeros 1 3) with mode := leeBars c } r c →
      completes (.bundleBegin r) s fun t => replies s t r 0x30 .ok [toBe 4 c.store.nextBundle] ∧
        t.ctl.store.nextBundle = c.store.nextBundle + 1 ∧
        t.ctl.store.transfers = c.store.transfers ++ [{
          no := c.store.nextBundle, kind := r.u8 0, size := size
          digest := slice r.payload 12 64, base := base, received := 0, data := [], staged := false, signer := 0, svn := 0
          at' := c.clk.ns }] ∧
        t.ctl.store.bundles = c.store.bundles ∧
        (r.u8 0 = 1 → t.mem = s.mem) ∧
        (r.u8 0 = 0 → let p := parityRange base (alignUp size 0x200000)
          ∀ a, t.mem.byteAt a =
            if base ≤ a ∧ a < base + alignUp size 0x200000 ∨ p.1 ≤ a ∧ a < p.1 + p.2 then 0 else s.mem.byteAt a)) ∧
    (∀ x failing, c.store.transfers.find? (fun t => t.no = r.be 0 4 && !t.staged) = some x → size = x.received →
      size + (r.len - 12) ≤ x.size →
      served { plainGate 0x31 (bundleRow (xferKind c (r.be 0 4))) (12 < r.len && r.len ≤ 12 + 1376) true with mode := leeBars c } r c →
      completes (.bundleData r failing) s fun t => replies s t r 0x31 .ok [[]] ∧
        (∃ y ∈ t.ctl.store.transfers, y.no = x.no ∧ y.received = size + (r.len - 12)) ∧
        t.ctl.store.bundles = c.store.bundles ∧
        (x.kind = 1 → t.mem = s.mem) ∧
        (x.kind = 0 → ∀ a, t.mem.byteAt a =
          if x.base + size ≤ a ∧ a < x.base + size + (r.len - 12) then r.payload.getD (12 + (a - (x.base + size))) 0 else s.mem.byteAt a)) ∧
    (∀ no x, c.store.transfers.find? (fun t => t.no = no && !t.staged) = some x →
      (c.clk.ns < x.at' + 60000000000 → exec (.bundleIdleTimeout no) s = .next s) ∧
      (x.at' + 60000000000 ≤ c.clk.ns → completes (.bundleIdleTimeout no) s fun t => sameMem s t ∧
        t.ctl.store.transfers = c.store.transfers.filter (fun y => y.no ≠ no) ∧ t.ctl.store.bundles = c.store.bundles ∧
        (x.kind = 0 → ∀ k ∈ bundleBlocks x.base x.size, c.blockOf k ∈ t.ctl.store.eraseAtWake)))

/-- COUNTER_CLEAR clears every counter of its block and no other's but those that serving it counts; THAW lists the object no
more and writes its entry; a trim drops the entries up to its SEQ, writes its own, and the anchor is the hash of the last one
dropped. [Rests on R471, R474, R476, R515; what it holds of the model's own choices and readings: log entry 101] -/
def Obligations.ClearThawAndTrim : Prop :=
  ∀ (s : State) (r : Req), s.ready →
    let c := s.ctl
    (r.u8 0 < 13 → served (plainGate 0x05 3 (r.len == 4) (r.zeros 1 3)) r c →
      completes (.counterClear r) s fun t => replies s t r 0x05 .ok [[]] ∧ sameMem s t ∧
        (∀ (k : Cnt) (i : Nat), k.info.1 = r.u8 0 → k ≠ .proTx →
          k ∉ [Cnt.svcServiceEvent, .svcOverflow] ∨ (∀ p, c.counter .proTx p < cntMax - 64) → t.ctl.counter k i = 0) ∧
        (∀ (k : Cnt) (i : Nat), k.info.1 ≠ r.u8 0 → k ∉ [.proTx, .proRx, .svcServiceEvent, .svcOverflow] →
          t.ctl.counter k i = c.counter k i)) ∧
    (∀ f, c.sec.frozen.find? (fun f => f.id = r.be 4 4) = some f → r.u8 0 = 1 →
      served (plainGate 0x39 (if f.kind ≤ 4 then 12 else 13) (r.len == 8) (r.zeros 1 3)) r c →
      completes (.thaw r) s fun t => replies s t r 0x39 .ok [[]] ∧ sameMem s t ∧
        t.ctl.sec.frozen = c.sec.frozen.filter (fun g => g.id ≠ f.id) ∧ t.ctl.sec.head = c.sec.head + 1 ∧
        (f.kind = 6 → f.tile < c.tiles.length → (t.ctl.tile f.tile).testing = true) ∧
        (f.kind = 5 → (t.ctl.intake f.ctx).frozen = false) ∧
        (f.kind = 4 → ∀ k ∈ (t.ctl.port f.ctx).frozen, k.1 ≠ f.job)) ∧
    (r.u8 0 = 1 → r.be 8 8 < c.sec.head → c.sec.journal.length < journalSize →
      served (plainGate 0x3B 16 (r.len == 16) (r.zeros 1 7)) r c →
      completes (.journalTrim r) s fun t => replies s t r 0x3B .ok [[]] ∧ sameMem s t ∧ t.ctl.sec.head = c.sec.head + 1 ∧
        (∃ e, t.ctl.sec.journal = (c.sec.journal.filter fun x => r.be 8 8 < x.seq) ++ [e] ∧ e.seq = c.sec.head + 1 ∧
          e.kind = 10 ∧ e.role = r.role ∧ e.reqId = r.reqId) ∧
        t.ctl.sec.anchor = (match (c.sec.journal.filter fun x => x.seq ≤ r.be 8 8).getLast? with
          | some e => hash e.bytes | none => c.sec.anchor))

/-- Protection takes effect: a tightening as it is accepted, with a boundary of its own, and staged loosenings of an entry
that it changes are dropped; a claim installs its key and its link keys and ends both associations; a release puts every
table back to its Reset contents and removes every model bundle. [Rests on R416, R462, R463, R464, R465, R467, R474; what it
holds of the model's own choices and readings: log entry 100] -/
def Obligations.ProtectionTakesEffect : Prop :=
  ∀ (s : State) (r : Req), s.ready →
    let c := s.ctl
    let table := r.u8 1
    let index := r.be 2 2
    let e := r.payload.drop 8
    let bounded (t : State) : Prop := t.ctl.proto.epoch = c.proto.epoch + 1 ∧ t.ctl.sec.head = c.sec.head + 1
    (r.u8 0 = 1 → index < entryCount table → entryOk c table index e = true → tightens c table index e = true →
      c.sec.keys.length = 16 → c.sec.rights.length = 21 → c.sec.peers.length = 16 → c.sec.policy.length = 32 →
      served (protectGate (if 1 ≤ table ∧ table ≤ 3 then 10 else 11) (table ≤ 4 && r.len == 8 + entrySize table) r) r c →
      completes (.protectWrite r) s fun t => bounded t ∧
        replies s t r 0x38 .ok [[0, 0, 0, 0] ++ toBe 8 (c.proto.epoch + 1)] ∧
        (1 ≤ table ∧ table ≤ 3 → t.ctl.entry table index = slice e 0 (entrySize table)) ∧
        (table = 0 → slice (t.ctl.entry 0 index) 0 104 = slice e 0 104) ∧
        ((if table = 0 then slice (c.entry 0 index) 0 104 ≠ slice e 0 104 else c.entry table index ≠ slice e 0 (entrySize table)) →
          ∀ x ∈ t.ctl.proto.staged, ∀ e', x.change ≠ .protect table index e')) ∧
    (r.u8 0 = 2 → c.sec.keys.length = 16 → c.sec.linkKeys.length = 3 → c.journalFull = false →
      entryOk c 0 0 (slice r.payload 8 128) = true → keyRole (slice r.payload 8 128) = 2 →
      bit (keyUse (slice r.payload 8 128)) 0 = true → bit (keyUse (slice r.payload 8 128)) 1 = true →
      passes (protectGate 11 (r.len == 8 + 128 + 64 + 64) r) (claimTrust c r) r c = true →
      completes (.protectClaim r) s fun t => bounded t ∧ replies s t r 0x38 .ok [toBe 8 (c.proto.epoch + 1)] ∧
        t.ctl.sec.claimed = true ∧ t.ctl.key 0 = setKeyCounter r.trailer.counter (slice r.payload 8 128) ∧
        t.ctl.sec.linkKeys = [slice r.payload 136 64, slice r.payload 200 64, c.sec.linkKeys.getD 2 []] ∧
        t.ctl.proto.sa.getD 0 false = false ∧ t.ctl.proto.sa.getD 1 false = false) ∧
    (r.u8 0 = 3 → served (protectGate 11 (r.len == 8) r) r c →
      completes (.protectRelease r) s fun t => bounded t ∧ replies s t r 0x38 .ok [toBe 8 (c.proto.epoch + 1)] ∧
        t.ctl.sec.claimed = false ∧ t.ctl.sec.keys = Sec.reset.keys ∧ t.ctl.sec.rights = Sec.rightsReset ∧
        t.ctl.sec.peers = Sec.reset.peers ∧ t.ctl.sec.policy = Sec.reset.policy ∧ t.ctl.sec.linkKeys = Sec.reset.linkKeys ∧
        t.ctl.store.bundles = c.store.bundles.filter (fun b => b.kind ≠ 0) ∧
        t.ctl.proto.sa.getD 0 false = false ∧ t.ctl.proto.sa.getD 1 false = false)

/-- The requests of power and Lee mode: an ENTER with something left to drain waits with it and stops the contexts; one with
nothing left to drain replies at once; a RESET replies and resets; LEE ENTER sets cause 4 and enters the mode; LEE LEAVE
clears cause 4 and leaves the mode where no other cause is left. [Rests on R482, R483, R495, R506, R507, R510, R512; what it
holds of the model's own choices and readings: log entries 56, 65, 70] -/
def Obligations.PowerAndLeeRequests : Prop :=
  ∀ (s : State) (r : Req), s.ready →
    let c := s.ctl
    let target := r.u8 1
    let ge := { plainGate 0x40 17 (r.len == 4) (r.zeros 2 2) with mode := if target = 2 ∧ c.service.lee = true then KS.leeMode else .ok }
    (r.u8 0 = 1 → 2 ≤ target → target ≤ 4 → c.power.stage = .on → served ge r c →
      ((∃ j ∈ c.jobs, j.running.isSome = true ∧ j.ended = false) →
        completes (.powerEnter r) s fun t => sameMem s t ∧ t.ctl.power.stage = .entering ∧ t.ctl.power.target = target ∧
          t.ctl.power.enterReq = some r ∧ t.ctl.power.ended = 0 ∧ t.ctl.power.idle = false ∧ t.ctl.jobs = c.jobs ∧
          (∀ n < 64, (c.intake n).on = true → (t.ctl.intake n).held = true)) ∧
      ((∀ j ∈ c.jobs, j.running = none) →
          (∀ n < 64, (c.intake n).busy = false ∧ (c.intake n).dropping = false ∧ (c.intake n).ended = []) →
        completes (.powerEnter r) s fun t => t.ctl.power.stage = .powerDown ∧ t.ctl.power.target = target ∧
          t.ctl.power.enterReq = none ∧
          replies s t r 0x40 .ok [[byte target, byte c.power.opNow, 0, 0] ++ toBe 4 0] ∧
          (target ≠ 2 → ∀ j ∈ c.jobs, ∀ k, t.ctl.job? j.no = some k → k.ended = true) ∧ (target = 2 → t.ctl.jobs = c.jobs))) ∧
    (r.u8 0 = 2 → target = 0 → served (plainGate 0x40 17 (r.len == 4) (r.zeros 2 2)) r c →
      completes (.powerReset r) s fun t => t.ctl.power.resetCause = 2 ^ 5 ∧ t.ctl.power.wakeCause = 5 ∧ t.ctl.jobs = [] ∧
        t.ctl.params = c.params ∧ t.ctl.proto.epoch = c.proto.epoch ∧ t.ctl.store.bundles = c.store.bundles ∧
        (∀ st < 17, ∀ a, storeOf a = some st → t.mem.byteAt a = 0) ∧
        (∀ a, a < hbmEnd → t.mem.byteAt a = s.mem.byteAt a) ∧
        replies s t r 0x40 .ok [powerBytes (powerState c) c]) ∧
    (r.zeros 1 3 = true → served (leeGate r) r c →
      (r.u8 0 = 1 → c.service.lee = false → c.power.stage = .on →
        completes (.leeEnter r) s fun t => t.ctl.service.lee = true ∧ bit t.ctl.service.leeCause 4 = true ∧
          t.ctl.power.opNow = 2 ∧ t.ctl.pins.portsOff = true ∧ (t.ctl.pins.padHold = false → t.ctl.pins.leeN = false) ∧
          (∀ j ∈ c.jobs, leeKeeps c j.bundle j.index j.cls = false → ∀ k, t.ctl.job? j.no = some k → k.ended = true) ∧
          replies s t r 0x41 .ok [[1, byte t.ctl.service.leeCause, 0, 0]]) ∧
      (r.u8 0 = 2 → c.service.lee = true → c.service.leeCause = 16 → c.power.stage = .on →
        ∀ found, completes (.leeLeave r found) s fun t => t.ctl.service.lee = false ∧ t.ctl.service.leeCause = 0 ∧ t.ctl.pins.portsOff = false ∧
          (t.ctl.pins.padHold = false → t.ctl.pins.leeN = true) ∧ replies s t r 0x41 .ok [[0, 0, 0, 0]]) ∧
      (r.u8 0 = 2 → c.service.lee = true → bit c.service.leeCause 4 = true → c.service.leeCause ≠ 16 →
        ∀ found, completes (.leeLeave r found) s fun t => sameMem s t ∧ t.ctl.service.lee = true ∧
          t.ctl.service.leeCause = c.service.leeCause - 16 ∧
          replies s t r 0x41 .badValue [[1, byte (c.service.leeCause - 16), 0, 0]]))

/-- Formation gives every member the state of Table 14.4: 0xFF where it is not expected, 4 where it is not reachable, 1 where
a check of firmware, bundles or configuration fails anywhere and it answered, and else 3, 2 or 0 by its group epoch and its
time offset. With two members in service, this one among them, the group is formed and the lowest of them leads;
KS_GROUP_HELD answers where one is held out or too few serve, KS_GROUP_MISMATCH where a check failed; the holdings out are
counted. Leaving a group ends its jobs. [Rests on R436, R437, R438, R445, R446; what it holds of the model's own choices and
readings: log entries 38, 39] -/
def Obligations.GroupsFormAndDissolve : Prop :=
  ∀ (s : State) (r : Req) (found : List MemberReport), s.ready →
    let c := s.ctl
    let own := c.group.epoch
    let expected (k : Nat) : Prop := bit (c.param 0x0E01) k = true
    let heard (k : Nat) (x : MemberReport) : Prop := found.find? (fun y => y.member = k) = some x ∧ x.reachable = true
    let top := topEpoch c found
    let me := ownReport c
    let agrees (x : MemberReport) : Prop := ∀ y, y.groupEpoch = x.groupEpoch → y.config ≠ x.config →
      y ≠ me ∧ ¬∃ i < 4, expected i ∧ i ≠ c.member ∧ heard i y
    let fails (k : Nat) : Prop := expected k ∧ k ≠ c.member ∧ ∃ x, heard k x ∧
      (x.firmware ≠ me.firmware ∨ x.bundles ≠ me.bundles ∨ (top ≤ x.groupEpoch ∧ ¬agrees x))
    let sts := (formStates c found).1
    let serving := (List.range 4).filter fun k => sts.getD k 0xFF = 0
    let formed : Prop := 2 ≤ serving.length ∧ c.member ∈ serving
    (own ≤ top ∧ ∀ k x, k < 4 → k ≠ c.member → expected k → heard k x → x.groupEpoch ≤ top) ∧
    (sts.length = 4 ∧ ∀ k, k < 4 →
      (¬expected k → sts.getD k 0 = 0xFF) ∧
      (expected k → k ≠ c.member → (¬∃ x, heard k x) → sts.getD k 0 = 4) ∧
      (expected k → (∃ i, i < 4 ∧ fails i) → (k = c.member ∨ ∃ x, heard k x) → sts.getD k 0 = 1) ∧
      ((¬∃ i, i < 4 ∧ fails i) → expected k →
        (k = c.member → sts.getD k 0 = if own < top then 3 else 0) ∧
        (∀ x, k ≠ c.member → heard k x →
          sts.getD k 0 = if x.groupEpoch < top then 3 else if 1000 < x.offset.natAbs then 2 else 0))) ∧
    (r.u8 0 = 0 → served { plainGate 0x48 19 (r.len == 4) (r.zeros 1 3) with mode := leeBars c } r c →
      (c.member < 4 → expected c.member →
        completes (.groupForm r found) s fun t => t.ctl.group.state = sts ∧
          t.ctl.group.lead = (if 2 ≤ serving.length then serving.headD 0xFF else 0xFF) ∧
          (t.ctl.group.formed = true ↔ formed) ∧ (formed → t.ctl.group.epoch = max 1 own) ∧ (¬formed → t.ctl.group.epoch = own) ∧
          counted .xwHoldOut 0 (sts.countP fun x => x == 2 || x == 3) s t ∧
          (formed → replies s t r 0x48 (if (∃ x ∈ sts, x = 2 ∨ x = 3) then .groupHeld else .ok) [sts.map byte]) ∧
          (¬formed → replies s t r 0x48 (if 1 ∈ sts then .groupMismatch else .groupHeld) [sts.map byte])) ∧
      (4 ≤ c.member ∨ ¬expected c.member →
        completes (.groupForm r found) s fun t => sameMem s t ∧ t.ctl.group = c.group ∧
          replies s t r 0x48 .groupHeld [memberStates c])) ∧
    (r.u8 0 = 1 → served (plainGate 0x48 19 (r.len == 4) (r.zeros 1 3)) r c →
      completes (.groupLeave r) s fun t => t.ctl.group.formed = false ∧ t.ctl.group.lead = 0xFF ∧
        t.ctl.group.state = c.group.state.map (fun _ => 0xFF) ∧ t.ctl.group.epoch = own ∧
        (∀ j, c.job? j.no = some j → j.grouped = true → j.ended = false → ∀ k, t.ctl.job? j.no = some k → k.ended = true) ∧
        replies s t r 0x48 .ok [List.replicate 4 0xFF])

/-! ### Commits and deadlines (13, 12, 16) -/

/-- The first staged change commits now: commands are accepted, an entry of the journal is free, its conditions hold, its deadline, where
it has one here, has not passed; and a change of the group commits at a member when its lead says so, and at the lead when every
other member in service has said that it can (R413, R438, R474). -/
def commitsNow (c : Ctl) (x : Staged) : Prop :=
  c.accepting = true ∧ c.sec.journal.length < journalSize ∧ changeReady c x.change = true ∧ (c.clk.ns ≤ x.due ∨ c.timed x = false) ∧
    (x.grouped = true → c.group.formed = true →
      (c.follows = true → c.group.go = x.number) ∧
      (c.isLead = true → ∀ k ∈ c.peersUp, SMap.get 0 c.group.agreed k = x.number))

/-- The first staged change commits whole, in staging order, when its conditions hold and its deadline has not passed: the
epoch rises by one, and the group epoch with it for a change of the group; the journal gains an entry, its parameters take
their values, its bundle is installed or removed, its request is answered. Else nothing happens, but that a member tells its
lead that it can commit a change of the group, and commits it only when the lead says so; the lead waits for every member in
service. [Rests on R413, R414, R415, R417, R438, R474, R475; what it holds of the model's own choices and readings: log
entries 36, 130, 131, 133] -/
def Obligations.CommitsInStagingOrder : Prop :=
  ∀ (s : State) (x : Staged) (rest : List Staged), s.ready → s.ctl.proto.staged = x :: rest →
    let c := s.ctl
    (c.accepting = false ∨ journalSize ≤ c.sec.journal.length ∨ changeReady c x.change = false ∨
      (x.due < c.clk.ns ∧ c.timed x = true) → exec .epochCommit s = .next s) ∧
    (¬commitsNow c x → completes .epochCommit s fun t => sameMem s t ∧ t.ctl.proto.staged = c.proto.staged ∧
      t.ctl.proto.epoch = c.proto.epoch ∧ t.ctl.params = c.params ∧ t.ctl.sec = c.sec ∧ t.ctl.group.epoch = c.group.epoch ∧
      t.ctl.store = c.store ∧ t.ctl.jobs = c.jobs ∧
      (t.ctl ≠ c → c.follows = true ∧ x.grouped = true ∧ SMap.get 0 t.ctl.group.agreed c.member = x.number)) ∧
    (commitsNow c x →
      completes .epochCommit s fun t =>
        ((∀ es, x.change = .params es → ∀ e ∈ es, e.1 ≠ 0x0E00) → t.ctl.proto.staged = rest.filter (· ≠ x)) ∧
        (∀ y ∈ t.ctl.proto.staged, y ∈ rest) ∧
        t.ctl.proto.epoch = c.proto.epoch + 1 ∧ t.ctl.sec.head = c.sec.head + 1 ∧
        t.pending = s.pending ∧
        (∀ es, x.change = .params es → ∀ id, t.ctl.param id = (es.foldl (fun c e => c.setParam e.1 e.2) c).param id) ∧
        t.ctl.group.epoch = (if x.grouped = true then c.group.epoch + 1 else c.group.epoch) ∧
        ((∀ es, x.change ≠ .params es) → t.ctl.params = c.params) ∧
        (∀ no y, x.change = .bundleCommit no → c.store.transfers.find? (fun y => y.no = no) = some y →
          ∃ b, t.ctl.store.bundles =
              (c.store.bundles.filter fun z => y.kind ≠ 1 ∨ z.no ∉ c.imagesIn (1 - c.sec.bootSlot)) ++ [b] ∧ b.no = y.no ∧ b.kind = y.kind ∧ b.base = y.base ∧ b.size = y.size ∧
            b.digest = y.digest) ∧
        (∀ no, x.change = .bundleRemove no → t.ctl.store.bundles = c.store.bundles.filter fun b => b.no ≠ no) ∧
        (∀ r, x.req = some r → c.proto.sa.getD r.port false = true →
          replies s t r (replyKind x.change) .ok [changeReply c t.ctl true x.change]))

/-- What the commits of intake contexts and of the operating point do beyond the parameter: an enable starts the context at
slot 0 with its counts at 0, or lets a frame go on that a stop had still to end, and its scale slot is full; a disable takes
effect between frames and else waits for the frame; a forced one ends at once what is in progress, its slots and those that
await their relay VOIDED and counted; PWR_OP begins a change of point. A deadline that passes drops its change whole, and
none before. [Rests on R369, R388, R389, R413, R493; what it holds of the model's own choices and readings: log entries 95,
96] -/
def Obligations.StreamPointAndDeadline : Prop :=
  ∀ (s : State) (x : Staged) (rest : List Staged), s.ready → s.ctl.proto.staged = x :: rest →
    let c := s.ctl
    (∀ n v, n < 64 → x.change = .params [(0x0C00 + n, v)] → commitsNow c x →
      let kept (v : Nat) : Option Nat :=
        if (c.intake n).still = true ∨ streamLayout v = streamLayout (c.param (0x0C00 + n)) then (c.intake n).layout
        else some ((c.intake n).layout.getD (c.param (0x0C00 + n)))
      (bit v 0 = true → bit (c.param (0x0C00 + n)) 0 = false →
        completes (.streamEnable n) s fun t => t.ctl.param (0x0C00 + n) = v ∧ t.ctl.proto.epoch = c.proto.epoch + 1 ∧
          (t.ctl.intake n = if (c.intake n).busy = true ∨ (c.intake n).dropping = true then
              { c.intake n with on := true, stopping := false, held := false }
            else { Intake.off with
              on := true, frozen := (c.intake n).frozen, ended := (c.intake n).ended, landed := (c.intake n).landed
              dropped := (c.intake n).dropped, layout := (c.intake n).layout }) ∧
          let k := intakeCfg v
          ((c.intake n).layout = none → k.fmt = 0 → k.scaleWords ≠ 0 → ∀ y ∈ landKeys k k.slots, t.ctl.slotFull y = true)) ∧
      (bit v 0 = false → bit v 1 = false → bit (c.param (0x0C00 + n)) 0 = true →
        completes (.streamDisable n) s fun t => t.ctl.param (0x0C00 + n) = v ∧ t.ctl.proto.epoch = c.proto.epoch + 1 ∧ sameMem s t ∧
          (t.ctl.intake n = if (c.intake n).busy = true ∨ (c.intake n).dropping = true then
              { c.intake n with stopping := true, stopAt := c.clk.ns, layout := kept v }
            else { c.intake n with on := false, stopping := false, layout := kept v })) ∧
      (bit v 0 = false → bit v 1 = true → forcible c n = true →
        completes (.streamForcedDisable n) s fun t => t.ctl.param (0x0C00 + n) = v ∧ t.ctl.proto.epoch = c.proto.epoch + 1 ∧
          (t.ctl.intake n).on = false ∧ (t.ctl.intake n).busy = false ∧ (t.ctl.intake n).ended = [] ∧
          counted .intForcedSlot n (forcedSlots c n) s t ∧
          (∀ sl, ((c.intake n).busy = true ∧ sl = (c.intake n).next) ∨ (∃ f ∈ (c.intake n).ended, f.slot = sl) ∨ sl ∈ awaitRelay c n →
            ∀ k ∈ landKeys (c.cfg n) sl, t.ctl.slotFull k = true ∧ t.ctl.slotVoided k = true))) ∧
    (∀ v, x.change = .params [(0x1001, v)] → c.service.lee = false → commitsNow c x →
      let point := if c.power.throttle = 0 then v else max v (c.power.opNext.getD c.power.opNow)
      completes .operatingPointChange s fun t => sameMem s t ∧ t.ctl.param 0x1001 = v ∧ t.ctl.proto.epoch = c.proto.epoch + 1 ∧
        t.ctl.power.opNow = c.power.opNow ∧ t.ctl.power.opNext = if point = c.power.opNow then none else some point) ∧
    ((c.accepting = false ∨ ∀ y ∈ x :: rest, c.timed y = true → c.clk.ns < y.due) → exec .commitDeadline s = .next s) ∧
    (c.accepting = true → c.timed x = true → (∀ y ∈ x :: rest, c.timed y = true → x.due ≤ y.due) → x.due ≤ c.clk.ns →
      completes .commitDeadline s fun t => sameMem s t ∧ t.ctl.proto.staged = rest.filter (fun y => y ≠ x) ∧
        t.ctl.proto.epoch = c.proto.epoch ∧ t.ctl.params = c.params ∧ t.ctl.sec.journal = c.sec.journal ∧
        t.ctl.store.bundles = c.store.bundles ∧ counted .svcNotApplied 0 1 s t ∧
        (∀ r, x.req = some r → c.proto.sa.getD r.port false = true →
          replies s t r (replyKind x.change) .notApplied [changeReply c t.ctl false x.change]))

/-! ### The command ports below the requests (13) -/

/-- Associations, links and answers below the requests: a new association starts its packet numbers anew, and moves the
traffic of a link that is up to port 0; a link that goes down or comes up moves unsolicited traffic to port 0 where it is up,
else to port 1, and the move is counted; an address or echo request for an address of the port is answered; what is no
request is discarded or refused, and nothing else changes. [Rests on R393, R394, R395, R396, R399, R400; what it holds of the
model's own choices and readings: log entries 27, 54, 129] -/
def Obligations.LinkEventsAndAnswers : Prop :=
  ∀ (s : State) (port : Nat), s.ready → port < 2 →
    let c := s.ctl
    let links (l : List Bool) (p : Proto) : Proto :=
      { p with linkUp := l, active := if l.getD 0 false = true then 0 else 1, slavePort := slaveOf (c.param 0x0D06) l }
    let joined (p : Proto) : Proto := { p with sa := p.sa.set port true, txPn := p.txPn.set port 0, rxPn := p.rxPn.set port 0 }
    let sendsOnly (i : Instr) (p : Packet) : Prop :=
      completes i s fun t => t.ctl.proto.sent = c.proto.sent ++ [p] ∧ t.ctl.quiet = c.quiet ∧ sameMem s t
    (c.portsRun = true → c.proto.sa.getD port false = true →
      exec (.mkaSaReplace port) s = .next (s.withCtl { c with proto := joined c.proto })) ∧
    (c.portsRun = true → c.proto.sa.getD port false = false →
      let moves : Prop := c.proto.linkUp.getD c.proto.active false = true ∧ port = 0 ∧ c.proto.active ≠ 0
      reaches (.mkaSecureAssociation port) s { c with
        proto := links (c.proto.linkUp.set port true) (joined c.proto)
        power := { c.power with mkaRestart := c.power.mkaRestart.filter (· ≠ port) } } ∧
      (moves → c.proto.linkUp.length = 2 → completes (.mkaSecureAssociation port) s (counted .proFailover 0 1 s)) ∧
      (c.proto.linkUp.getD c.proto.active false = false → completes (.mkaSecureAssociation port) s (counted .proFailover 0 0 s))) ∧
    (∀ up, c.portsRun = true → c.proto.linkUp.getD port false ≠ up →
      reaches (.portFailover port up) s { c with proto := links (c.proto.linkUp.set port up) c.proto } ∧
      completes (.portFailover port up) s fun t => t.ctl.proto.active ≠ c.proto.active → counted .proFailover 0 1 s t) ∧
    (∀ (v6 : Bool) (target sender : Nat), c.portsRun = true → c.proto.sa.getD port false = true →
      (if v6 then ownV6 c port else ownV4 c port) = some target →
      sendsOnly (.addressResolutionRequest port v6 target sender)
        { dst := { port := port, addr := sender, udp := 0 }, src := portAddr c port sender, srcUdp := 0
          kind := if v6 then 0x101 else 0x100, flags := 0, reqId := 0, status := 0,
          role := 0, epoch := 0,
          payload := toBe 6 (bits (c.param (0x0D10 + port)) 47 0) ++ toBe (if v6 then 16 else 4) target }) ∧
    (∀ (target sender : Nat) (body : List Byte), c.portsRun = true → c.proto.sa.getD port false = true →
      (ownV4 c port = some target ∨ ownV6 c port = some target) →
      sendsOnly (.icmpEchoRequest port target sender body)
        { dst := { port := port, addr := sender, udp := 0 }, src := portAddr c port sender, srcUdp := 0, kind := 0x102, flags := 0, reqId := 0, status := 0, role := 0, epoch := 0,
          payload := body }) ∧
    (∀ (why : BadPacket) (r : Req),
      reaches (.unrecognisedPacket port why r) s c ∧
      (why = .macsec → c.portsRun = true → completes (.unrecognisedPacket port why r) s (counted .proMacsecDrop port 1 s)) ∧
      (∀ k st, (why = .version k ∧ st = .badVersion) ∨ (why = .type k ∧ st = .badType) ∨ (why = .length k ∧ st = .badPacket) →
        c.accepting = true → c.proto.sa.getD port false = true →
        completes (.unrecognisedPacket port why r) s fun t => counted .proBad port 1 s t ∧
          sends s t (replyPackets r (k % 256) st [[]] c.proto.epoch port)))

/-- Device time: the first Sync after a wake steps it to the grandmaster's, corrected by the port's peer delay, and later
ones slew it; a Sync on another port, or of another domain than PRO_PTP_DOMAIN, changes nothing; missed Syncs leave it
running on the local reference, and after a second of holdover the device counts as unsynchronised. [Rests on R397, R398;
what it holds of the model's own choices and readings: log entry 55] -/
def Obligations.DeviceTimeFollowsSync : Prop :=
  ∀ (s : State) (port n domain : Nat), s.ready →
    let c := s.ctl
    let target := n + SMap.get 0 c.proto.peerDelay port
    (c.portOpen port = true → domain = c.param 0x0D05 → port = c.proto.slavePort → c.proto.linkUp.getD port false = true →
      (c.proto.sync = 0 → exec (.ptpSync port n domain) s = .next (s.withCtl { c with
        clk := { c.clk with device := target, slew := 0 }, proto := { c.proto with sync := 2, unsync := false } })) ∧
      (c.proto.sync ≠ 0 → exec (.ptpSync port n domain) s = .next (s.withCtl { c with
        clk := { c.clk with slew := (target : Int) - c.clk.device }, proto := { c.proto with sync := 2, unsync := false } }))) ∧
    (port ≠ c.proto.slavePort ∨ domain ≠ c.param 0x0D05 → exec (.ptpSync port n domain) s = .next s) ∧
    (c.portOpen port = true → c.proto.linkUp.getD port false = true →
      completes (.ptpPeerDelay port n) s fun t => sameMem s t ∧ SMap.get 0 t.ctl.proto.peerDelay port = n ∧
        (∀ p, p ≠ port → SMap.get 0 t.ctl.proto.peerDelay p = SMap.get 0 c.proto.peerDelay p) ∧
        { t.ctl with proto := { t.ctl.proto with peerDelay := [] } } = { c with proto := { c.proto with peerDelay := [] } }) ∧
    (c.proto.sync = 2 → exec .ptpHoldover s = .next (s.withCtl { c with
      clk := { c.clk with slew := 0 }, proto := { c.proto with sync := 3, holdAt := c.clk.ns } })) ∧
    (c.clk.ns < c.proto.holdAt + 1000000000 → exec .ptpUnsynchronised s = .next s) ∧
    (c.proto.sync = 3 → c.proto.unsync = false → c.proto.holdAt + 1000000000 ≤ c.clk.ns →
      reaches .ptpUnsynchronised s { c with proto := { c.proto with unsync := true } } ∧
      completes .ptpUnsynchronised s (counted .proSyncLoss 0 1 s))

/-- The result handed over first whose slots are all full is sent to its requester, and leaves the queue; a bundle whose
policy withholds results sends none and counts it; where the reply releases its slots they are empty afterwards. [Rests on
R134, R410, R415, R464; what it holds of the model's own choices and readings: log entries 14, 28, 29] -/
def Obligations.ResultsAreSent : Prop :=
  ∀ (s : State) (rp : Reply) (j : Job), s.ready → s.ctl.job? rp.job = some j →
    let c := s.ctl
    let ok (q : Reply) : Bool := !q.frozen && match c.job? q.job with | some k => !k.ended && replyReady c k q | none => false
    c.proto.replies.find? ok = some rp →
    completes .resultSend s fun t => sameMem s t ∧ t.ctl.proto.replies = c.proto.replies.filter (· ≠ rp) ∧ t.ctl.jobs = c.jobs ∧
      (rp.release = false → t.ctl.slotTags = c.slotTags) ∧
      (rp.release = true → ∀ h ∈ rp.handles, ∀ e, j.handle? h = some e → ∀ k ∈ e.slotKeys 0, t.ctl.slotFull k = false) ∧
      (c.resultOut j.bundle = false → counted .secWithheld 0 1 s t) ∧
      (c.resultOut j.bundle = true → c.proto.sa.getD c.proto.active false = true →
        ∃ a b q, t.ctl.proto.sent = c.proto.sent ++ (a ++ (q :: b)) ∧ q.kind = 0x20 ∧ q.status = 0 ∧
          q.dst = { rp.run.requester with port := c.proto.active } ∧
          q.payload.take 24 = toBe 2 j.no ++ toBe 2 rp.code ++ toBe 4 rp.run.seq ++ toBe 8 rp.run.startEpoch
            ++ toBe 8 rp.run.triggerTime)

/-! ### The Plane (03, 04, 13) -/

/-- Dispatch and preemption: the ready run served first takes a free Plane, asks a less urgent list to stop, or begins a
switch; a used-up quantum asks for a stop and sends the run to the back; at a preemption point the list leaves with its
streams; a switch ends with the incoming list on the Plane; saved sums are loaded before their pass goes on; an abort between
commands ends the job with its reply. [Rests on R96, R97, R143, R144, R145, R147, R300, R418; what it holds of the model's
own choices and readings: log entry 43] -/
def Obligations.DispatchAndPreemption : Prop :=
  ∀ s : State, s.ready →
    let c := s.ctl
    (∀ j, c.plane.switch = none → c.tilesServe = true → c.bestReady none = some j →
      (∀ h, c.holding = some h → j.cls < h.cls →
        exec .runDispatch s = .next (s.withCtl { c with plane := { c.plane with stopReq := true } })) ∧
      (∀ h, c.holding = some h → h.cls ≤ j.cls → exec .runDispatch s = .next s) ∧
      (c.holding = none → (c.plane.last = none ∨ c.plane.last = some j.no) →
        completes .runDispatch s fun t => t.ctl.plane.holder = some j.no ∧ t.ctl.plane.last = some j.no ∧
          t.ctl.plane.switch = none ∧ t.ctl.plane.stopReq = false ∧ sameMem s t) ∧
      (∀ k, c.holding = none → c.plane.last = some k → k ≠ j.no →
        exec .runDispatch s = .next (s.withCtl { c with plane := { c.plane with switch := some { job := j.no } } }))) ∧
    (∀ h, c.holding = some h → h.cls ≠ 0 → quantum c h.cls ≤ h.quantumUsed →
      (∃ k ∈ c.readyJobs, k.cls = h.cls ∧ k.no ≠ h.no) →
      exec .quantumExpiry s = .next (s.withCtl { c with
        jobs := c.jobs.map fun j => if j.no = h.no then { j with running := j.running.map fun r => { r with readyAt := c.clk.ns } } else j
        plane := { c.plane with stopReq := true } })) ∧
    (∀ j, c.holding = some j → c.plane.stopReq = true → j.cls ≠ 0 → stopAt c j ≠ .no →
      completes .preemptionStop s fun t => t.ctl.plane.holder = none ∧ t.ctl.plane.stopReq = false ∧ t.ctl.plane.operandWait = none ∧
        t.ctl.plane.waitFull = none ∧ (∀ x ∈ t.ctl.ctxs, x.job ≠ j.no) ∧
        (stopAt c j = .clean → t.ctl.plane.drain = c.plane.drain ∧ sameMem s t ∧ withJob t j.no fun k =>
          k.exec = { j.exec with stopped := j.exec.phase == 2, band := [] }) ∧
        (stopAt c j = .inside → (∃ d, t.ctl.plane.drain = some d ∧ d.job = j.no ∧ d.idx = j.exec.pc ∧ d.toSave = true) ∧
          withJob t j.no fun k => k.exec.savedState = 1 ∧ k.exec.sums = [] ∧ k.exec.step = j.exec.step ∧ k.exec.pass = j.exec.pass)) ∧
    (∀ w j, c.plane.switch = some w → c.job? w.job = some j → j.running.isSome = true → j.ended = false →
      completes .classSwitchComplete s fun t => t.ctl.plane.holder = some j.no ∧ t.ctl.plane.switch = none ∧
        t.ctl.plane.last = some j.no ∧ sameMem s t) ∧
    (∀ j, c.holding = some j → j.exec.savedState = 1 → j.exec.phase = 1 → c.plane.drain = none → c.plane.copying = none →
      completes .savedSumsLoaded s fun t => sameMem s t ∧ t.ctl.plane.passWait = false ∧
        withJob t j.no fun k => k.exec.savedState = 2 ∧ k.exec.pc = j.exec.pc ∧ k.exec.step = j.exec.step ∧ k.exec.sums = j.exec.sums) ∧
    (∀ j r, c.holding = some j → j.abortReq = some r → j.exec.phase = 0 → j.exec.incomplete = [] → c.plane.waitFull = none →
      completes .abortEffect s fun t => endedJob t j.no ∧ t.ctl.plane.holder = none ∧
        (c.proto.sa.getD r.port false = true → replies s t r 0x12 .aborted [[]]))

/-- The list has gone past control command `i` of its run, or the command stays open for the streams that are tied to it. -/
def pastControl (t : State) (no i : Nat) : Prop :=
  withJob t no fun k => (k.exec.pc = i + 1 ∧ k.exec.phase = 0 ∧ k.exec.incomplete = []) ∨
    (k.exec.pc = i ∧ k.exec.phase = 2 ∧ k.exec.incomplete = [i] ∧ streamsDone t.ctl k i = false)

/-- The control commands, where one may begin: OP_NOP does nothing else; OP_WAIT_FULL goes on where its slot is full in every
part and waits where it is not; OP_SIGNAL sets its slot full or empty in every part; OP_REPLY hands a result over with the
slots it names; OP_END ends the run, and the run that waits behind it goes on. [Rests on R117, R132, R133, R134, R256, R409;
what it holds of the model's own choices and readings: log entry 32] -/
def Obligations.ControlCommandsTakeEffect : Prop :=
  ∀ (s : State) (j : Job), s.ready → s.ctl.holding = some j → j.exec.incomplete = [] →
    let c := s.ctl
    let i := j.next
    let r := j.cmd i
    let w := rWord1 r
    rRelA r = false → rRelAux r = false → rSignalDone r = false →
    (mayBegin c j 0x01 = true → completes .opNop s fun t => sameMem s t ∧ pastControl t j.no i ∧ t.ctl.slotTags = c.slotTags ∧
      t.ctl.proto.replies = c.proto.replies) ∧
    (∀ e, mayBegin c j 0x02 = true → j.handle? (bits w 7 0) = some e →
      (c.handleFull e (bits w 47 16) = true →
        completes .opWaitFull s fun t => sameMem s t ∧ pastControl t j.no i ∧ t.ctl.slotTags = c.slotTags ∧ t.ctl.plane.waitFull = none) ∧
      (c.handleFull e (bits w 47 16) = false →
        completes .opWaitFull s fun t => sameMem s t ∧ t.ctl.slotTags = c.slotTags ∧ t.ctl.plane.waitFull = some c.us ∧
          withJob t j.no fun k => k.exec.pc = i ∧ k.exec.phase = 1 ∧ k.exec.incomplete = [i])) ∧
    (∀ e, mayBegin c j 0x03 = true → j.handle? (bits w 7 0) = some e →
      completes .opSignal s fun t => sameMem s t ∧ pastControl t j.no i ∧
        (∀ k ∈ e.slotKeys (bits w 47 16), t.ctl.slotFull k = decide (bits w 15 8 = 0)) ∧
        (∀ k, k ∉ e.slotKeys (bits w 47 16) → t.ctl.slotFull k = c.slotFull k)) ∧
    (∀ run, mayBegin c j 0x04 = true → j.running = some run →
      completes .opReply s fun t => sameMem s t ∧ pastControl t j.no i ∧ t.ctl.slotTags = c.slotTags ∧
        ∃ rp, t.ctl.proto.replies = c.proto.replies ++ [rp] ∧ rp.job = j.no ∧ rp.code = bits w 47 32 ∧ rp.run = run ∧
          rp.release = bit w 48 ∧ rp.frozen = false ∧
          rp.handles = [bits w 7 0, bits w 15 8, bits w 23 16, bits w 31 24] ∧ rp.writers = j.exec.writers) ∧
    (mayBegin c j 0x00 = true → j.mode ≠ 0 → j.endReq = none → j.endAtRun = 0 →
      completes .opEnd s fun t => sameMem s t ∧ t.ctl.plane.holder = none ∧ t.ctl.slotTags = c.slotTags ∧
        withJob t j.no fun k => k.running = promoted c j ∧ k.waiting = none ∧ k.exec = j.exec.afresh ∧ k.lastStatus = 0 ∧ k.ended = false) ∧
    (mayBegin c j 0x00 = true → j.mode = 0 → completes .opEnd s fun t => endedJob t j.no ∧ t.ctl.plane.holder = none)

/-- The array and vector-only commands, by opcode. -/
def computeCommands : List (Nat × Instr) :=
  [(0x10, .opMatmul), (0x11, .opConv2d), (0x12, .opConv1d), (0x13, .opConvGrouped), (0x14, .opConvDw), (0x40, .opPoolMax),
   (0x41, .opPoolAvg), (0x42, .opUpsampleNearest), (0x43, .opUpsampleBilinear), (0x44, .opCropResize), (0x45, .opArgmaxChan),
   (0x46, .opSpaceToChan), (0x48, .opGather), (0x49, .opScatter), (0x4A, .opElementwise), (0x4B, .opAdaptUpdate)]

/-- Every array and vector-only command begins where it may: an array command at its first pass, step and group; a
vector-only one gives the vector units a drain of its own. Nothing is computed or written yet. Where it may not begin nothing
happens. [Rests on R124, R132, R135, R150, R200; what it holds of the model's own choices and readings: log entry 1] -/
def Obligations.ComputeCommandsBegin : Prop :=
  ∀ p ∈ computeCommands, ∀ (s : State) (j : Job), s.ready → s.ctl.holding = some j →
    let c := s.ctl
    let i := j.next
    (mayBegin c j p.1 = false → exec p.2 s = .next s) ∧
    (mayBegin c j p.1 = true →
      completes p.2 s fun t => sameMem s t ∧ t.ctl.slotTags = c.slotTags ∧
        (withJob t j.no fun k => k.exec.pc = i ∧ k.exec.phase = (if p.1 < 0x40 then 1 else 2) ∧ k.exec.pass = 0 ∧ k.exec.step = 0 ∧
          k.exec.grp = 0 ∧ k.exec.sums = [] ∧ k.exec.incomplete = j.exec.incomplete ++ [i] ∧ k.running = j.running ∧ k.cmds = j.cmds) ∧
        (p.1 < 0x40 → t.ctl.plane = { c.plane with atPassEnd := false }) ∧
        (0x40 ≤ p.1 → t.ctl.plane = { c.plane with
          drain := some { job := j.no, idx := i, pass := 0, vals := [], toSave := false, table := [], paid := [], filled := [], rows := 0, undo := [] }
          atPassEnd := false }))

/-- An array pass: a group's contributions join the running sums and the next group comes; after the groups of a step the
next step comes, with the ring buffers written where the map has them; after the last step the sums move to the drain
registers, joined with saved ones, and the next pass or the command's end comes. A parity mismatch ends the job, and a
packing fault that the cells reach ends it with the status of its class: of several the one of the earliest row pair, and of
these that of the lowest tile. [Rests on R78, R80, R90, R93, R94, R97, R324, R329, R331; what it holds of the model's own
choices and readings: log entry 44] -/
def Obligations.PassesGoOn : Prop :=
  ∀ (s : State) (j : Job), s.ready → s.ctl.holding = some j →
    let c := s.ctl
    let e := j.exec
    let r := j.now
    (∀ ups, j.kind = .array → e.phase = 1 → c.plane.holds = 0 → c.plane.heldFaults = [] → e.cut = none → c.plane.copying = none →
      e.step < rSteps r → e.grp < rStepGroups r e.step → c.stopsHere j = false →
      (∀ t₀, completes (.groupBoundary ups (some t₀)) s fun t => endedJob t j.no ∧ t.ctl.plane.holder = none) ∧
      (let m := s.mem.apply (upsetWrites s.mem ups)
       let c₁ := emit (upsetWrites s.mem ups) c
       let q := (allGroups m c₁ j r e).run Port.empty
       (e.pass = 0 ∧ e.step = 0 ∧ e.grp = 0 ∧ e.table = [] → ∃ knots p, loadTable m c₁ j r = .ready knots p ∧ knots = []) → q.2.outside = none → q.2.wait = false → q.2.faults = [] →
       completes (.groupBoundary ups none) s fun t => t.mem = m ∧ t.ctl.plane.operandWait = none ∧ t.ctl.slotTags = c.slotTags ∧
         withJob t j.no fun k => k.exec.grp = e.grp + 1 ∧ k.exec.step = e.step ∧ k.exec.pass = e.pass ∧
           k.exec.sums = (addContributions e.sums q.1).1)) ∧
    (j.kind = .array → e.phase = 1 → e.step < rSteps r → rStepGroups r e.step ≤ e.grp → c.plane.holds = 0 → c.plane.copying = none →
      ∀ mem, (if rMap r = 1 ∨ 15 ≤ e.step then mem = s.mem
        else ∃ c' w, putRuns j (rOp r) (fun _ => true) (gatherRuns (rotate s.mem c j r e)) false s.mem c = .ok (mem, c', w)) →
      completes .stepBoundary s fun t => t.ctl.slotTags = c.slotTags ∧ t.mem = mem ∧
        withJob t j.no fun k => k.exec.step = e.step + 1 ∧ k.exec.grp = 0 ∧ k.exec.pass = e.pass ∧ k.exec.sums = e.sums) ∧
    (j.kind = .array → e.phase = 1 → rSteps r ≤ e.step → c.plane.holds = 0 →
      (∀ t₀, completes (.passEnd (some t₀)) s fun t => endedJob t j.no ∧ t.ctl.plane.holder = none) ∧
      ((c.plane.drain.isSome = true ∨ e.savedState = 1) →
        exec (.passEnd none) s = .next (s.withCtl { c with plane := { c.plane with passWait := true } })) ∧
      (c.plane.drain = none → e.savedState ≠ 1 →
        completes (.passEnd none) s fun t => sameMem s t ∧ t.ctl.plane.passWait = false ∧
          (∃ d, t.ctl.plane.drain = some d ∧ d.job = j.no ∧ d.idx = e.pc ∧ d.pass = e.pass ∧ d.toSave = false ∧
            d.vals = (if e.savedState = 2 then (joinSums e.saved e.sums).1 else e.sums) ∧ d.table = e.table ∧ d.filled = []) ∧
          withJob t j.no fun k => k.exec.sums = [] ∧ k.exec.step = 0 ∧ k.exec.grp = 0 ∧
            (e.pass + 1 < rPasses r → k.exec.pass = e.pass + 1 ∧ k.exec.phase = 1) ∧
            (rPasses r ≤ e.pass + 1 → k.exec.pass = e.pass ∧ k.exec.phase = 2))) ∧
    (∀ f, f ∈ c.plane.heldFaults →
      (∀ g ∈ c.plane.heldFaults, g ≠ f → f.pair < g.pair ∨ (f.pair = g.pair ∧ f.tile < g.tile)) → c.stopsHere j = false →
      f.status ∈ [KS.packOverrun.code, KS.packPadding.code, KS.packFormat.code] →
      completes .packingFault s fun t => endedJob t j.no ∧ t.ctl.plane.holder = none ∧
        (c.proto.sa.getD c.proto.active false = true →
          ∃ a b q, t.ctl.proto.sent = c.proto.sent ++ (a ++ (q :: b)) ∧ q.kind = 0x21 ∧ q.status = f.status ∧
            q.dst = { j.submitter with port := c.proto.active }))

/-- The drain and the completion of commands. The slot that the drain may fill next is written with the outputs of its rows,
is full afterwards, no other tag changes, and the drain remembers it; a slot that is not next changes nothing, and an output
slot that is full makes the drain wait. The drain's end writes what is left, saved sums among it, sets the slots of the pass
full and frees the drain registers; a parity mismatch of the drain registers ends the job. The earliest command whose passes,
drain and streams are done is complete: it is counted, the slots that it releases are empty, the slot that it signals is
full, and the list goes on behind it; none else completes. [Rests on R80, R94, R130, R131, R133, R139, R153, R219; what it
holds of the model's own choices and readings: log entries 20, 23, 79, 103, 111] -/
def Obligations.DrainsAndCompletion : Prop :=
  ∀ s : State, s.ready →
    let c := s.ctl
    (∀ d j, c.plane.drain = some d → c.job? d.job = some j → c.plane.copying = none →
      let r := j.cmds.getD d.idx 0
      let granted (rows : List (RowAt × RowOut × Port)) : Prop :=
        ∀ y ∈ rows, y.2.2.stop (rOp r) true = none ∧ y.2.2.cost = (0, 0)
      (j.ended = false → ∀ t₀ slot second, ∀ i ∈ [Instr.drainComplete (some t₀), .drainSlotFull slot second (some t₀)],
        completes i s fun t => endedJob t d.job ∧ ∀ d', t.ctl.plane.drain = some d' → d'.job ≠ d.job) ∧
      ((opKind (rOp r) = .vector → d.table = [] → ∃ knots p, loadTable s.mem c j r = .ready knots p ∧ knots = []) →
        (∀ slot second,
          let nothing (t : State) : Prop := sameMem s t ∧ t.ctl.slotTags = c.slotTags ∧ t.ctl.plane.drain = some d
          let filled (q : DoneSlot) (n : Nat) (mem : Mem) (w : List Wr) (t : State) : Prop :=
            t.mem = mem ∧ (∀ k, t.ctl.slotFull k = (q.keys.contains k || c.slotFull k)) ∧ t.ctl.plane.drainWait = none ∧
              t.ctl.plane.drain = some { d with filled := d.filled ++ q.keys, rows := n, undo := w ++ d.undo, paid := [] }
          (d.toSave = true ∨ rOp r ≠ 0x49 →
            (nextSlot j r d slot second = none → completes (.drainSlotFull slot second none) s nothing) ∧
            (∀ q, nextSlot j r d slot second = some q →
              let n := if rOp r = 0x4B then max d.rows (q.last + 1) else d.rows
              let rows := computeRows s.mem c j r d ((rowsAt r d.pass).filter fun x =>
                if rOp r = 0x4B then decide (d.rows ≤ x.i ∧ x.i < n) else (rowKeys j r x).any q.keys.contains)
              let want (k : Option Nat) : Bool :=
                rOp r == 0x4B || match k with | some k => q.keys.contains k | none => false
              let qs := splitTagged r (rows.flatMap fun y => y.2.1.1)
              granted rows →
              (∀ m₁ c₁ w₁ m₂ c₂ w₂, putRuns j (rOp r) want qs.1 true s.mem c = .ok (m₁, c₁, w₁) →
                putRuns j (rOp r) (fun _ => true) qs.2 false m₁ c₁ = .ok (m₂, c₂, w₂) →
                completes (.drainSlotFull slot second none) s (filled q n m₂ (w₂ ++ w₁))) ∧
              (∀ on, putRuns j (rOp r) want qs.1 true s.mem c = .error (.drainWait on) →
                completes (.drainSlotFull slot second none) s fun t => nothing t ∧
                  t.ctl.plane.drainWait = some (c.plane.drainWait.getD c.us)))) ∧
          (d.toSave = false → rOp r = 0x49 → ∀ l, scatterTouch s.mem c j r d = .ok l →
            let next := pickSlot (scatterSlots j r d.filled l) (scatterHeld l (scatterSlots j r d.filled l))
              (rHandle r (if second then 7 else 6)) slot second
            (next = none → completes (.drainSlotFull slot second none) s nothing) ∧
            (∀ q, next = some q →
              let n := max d.rows (q.last + 1)
              ∀ c' need w, scatterRows j r d (((rowsAt r 0).take n).drop d.rows) [] [] s.mem c c = .ok (c', need, w) →
                (∀ x ∈ need, x.2 = (0, 0)) →
                completes (.drainSlotFull slot second none) s (filled q n (s.mem.apply c'.wq) w)))) ∧
        ((∀ h, c.holding = some h → h.exec.cut = none) →
          let freed (t : State) : Prop := t.ctl.plane.drain = none ∧ t.ctl.plane.drainWait = none
          (d.toSave = true → ∀ m' c' w,
            putRuns j (rOp r) (fun _ => true) (saveRuns r d.pass d.vals) false s.mem c = .ok (m', c', w) →
            completes (.drainComplete none) s fun t => freed t ∧ t.mem = m' ∧ t.ctl.slotTags = c.slotTags) ∧
          (d.toSave = false → rOp r = 0x49 → ∀ c' need w l,
            scatterRows j r d ((rowsAt r 0).drop d.rows) [] [] s.mem c c = .ok (c', need, w) → (∀ x ∈ need, x.2 = (0, 0)) →
            scatterTouch s.mem c j r d = .ok l →
            completes (.drainComplete none) s fun t => freed t ∧ t.mem = s.mem.apply c'.wq ∧
              ∀ k, t.ctl.slotFull k = (((scatterSlots j r d.filled l).flatMap (·.keys)).contains k || c.slotFull k)) ∧
          (d.toSave = false → rOp r ≠ 0x49 →
            let rows := computeRows s.mem c j r d
              ((rowsAt r d.pass).filter fun x =>
                if rOp r = 0x4B then decide (d.rows ≤ x.i) else spansOf r x = [] || !(rowKeys j r x).all d.filled.contains)
            let want (k : Option Nat) : Bool := match k with | some k => !d.filled.contains k | none => true
            let qs := splitTagged r (rows.flatMap fun y => y.2.1.1)
            granted rows → ∀ m₁ c₁ w₁ m₂ c₂ w₂, putRuns j (rOp r) want qs.1 true s.mem c = .ok (m₁, c₁, w₁) →
              putRuns j (rOp r) (fun _ => true) qs.2 false m₁ c₁ = .ok (m₂, c₂, w₂) →
            completes (.drainComplete none) s fun t => freed t ∧ t.mem = m₂ ∧
              ∀ k, t.ctl.slotFull k = (((doneSlots j r d.pass d.filled).flatMap (·.keys)).contains k || c.slotFull k))))) ∧
    (∀ index, (c.holding.toList ++ c.jobs).find? (mayComplete c index) = none → exec (.commandComplete index) s = .next s) ∧
    (∀ index j, (c.holding.toList ++ c.jobs).find? (mayComplete c index) = some j → c.job? j.no = some j →
      let r := j.cmd index
      completes (.commandComplete index) s fun t => sameMem s t ∧ counted .plnCmdDone j.cls 1 s t ∧
        (withJob t j.no fun k => k.exec.incomplete = j.exec.incomplete.filter (· ≠ index) ∧ k.exec.writers = j.exec.writers ∧
          (j.exec.pc ≠ index → k.exec.pc = j.exec.pc ∧ k.exec.phase = j.exec.phase) ∧
          (j.exec.pc = index → k.exec.pc = index + 1 ∧ k.exec.phase = 0)) ∧
        (∀ e, rSignalDone r = true → j.handle? (rHandle r 12) = some e → ∀ k ∈ e.slotKeys 0, t.ctl.slotFull k = true) ∧
        (∀ e h sl, rSignalDone r = false → (rRelA r = true ∧ h = rHandle r 0 ∨ rRelAux r = true ∧ h = rHandle r 9) →
          j.handle? h = some e → (index, h, sl) ∈ j.exec.readSlots → ∀ k ∈ e.slotKeys sl, t.ctl.slotFull k = false) ∧
        (rSignalDone r = false → rRelA r = false → rRelAux r = false → t.ctl.slotTags = c.slotTags))

/-! ### Waits, holds and write-backs (03, 08, 09, 11) -/

/-- An object of a kind is listed as frozen in a job, with a status. -/
def frozenNow (t : State) (kind job : Nat) (st : KS) : Prop :=
  ∃ f ∈ t.ctl.sec.frozen, f.kind = kind ∧ f.job = job ∧ f.status = st.code

/-- A blocked access that the slot's tag now allows goes on, for each of the seven masters: its wait is over, and nothing
that it has not itself to write changes. [Rests on R95, R133, R254, R255, R283, R390, R541; what it holds of the model's own
choices and readings: log entry 44] -/
def Obligations.BlockedAccessesAreGranted : Prop :=
  ∀ s : State, s.ready →
    let c := s.ctl
    let moved (no : Nat) : List Job := c.jobs.map fun k => if k.no = no then { k with moved := c.clk.ns } else k
    (∀ j, c.holding = some j → operandWait s.mem c j = some ([], false) → c.plane.copying = none →
      exec (.blockedAccessGranted .operand) s = .next (s.withCtl { c with
        plane := { c.plane with operandWait := none }, jobs := moved j.no })) ∧
    (∀ j d, drainWait s.mem c = some (j, d, []) → c.plane.copying = none →
      exec (.blockedAccessGranted .drain) s = .next (s.withCtl { c with
        plane := { c.plane with drainWait := none }, jobs := moved j.no })) ∧
    (∀ j e, c.holding = some j → c.plane.waitFull.isSome = true → j.exec.incomplete = [j.exec.pc] → c.plane.copying = none →
      j.handle? (bits (rWord1 j.now) 7 0) = some e → c.handleFull e (bits (rWord1 j.now) 47 16) = true →
      completes (.blockedAccessGranted .waitFull) s fun t => sameMem s t ∧ t.ctl.plane.waitFull = none ∧ pastControl t j.no j.exec.pc) ∧
    (∀ tile n x j, c.ctxs.find? (fun y => y.tile = tile && y.ctx = n && y.blocked.isSome) = some x → c.job? x.job = some j →
      streamWait s.mem c j x = [] →
      exec (.blockedAccessGranted (.stream tile n)) s = .next (s.withCtl { c with
        ctxs := c.ctxs.map fun y => if y.tile = tile ∧ y.ctx = n then { y with blocked := none } else y, jobs := moved j.no })) ∧
    exec (.blockedAccessGranted .reply) s = .next s ∧
    (∀ n f rest, (c.intake n).ended = f :: rest → c.plane.copying = none → (landKeys (c.cfg n) f.slot).any c.slotFull = false →
      completes (.blockedAccessGranted (.intake n)) s fun t =>
        t.mem = s.mem.apply ((f.parked.flatMap fun p => runWrite s.mem p.1 p.2.1 p.2.2.1 p.2.2.2) ++ stampWrites s.mem n f false c) ∧
        (t.ctl.intake n).ended = rest ∧ counted .intFrame n 1 s t ∧
        (∀ k ∈ landKeys (c.cfg n) f.slot, t.ctl.slotFull k = true) ∧
        (∀ k, k ∉ landKeys (c.cfg n) f.slot → t.ctl.slotFull k = c.slotFull k)) ∧
    (∀ n, (c.intake n).ended = [] → (c.intake n).blocked.isSome = true → c.plane.copying = none →
      (landKeys (c.cfg n) (c.intake n).next).any c.slotFull = false →
      completes (.blockedAccessGranted (.intake n)) s fun t =>
        t.mem = s.mem.apply ((c.intake n).parked.flatMap fun p => runWrite s.mem p.1 p.2.1 p.2.2.1 p.2.2.2) ∧
        t.ctl.intake n = { c.intake n with blocked := none, parked := [] } ∧ t.ctl.slotTags = c.slotTags) ∧
    (∀ n p rest, (c.intake n).ended = [] → (c.intake n).blocked.isSome = true → (c.intake n).parked = p :: rest →
      writeHeld (c.cfg n) (c.intake n).next p.1 c = true → exec (.blockedAccessGranted (.intake n)) s = .next s) ∧
    (∀ p, p < 4 →
      exec (.blockedAccessGranted (.crosswind p)) s = .next (s.withCtl { c with group := { c.group with
        ports := c.group.ports.set p { c.port p with
          waits := (c.port p).waits.filter fun w => (sendable c p).any fun k => !k.2 && k.1 == w.1 } } }))

/-- A wait past its limit, for each of the seven masters: what waited is frozen with KS_STALL_LIMIT and listed, and the job
ends, keeping its handles where it is the job that is frozen; but a mutual wait ends its job with nothing frozen, and a wait
that streams halted on pages would end is not counted, nor one that the store copy of a substitution suspends. The limit is
TST_STALL_LIMIT, or TST_EXT_WAIT_LIMIT for a read of slots that intake or the host fills; before it, and of what no tag holds
back, nothing happens. [Rests on R260, R261, R262, R304, R306, R307, R390, R411, R541; what it holds of the model's own
choices and readings: log entries 15, 128] -/
def Obligations.StallLimitsFreeze : Prop :=
  ∀ s : State, s.ready →
    let c := s.ctl
    let limit (start : Option Nat) : Bool := overdue c (c.param 0x0800) start
    let ends (i : Instr) (j : Job) (start : Option Nat) (read : Bool) (on : List (Nat × Nat)) (fault : State → Prop) : Prop :=
      let due := overdue c (stallUs c j read on) start
      (on = [] ∨ onHalted s.mem c j on = true ∨ due = false → exec i s = .next s) ∧
      (on ≠ [] → onHalted s.mem c j on = false → due = true → mutualWait s.mem c j = true →
        completes i s fun t => endedJob t j.no ∧ counted .strMutual 0 1 s t ∧ t.ctl.sec.frozen = c.sec.frozen) ∧
      (on ≠ [] → onHalted s.mem c j on = false → due = true → mutualWait s.mem c j = false → completes i s fault)
    let stalled (j : Job) (t : State) : Prop := frozenNow t 2 j.no .stallLimit ∧ counted .tstStall 0 1 s t ∧
      withJob t j.no fun k => k.ended = true ∧ k.handles = j.handles ∧ k.pages = j.pages ∧ k.lastStatus = KS.stallLimit.code
    (∀ w, copySuspends c w = true → exec (.stallLimitExceeded w) s = .next s) ∧
    (c.plane.copying = none →
    (∀ j on b, c.holding = some j → operandWait s.mem c j = some (on, b) →
      ends (.stallLimitExceeded .operand) j c.plane.operandWait true on (stalled j)) ∧
    (∀ j d on, drainWait s.mem c = some (j, d, on) → j.ended = false →
      ends (.stallLimitExceeded .drain) j c.plane.drainWait (on.all fun w => !c.slotFull w.2) on (stalled j)) ∧
    (∀ j, c.holding = some j → c.plane.waitFull.isSome = true →
      ends (.stallLimitExceeded .waitFull) j c.plane.waitFull true (fullWait c j) (stalled j)) ∧
    (∀ tile n x j, c.ctxs.find? (fun y => y.tile = tile && y.ctx = n && y.blocked.isSome && c.plane.holder == some y.job) = some x →
      c.job? x.job = some j → j.ended = false →
      let on := streamWait s.mem c j x
      ends (.stallLimitExceeded (.stream tile n)) j x.blocked (on.all fun w => !c.slotFull w.2) on fun t => endedJob t x.job ∧
        ∃ f ∈ t.ctl.sec.frozen, f.kind = 1 ∧ f.job = x.job ∧ f.tile = tile ∧ f.ctx = n ∧ f.status = KS.stallLimit.code) ∧
    (c.proto.replies.find? (fun rp => !rp.frozen && replyLate c rp) = none → exec (.stallLimitExceeded .reply) s = .next s) ∧
    (∀ rp, c.proto.replies.find? (fun rp => !rp.frozen && replyLate c rp) = some rp →
      completes (.stallLimitExceeded .reply) s fun t => sameMem s t ∧ frozenNow t 3 rp.job .stallLimit ∧ t.ctl.jobs = c.jobs ∧
        t.ctl.proto.replies = c.proto.replies.map fun x => if x = rp then { x with frozen := true } else x) ∧
    (∀ n, (limit (c.intake n).waitSince = false → exec (.stallLimitExceeded (.intake n)) s = .next s) ∧
      (limit (c.intake n).waitSince = true →
        completes (.stallLimitExceeded (.intake n)) s fun t => frozenNow t 5 0 .stallLimit ∧ (t.ctl.intake n).frozen = true ∧
          (t.ctl.intake n).blocked = none ∧ (t.ctl.intake n).busy = false ∧ (t.ctl.intake n).ended = [] ∧
          ∀ sl, ((c.intake n).busy = true ∧ sl = (c.intake n).next) ∨ (∃ f ∈ (c.intake n).ended, f.slot = sl) →
            ∀ k ∈ landKeys (c.cfg n) sl, t.ctl.slotFull k = true ∧ t.ctl.slotVoided k = true)) ∧
    (∀ p no link slot tile since j, p < 4 → p < c.group.ports.length →
      (c.port p).waits.find? (fun w => (sendable c p).any (fun k => !k.2 && k.1 == w.1) && limit (some w.2))
        = some ((no, link, slot, tile), since) → c.job? no = some j →
      completes (.stallLimitExceeded (.crosswind p)) s fun t => frozenNow t 4 no .stallLimit ∧ counted .tstStall 0 1 s t ∧
        (no, link, slot, tile) ∈ (t.ctl.port p).frozen ∧ (j.running.isSome = true → j.ended = false → endedJob t no)))

/-- Corrections and holds: a correction window and a 1 ms interval start their counts afresh; a hold's end leaves one hold
fewer and counts 4 plane clocks; the one-second window starts afresh and, at 100 signals, applies the limits to the tile with
the most excess corrections. [Rests on R100, R101, R104, R501; what it holds of the model's own choices and readings: log
entry 33] -/
def Obligations.HoldsAndAlarmWindows : Prop :=
  ∀ s : State, s.ready →
    let c := s.ctl
    exec .correctionWindow s = .next (s.withCtl { c with plane := { c.plane with windowCorr := [] } }) ∧
    exec .holdAlarmInterval s = .next (s.withCtl { c with plane := { c.plane with intervalHolds := 0, signalled := false } }) ∧
    (c.plane.holds = 0 → exec .globalHoldEnd s = .next s) ∧
    (0 < c.plane.holds → reaches .globalHoldEnd s { c with plane := { c.plane with holds := c.plane.holds - 1 } } ∧
      completes .globalHoldEnd s (counted .plnHoldClk 0 4 s)) ∧
    (c.plane.windowSignals < 100 →
      exec .holdAlarmWindow s = .next (s.withCtl { c with plane := { c.plane with windowSignals := 0, windowExcess := [] } })) ∧
    (100 ≤ c.plane.windowSignals →
      completes .holdAlarmWindow s fun t => sameMem s t ∧
        t.ctl.plane = { c.plane with windowSignals := 0, windowExcess := [] } ∧
        (∀ k ∈ c.store.bankDue, k ∈ t.ctl.store.bankDue) ∧
        ∃ u < 16, (∀ v < 16, SMap.get 0 c.plane.windowExcess v ≤ SMap.get 0 c.plane.windowExcess u) ∧
          ∀ k ∈ banksOver c u, k ∈ t.ctl.store.bankDue)

/-- Write-backs and scrubbers: a word that a read found corrected or uncorrectable is written back once, as it was delivered,
and no other word, but an HBM word only where no other request waits for its pseudo-channel; a scrubber reads its next word,
and what it finds corrected or uncorrectable waits to be written back. [Rests on R245, R246, R247, R338, R339; what it holds
of the model's own choices and readings: log entries 87, 107] -/
def Obligations.WriteBacksAndScrubbers : Prop :=
  ∀ s : State, s.ready →
    let c := s.ctl
    (∀ w, w ∈ c.store.writeBacks → (s.mem.readWord w).data.length = 32 → legalTag (s.mem.readWord w).tag →
      let back (i : Instr) : Prop := completes i s fun t =>
        t.mem.readWord w = { s.mem.readWord w with found := .clean } ∧ (∀ v, v ≠ w → t.mem.readWord v = s.mem.readWord v) ∧
        t.ctl.store.writeBacks = c.store.writeBacks.filter (· ≠ w) ∧ t.ctl.slotTags = c.slotTags ∧ t.ctl.jobs = c.jobs
      ((storeOf (32 * w)).isSome = true → back (.correctionWriteBack w)) ∧
      (c.hbmOn = true → regionOf (32 * w) = .hbm →
        let busy := (c.withStore fun x => { x with writeBacks := [] }).requestQueued fun p => p.1 == (hbmPlace (32 * w)).1
        (busy = false → back (.hbmCorrectionWriteBack w)) ∧ (busy = true → exec (.hbmCorrectionWriteBack w) s = .next s))) ∧
    (∀ st ups, st < 17 → c.storesRun = true → c.plane.copying ≠ some st → (st < 16 → (c.physical st).isSome = true) →
      let pos := SMap.get 0 c.store.storeScrub st
      let m := s.mem.apply (upsetWrites s.mem ups)
      completes (.storeScrubAccess st ups) s fun t => t.mem = m ∧
        SMap.get 0 t.ctl.store.storeScrub st = (if storeBytes st / 32 ≤ pos + 1 then 0 else pos + 1) ∧
        ((m.readWord (storeBase st / 32 + pos)).found ≠ .clean → storeBase st / 32 + pos ∈ t.ctl.store.writeBacks)) ∧
    (∀ st, c.plane.copying = some st → exec (.storeScrubAccess st []) s = .next s) ∧
    (∀ ups, c.hbmOn = true →
      let w := c.store.hbmScrub
      let m := s.mem.apply (upsetWrites s.mem ups)
      completes (.hbmPatrolScrub ups) s fun t => t.mem = m ∧
        t.ctl.store.hbmScrub = (if hbmEnd / 32 ≤ w + 1 then 0 else w + 1) ∧
        ((m.readWord w).found ≠ .clean → w ∈ t.ctl.store.writeBacks))

/-! ### Stream engines (09) -/

/-- The stream engines. A governor window makes every budget whole, by the parameters as they then stand. A run of block
entries is read, its bytes charged to the class, unless its channel has failed, which ends the job. Once the streams whose
pages have come have resumed, the context that is ready with the least dry time issues its piece, charged to the HBM or the
NoC budget, and its position moves on. A transfer that nothing holds back and that the HBM scheduler serves before every
other is delivered, every word with its tag byte, or its block entries are there for its context, and is in flight no more;
any other stays in flight and moves nothing. [Rests on R280, R283, R284, R289, R290, R291, R294, R295, R297, R298, R302,
R342; what it holds of the model's own choices and readings: log entries 81, 112] -/
def Obligations.StreamEnginesMoveWords : Prop :=
  ∀ (s : State) (tile : Nat), s.ready →
    let c := s.ctl
    exec .governorWindow s = .next (s.withCtl { c with charges := [], govHeld := [] }) ∧
    (∀ j n x t p, c.plane.holder.bind c.job? = some j → j.cls < 3 →
      (c.engine tile).find? (fun y => y.ctx = n) = some x → c.job? x.job = some j →
      let r := j.stream x.pos.record
      let a := tDesc r + 16 * x.fetched
      let left := min 128 (tBlocks r - x.fetched)
      let src := (p.frame + (a - p.va)) / 32 * 32
      let words := cdiv (a % 32 + 16 * left) 32
      tStrided r = false → x.pos.halted = false → x.fetched < tBlocks r →
      c.xfers.any (fun y => y.tile = tile && y.ctx = n && y.listRead) = false →
      freeTag c j.cls x = some t → j.page? a = some p → hbmRoom c tile j.cls (max (16 * left) 512) = true →
      (c.hbmFailed src words = true → j.ended = false → completes (.blockListFetch tile n) s fun u => endedJob u j.no) ∧
      (c.hbmFailed src words = false → completes (.blockListFetch tile n) s fun u => sameMem s u ∧ u.ctl.slotTags = c.slotTags ∧
        u.ctl.charge tile j.cls = c.charge tile j.cls + max (16 * left) 512 ∧
        ∃ f, u.ctl.xfers = c.xfers ++ [f] ∧ f.tile = tile ∧ f.tag = t ∧ f.ctx = n ∧ f.job = j.no ∧ f.listRead = true ∧
          f.src = src ∧ f.words = words ∧ f.slot = x.fetched + left)) ∧
    (let c₁ := openWaiting tile s.mem (unhalt s.mem c)
      ∀ j x q t e mem, c₁.plane.holder.bind c₁.job? = some j → j.cls < 3 → x ∈ c₁.engine tile → ready s.mem c₁ j x = .yes q t →
      (∀ y ∈ c₁.engine tile, y ≠ x → (y.tile, y.ctx) ≠ (x.tile, x.ctx) ∧
        (ready s.mem c₁ j y = .bad ∨ (∃ q' t', ready s.mem c₁ j y = .yes q' t') →
          dryTime s.mem c₁ j x * 16 + x.ctx < dryTime s.mem c₁ j y * 16 + y.ctx)) →
      j.handle? (tSlotHandle (j.stream x.pos.record)) = some e → memSide c₁ j x q = .ok (some mem) →
      let r := j.stream x.pos.record
      let slot := e.addr x.tile (x.pos.slot * e.slotBytes + 32 * q.slotWord)
      let dst := if tStore r then mem else slot
      (tStore r = false → e.write = true) → (∀ u, regionOf dst = .tile u → u ≠ x.tile → windowOpen c₁ x.tile dst (32 * q.words) = true) →
      (tSpace r = false → c₁.hbmFailed mem q.words = false) →
      completes (.transferIssue tile) s fun u => sameMem s u ∧ u.ctl.slotTags = c.slotTags ∧
        u.ctl.charge tile j.cls = c.charge tile j.cls + (pieceCharge j x q).1 ∧
        u.ctl.charge tile 3 = c.charge tile 3 + (if j.cls = 0 then 0 else (pieceCharge j x q).2) ∧
        (x.refetch = [] → ∃ y ∈ u.ctl.ctxs, y.tile = x.tile ∧ y.ctx = x.ctx ∧
          let p := x.pos.after r (j.descOf s.mem r) e.slotCount q
          y.pos = if p.visit = x.pos.visit then p else { p with past := SMap.insert p.past x.pos.slot c.clk.ns }) ∧
        (∀ b l, x.refetch = b :: l → ∃ y ∈ u.ctl.ctxs, y.tile = x.tile ∧ y.ctx = x.ctx ∧ y.pos = x.pos ∧ y.refetch = l) ∧
        ∃ f, u.ctl.xfers = c.xfers ++ [f] ∧ f.tile = tile ∧ f.tag = t ∧ f.job = x.job ∧ f.record = x.pos.record ∧ f.words = q.words ∧
          f.src = (if tStore r then slot else mem) ∧ f.dst = dst ∧ f.slot = x.pos.slot ∧ f.listRead = false) ∧
    (∀ x tag ups, c.xfers.find? (fun y => y.tile = tile && y.tag = tag) = some x →
      let m := s.mem.apply (upsetWrites s.mem ups)
      (c.deliverable x = false ∨ servedLater c x = true → completes (.transferDelivered tile tag ups) s fun u =>
        u.mem = m ∧ u.ctl.xfers = c.xfers ∧ u.ctl.slotTags = c.slotTags) ∧
      (∀ k, c.deliverable x = true → servedLater c x = false → c.job? x.job = some k →
        completes (.transferDelivered tile tag ups) s fun u =>
          u.ctl.xfers = c.xfers.filter (· ≠ x) ∧
          (x.listRead = true → u.mem = m ∧ u.ctl.slotTags = c.slotTags ∧
            ∀ y ∈ u.ctl.ctxs, y.tile = x.tile → y.ctx = x.ctx → y.job = x.job → y.pos.record = x.record → x.slot ≤ y.fetched) ∧
          (x.listRead = false → u.mem = m.apply ((List.range x.words).flatMap fun i =>
            let w := (x.wordsOf m k c).getD i { data := [], tag := 0, found := .clean }
            wholeWord (x.dst / 32 + i) w.data w.tag))))

/-- A write of a stream to a page that is flash-backed, or whose WRITE bit is 0, ends its job with KS_ADDRESS_FAULT: the job
leaves the Plane, and the stream's context is frozen and listed. [Rests on R305, R308, R468; what it holds of the model's own
choices and readings: log entry 85] -/
def Obligations.WriteToFlashPageFaults : Prop :=
  ∀ (s : State) (j : Job) (x : Ctx) (q : Piece) (t : Nat) (p : Page) (e : Handle), s.ready →
    let c := openWaiting x.tile s.mem (unhalt s.mem s.ctl)
    c.plane.holder.bind c.job? = some j → j.ended = false →
    let r := j.stream x.pos.record
    c.engine x.tile = [x] → x.job = j.no → ready s.mem c j x = .yes q t → j.handle? (tSlotHandle r) = some e →
    tStore r = true → tSpace r = false → j.page? q.mem = some p → (p.flash = true ∨ p.write = false) →
    completes (.transferIssue x.tile) s fun u => endedJob u j.no ∧ u.ctl.plane.holder = none ∧
      ∃ f ∈ u.ctl.sec.frozen, f.kind = 1 ∧ f.job = j.no ∧ f.tile = x.tile ∧ f.ctx = x.ctx ∧ f.status = KS.addressFault.code

/-! ### HBM and weight flash (11) -/

/-- Page-ins and flash upkeep. The page-in that is first of every queue it waits in takes a frame; at its end the page is
resident in that frame, which holds its words as the interface delivers them, but in Lee mode a page that no job that goes on
names leaves none; where its words are lost, or a channel of the flash does not answer, the page-in leaves the queues, and
every job with a stream halted on the page, saved or not, ends with KS_FLASH_FAULT, no context frozen. Behind every page-in
of its stack, a patrol makes a block with more than 4 corrected words in a piece a candidate, the parity piece among them,
and a candidate's pieces move to a block of the spare pool while the old one is to be erased. An erased block counts its
erasure, and one that fails is retired. [Rests on R352, R355, R356, R357, R358, R359, R361, R362, R363, R510; what it holds
of the model's own choices and readings: log entries 26, 48, 49, 50, 51, 98, 107] -/
def Obligations.PageInsAndFlashUpkeep : Prop :=
  ∀ s : State, s.ready →
    let c := s.ctl
    (∀ stack a f c', c.hbmOn = true → nextPageIn stack c = some a →
      makeFrame s.mem a.bytes [] (c.store.residents.length + 1) c = some (f, c') →
      completes (.pageInStart stack) s fun t => sameMem s t ∧ t.ctl.store.residents = c'.store.residents ∧
        ∃ q ∈ t.ctl.store.pageIns, q.flashAddr = a.flashAddr ∧ q.big = a.big ∧ q.frame = some f) ∧
    (∀ stack, nextPageIn stack c = none → exec (.pageInStart stack) s = .next s) ∧
    (∀ stack ups dead n o q f, c.store.pageIns.find? (fun q => q.uses stack && q.frame.isSome) = some q → q.frame = some f →
      let m := s.mem.apply (upsetWrites s.mem ups)
      let done := Instr.pageInComplete stack ups dead n o
      let failed (t : State) (no : Nat) : Prop := endedJob t no ∧ ∀ k ∈ t.ctl.jobs, k.no = no → k.lastStatus = KS.flashFault.code
      ((dead = true ∨ pieceLost m q.flashAddr q.bytes = true) →
        (completes done s fun t => t.ctl.store.pageIns = c.store.pageIns.filter (· ≠ q) ∧ t.ctl.sec.frozen = c.sec.frozen ∧
          (∀ x ∈ c.ctxs, ∀ j, c.job? x.job = some j → j.ended = false → x.pos.halted = true →
            posIn m j x.pos q.flashAddr q.big = true → failed t j.no) ∧
          (∀ j ∈ c.jobs, c.job? j.no = some j → j.ended = false →
            (∃ p ∈ j.saved, p.halted = true ∧ posIn m j p q.flashAddr q.big = true) → failed t j.no)) ∧
        (c.ctxs = [] → c.holding = none → (∀ j ∈ c.jobs, j.saved = []) → completes done s fun t =>
          t.mem = m ∧ t.ctl.store.residents = c.store.residents ∧ t.ctl.jobs = c.jobs)) ∧
      (dead = false → pieceLost m q.flashAddr q.bytes = false →
        let named := c.jobs.any fun j => !j.ended && j.pages.any fun p => p.flash && p.flashAddr == q.flashAddr && p.big == q.big
        completes done s fun t => t.mem = m.apply (pageWrites m q.flashAddr f q.bytes) ∧
          t.ctl.store.pageIns = c.store.pageIns.filter (· ≠ q) ∧
          (c.service.lee = true → named = false → t.ctl.store.residents = c.store.residents) ∧
          (c.service.lee = false ∨ named = true →
            ∃ x, t.ctl.store.residents = c.store.residents ++ [x] ∧ x.flashAddr = q.flashAddr ∧ x.big = q.big ∧ x.frame = f ∧
              x.lastRequest = q.asked))) ∧
    (∀ unit ups n, c.accepting = true → flashBase + 0x10000 * unit < flashEnd → c.installed (flashBase + 0x10000 * unit) = true →
      let m := s.mem.apply (upsetWrites s.mem ups)
      (readsWait (unit % 2) m c = true → completes (.flashPatrol unit ups n) s fun t => t.mem = m ∧ t.ctl.store.refreshDue = c.store.refreshDue) ∧
      (readsWait (unit % 2) m c = false →
        ∀ a ∈ (List.range 16).map (fun i => flashBase + 0x10000 * unit + 4096 * i) ++ [parityPiece unit],
          completes (.flashPatrol unit ups n) s fun t => t.mem = m ∧ (∀ k ∈ c.store.refreshDue, k ∈ t.ctl.store.refreshDue) ∧
            (4 < (m.listedWords a (a + 4096)).countP (fun w => (m.readWord w).found = .corrected) →
              c.blockOf (blockKey a) ∈ t.ctl.store.refreshDue))) ∧
    (∀ ch b n p q, c.accepting = true → ch * 4096 + b ∈ c.store.refreshDue → readsWait ((ch * 4096 + b) / 4096 / 17) s.mem c = false →
      placeOf c (ch * 4096 + b) = some p → p ∈ heldPlaces c → sparePool c ((ch * 4096 + b) / 4096) = some q →
      completes (.flashBlockRefresh ch b n) s fun t => t.ctl.blockOf p = q ∧ SMap.get 0 t.ctl.store.blockReads q = 0 ∧
        ch * 4096 + b ∉ t.ctl.store.refreshDue ∧ ch * 4096 + b ∈ t.ctl.store.toErase) ∧
    (∀ ch b ok, c.accepting = true → ch * 4096 + b ∈ c.store.toErase →
      c.store.pageIns.any (fun q => q.frame.isSome && q.uses ((ch * 4096 + b) / 4096 / 17)) = false →
      c.store.removed.any (fun r => ((bundleBlocks r.1 r.2).map c.blockOf).contains (ch * 4096 + b) && rangeNamed c r) = false →
      completes (.flashBlockErase ch b ok) s fun t => (c.store.removed = [] → sameMem s t) ∧ ch * 4096 + b ∉ t.ctl.store.toErase ∧
        (ok = true → SMap.get 0 t.ctl.store.wear (ch * 4096 + b) = SMap.get 0 c.store.wear (ch * 4096 + b) + 1 ∧
          SMap.get 0 t.ctl.store.blockReads (ch * 4096 + b) = 0) ∧
        (ok = false → SMap.get 0 t.ctl.store.blocksRetired ((ch * 4096 + b) / 4096) =
          SMap.get 0 c.store.blocksRetired ((ch * 4096 + b) / 4096) + 1))

/-- HBM banks and channels: the rotation's next bank is refreshed, or postponed while requests are queued for it; a deadline
and a row timeout with no request queued for the row close it and leave the predictor; an alert and a retraining precharge
every bank, and the third alert in a row retrains; what fails is listed and raises Lee cause 3; a row that is due is
repaired, its words written back, or its frames are retired. [Rests on R343, R344, R345, R346, R347, R348, R506; what it
holds of the model's own choices and readings: log entries 24, 52, 53] -/
def Obligations.HbmBanksAndChannels : Prop :=
  ∀ (s : State) (pc bk : Nat), s.ready → s.ctl.hbmOn = true → pc < 64 → bk < 48 →
    let c := s.ctl
    let k := pc * 48 + bk
    let closedAll (t : State) : Prop := ∀ b < 48, (t.ctl.bank (pc * 48 + b)).openRow = none
    (pc ∉ c.store.failed → bk = SMap.get 0 c.store.refreshNext pc →
      completes (.perBankRefresh pc bk) s fun t => sameMem s t ∧ SMap.get 0 t.ctl.store.refreshNext pc = (bk + 1) % 48 ∧
        t.ctl.bank k = (if bankQueued c pc bk = true then { c.bank k with postponed := true }
          else { c.bank k with openRow := none, postponed := false })) ∧
    ((c.bank k).postponed = true → completes (.refreshDeadline pc bk) s fun t => sameMem s t ∧
      t.ctl.bank k = { c.bank k with openRow := none, postponed := false }) ∧
    ((c.bank k).keptOpen = true →
      ((∀ row, (c.bank k).openRow = some row → c.rowQueued pc bk row = false) → completes (.rowCloseTimeout pc bk) s fun t =>
        sameMem s t ∧ t.ctl.bank k = { c.bank k with openRow := none }) ∧
      (∀ row, (c.bank k).openRow = some row → c.rowQueued pc bk row = true → exec (.rowCloseTimeout pc bk) s = .next s)) ∧
    (∀ good ok, pc ∉ c.store.failed →
      let n := (if good then 0 else SMap.get 0 c.store.alerts pc) + 1
      completes (.caParityAlert pc good ok) s fun t => counted .hbmCaParity (pc / 32) 1 s t ∧
        SMap.get 0 t.ctl.store.alerts pc = (if 3 ≤ n then 0 else n) ∧ (3 ≤ n → counted .hbmRetrain (pc / 32) 1 s t) ∧
        (n < 3 ∨ ok = true → sameMem s t ∧ closedAll t ∧ t.ctl.store.failed = c.store.failed) ∧
        (3 ≤ n → ok = false → pc ∈ t.ctl.store.failed ∧ bit t.ctl.service.leeCause 3 = true)) ∧
    (∀ ok, pc ∉ c.store.failed →
      let after (t : State) : Prop := counted .hbmRetrain (pc / 32) 1 s t ∧
        (ok = true → sameMem s t ∧ closedAll t ∧ t.ctl.store.failed = c.store.failed) ∧
        (ok = false → pc ∈ t.ctl.store.failed ∧ bit t.ctl.service.leeCause 3 = true)
      (c.galeIdle = true → completes (.hbmRetraining pc ok) s after) ∧
      completes (.forcedRetraining pc ok) s fun t => after t ∧ counted .hbmRetrainForced (pc / 32) 1 s t) ∧
    (∀ stack < 2, completes (.hbmStackNotResponding stack) s fun t => bit t.ctl.service.leeCause 3 = true ∧
      ∀ p, p / 32 = stack → p < 64 → p ∈ t.ctl.store.failed) ∧
    (∀ row, c.service.lee = true → exec (.rowRepair pc bk row) s = .next s) ∧
    (∀ row, k * 16384 + row ∈ c.store.repairDue → c.service.lee = false → c.atPoint = true → c.galeIdle = true →
      completes (.rowRepair pc bk row) s fun t => k * 16384 + row ∉ t.ctl.store.repairDue ∧
        (SMap.get 0 c.store.repairsUsed k < Config.repairsPerBank →
          t.ctl.store.softRepairs = c.store.softRepairs ++ [k * 16384 + row] ∧
          SMap.get 0 t.ctl.store.repairsUsed k = SMap.get 0 c.store.repairsUsed k + 1 ∧
          t.ctl.store.retiredFrames = c.store.retiredFrames ∧ counted .hbmRowRepair (pc / 32) 1 s t ∧
          t.mem = s.mem.apply ((((rowChunks pc bk row).flatMap fun a => s.mem.listedWords a (a + 512)).filter
            fun w => (s.mem.readWord w).found ≠ .clean).flatMap (writeBack s.mem))) ∧
        (Config.repairsPerBank ≤ SMap.get 0 c.store.repairsUsed k →
          sameMem s t ∧ t.ctl.store.softRepairs = c.store.softRepairs ∧
          ∀ a ∈ rowChunks pc bk row, a / 0x10000 ∈ t.ctl.store.retiredFrames))

/-! ### Spares (03, 08, 15, 17) -/

/-- Spares. With no command running or stopped inside, a tile that is due gives its logical number to the lowest-numbered
spare and is retired, or is a spare where it passed its self-test meanwhile, and the copy of its store runs until it ends
with every word copied as delivered, those that could not be read poisoned, and the waits of the Plane moved on by its time;
a failing bank's number goes to a spare bank, and with none left the tile is due; a Plane test takes a slice of 50 µs, and a
failing cell retires its row first, then its column; a tile that freezes is listed and ends every command that it works on,
and one that passes its self-test takes a number that lacks a tile. [Rests on R105, R106, R107, R108, R272, R469, R471, R499,
R500, R541; what it holds of the model's own choices and readings: log entries 31, 45, 46, 47, 113, 114, 127, 128, 136] -/
def Obligations.SparesTakeOver : Prop :=
  ∀ s : State, s.ready →
    let c := s.ctl
    (∀ p t q, p ∈ c.plane.retireDue → c.mayRetire = true → c.plane.copying = none → (c.tile p).logical = some t →
      c.spares.head? = some q → p < c.tiles.length → q < c.tiles.length →
      completes (.tileSubstitution p) s fun u => sameMem s u ∧ u.ctl.slotTags = c.slotTags ∧ u.ctl.jobs = c.jobs ∧
        (u.ctl.tile p).logical = none ∧ (u.ctl.tile p).retired = !(c.tile p).passed ∧ (u.ctl.tile q).logical = some t ∧
        (∀ i, i ≠ p → i ≠ q → u.ctl.tile i = c.tile i) ∧
        u.ctl.plane.copying = some t ∧ p ∉ u.ctl.plane.retireDue ∧ counted .plnSubst 0 1 s u) ∧
    (∀ t lost, c.plane.copying = some t →
      let mine := lost.filter fun w => tileBase t ≤ 32 * w && 32 * w < tileBase t + tileBytes
      let m := s.mem.apply (((s.mem.listedWords (tileBase t) (tileBase t + tileBytes)).filter
        fun w => (s.mem.readWord w).found ≠ .clean && !mine.contains w).flatMap (writeBack s.mem))
      let later (x : Nat) : Nat := x + (c.us - max x c.plane.copySince)
      completes (.storeCopyComplete lost) s fun u => u.ctl.slotTags = c.slotTags ∧
        u.ctl.plane = { c.plane with
          copying := none, operandWait := c.plane.operandWait.map later, drainWait := c.plane.drainWait.map later,
          waitFull := c.plane.waitFull.map later } ∧
        (mine = [] → u.mem = m) ∧ ∀ w, (w ∉ mine → u.mem.readWord w = m.readWord w) ∧
          (w ∈ mine → (u.mem.readWord w).poison = true ∧ (u.mem.readWord w).found = .clean)) ∧
    (∀ lost, c.plane.copying = none → exec (.storeCopyComplete lost) s = .next s) ∧
    (∀ st bank, st * 128 + bank ∈ c.store.bankDue → c.atPoint = true → c.galeIdle = true → c.service.lee = false →
      let back (u : State) : Prop := u.mem = s.mem.apply ((bankFlaws s.mem st bank).flatMap (writeBack s.mem)) ∧
        st * 128 + bank ∉ u.ctl.store.bankDue ∧ counted .tstBankSubst 0 1 s u ∧ u.ctl.slotTags = c.slotTags
      (st = 16 → c.store.cstRetBank = none →
        completes (.bankSubstitution st bank) s fun u => back u ∧ u.ctl.store.cstRetBank = some (builtIndex [] 33 bank)) ∧
      (∀ p, st < 16 → c.physical st = some p → p < c.tiles.length → (c.tile p).retBanks.length < 2 →
        completes (.bankSubstitution st bank) s fun u => back u ∧
          u.ctl.tile p = { c.tile p with retBanks := (c.tile p).retBanks ++ [builtIndex (c.tile p).retBanks 66 bank] }) ∧
      (∀ p t, st < 16 → c.physical st = some p → 2 ≤ (c.tile p).retBanks.length → (c.tile p).retired = false →
        (c.tile p).logical = some t → c.spares ≠ [] → completes (.bankSubstitution st bank) s fun u => sameMem s u ∧
          p ∈ u.ctl.plane.retireDue ∧ st * 128 + bank ∉ u.ctl.store.bankDue)) ∧
    (∀ t p, c.physical t = some p → (c.tile p).frozen = false →
      completes (.tileFreeze t) s fun u => (∃ f ∈ u.ctl.sec.frozen, f.kind = 6 ∧ f.tile = p ∧ f.status = KS.tileFrozen.code) ∧
        ∀ j ∈ c.jobs, c.job? j.no = some j → (tileHit c j).isSome = true → endedJob u j.no) ∧
    (c.mayRetire = true → c.galeIdle = true → c.tilesServe = true → c.plane.copying = none →
      exec (.planeTest []) s = .next (s.withCtl ((chargeSlice c).withPlane fun p => { p with lastTest := c.clk.device })) ∧
      (∀ h, c.plane.holder.bind c.job? = some h → h.cls = 1 → completes (.planeTest []) s fun u =>
        u.ctl.job? h.no = some { h with quantumUsed := h.quantumUsed + 50000 }) ∧
      (c.plane.holder = none → completes (.planeTest []) s fun u => u.ctl.jobs = c.jobs ∧
        u.ctl.plane.busyLog = c.plane.busyLog ++ [(c.clk.ns - 50000, min 50000 c.clk.ns)]) ∧
      ∀ t p row col, c.physical t = some p → p < c.tiles.length → row < 256 → col < 256 →
        ((c.tile p).retRows.length < 2 → completes (.planeTest [(t, row, col)]) s fun u => sameMem s u ∧
          u.ctl.tile p = { c.tile p with retRows := (c.tile p).retRows ++ [builtIndex (c.tile p).retRows 258 row] }) ∧
        ((c.tile p).retRows.length = 2 → (c.tile p).retCols.length < 2 → completes (.planeTest [(t, row, col)]) s fun u =>
          sameMem s u ∧
          u.ctl.tile p = { c.tile p with retCols := (c.tile p).retCols ++ [builtIndex (c.tile p).retCols 258 col] })) ∧
    (∀ p, p < 18 → p < c.tiles.length → (c.tile p).testing = true →
      ∀ found, completes (.tileSelfTestComplete p false found) s (fun u => sameMem s u ∧
        u.ctl.tile p = { c.tile p with testing := false, frozen := false, retired := (c.tile p).logical.isNone, passed := false }) ∧
      ((c.tile p).logical.isSome = true → completes (.tileSelfTestComplete p true found) s fun u => sameMem s u ∧
        u.ctl.tile p = { c.tile p with testing := false, frozen := false, retired := false, passed := true }) ∧
      ∀ t, (List.range 16).find? (fun t => (c.physical t).isNone) = some t → (c.tile p).logical = none →
        completes (.tileSelfTestComplete p true found) s fun u => u.ctl.plane.copying = some t ∧
          u.ctl.tile p = { c.tile p with testing := false, frozen := false, retired := false, passed := false, logical := some t })

/-! ### Intake (12) -/

/-- CSI-2 frames. A frame start takes the next slot of every context that is idle, or the frame is dropped and counted where
the slot is full, or held by a frame that has ended and waits, or the context is frozen; a line that fits is written as
elements in its row, poisoned where its check fails; the frame's end, and the timeout of one that is 1 ms times
INT_FRAME_TIMEOUT behind its last packet, set the slot full, stamped with the time of that end, and go on to the next; a
frame whose writes wait ends with its slot still in progress. Nothing that matches no context is written. [Rests on R366,
R369, R370, R371, R372, R373, R377, R378, R390; what it holds of the model's own choices and readings: log entry 94] -/
def Obligations.Csi2FramesFillSlots : Prop :=
  ∀ (s : State) (h : CsiHeader), s.ready → h.check = 0 → s.ctl.pins.padHold = false → s.ctl.pins.portsOff = false →
    let c := s.ctl
    let r := h.receiver % 8
    let full (n : Nat) : Bool := (landKeys (c.cfg n) (c.intake n).next).any c.slotFull || (c.intake n).ended.any fun f => f.slot == (c.intake n).next
    let open' (n : Nat) : Prop := (landKeys (c.cfg n) (c.intake n).next).any c.slotFull = false ∧ (c.intake n).blocked = none ∧
      c.plane.copying = none
    let next (n : Nat) (t : State) : Prop := (t.ctl.intake n).busy = false ∧
      (t.ctl.intake n).next = ((c.intake n).next + 1) % max 1 (c.cfg n).slots ∧
      (t.ctl.intake n).seq = ((c.intake n).seq + 1) % 2 ^ 32
    let closed (n : Nat) (t : State) : Prop := next n t ∧ counted .intFrame n 1 s t ∧ (t.ctl.intake n).ended = (c.intake n).ended ∧
      ∀ k ∈ landKeys (c.cfg n) (c.intake n).next, t.ctl.slotFull k = true ∧ t.ctl.slotVoided k = false
    (csiContexts c h = [] → ∀ p, ∀ i ∈ [Instr.csi2FrameStart h, .csi2LongPacket h p, .csi2FrameEnd h],
      reaches i s c ∧ completes i s (counted .intUnmatched r 1 s)) ∧
    (csiContexts c h ≠ [] → (∀ n ∈ csiContexts c h, (c.intake n).busy = false ∧ (c.intake n).dropping = false) →
      completes (.csi2FrameStart h) s fun t => sameMem s t ∧ t.ctl.slotTags = c.slotTags ∧
        ∀ n ∈ csiContexts c h,
          ((c.intake n).frozen = true ∨ full n = true →
            counted .intDrop n 1 s t ∧ t.ctl.intake n = { c.intake n with
              dropping := true, length := 0, dropped := min ((c.intake n).dropped + 1) 0xFFFF, heard := c.clk.ns }) ∧
          ((c.intake n).frozen = false → full n = false →
            t.ctl.intake n = { c.intake n with
              busy := true, length := 0, short := false, long := false, err := false, tail := [], filled := 0, tStart := 0,
              heard := c.clk.ns })) ∧
    (∀ n p, (csiContexts c h).find? (fun n => bits (c.cfg n).src 9 4 = h.dt) = some n → (c.intake n).busy = true →
      (c.intake n).dropping = false → open' n →
      let k := c.cfg n
      let x := c.intake n
      let ty := (csiType (bits k.src 9 4)).getD (1, 8)
      let whole := bits k.src 31 16 * ty.1
      let words := cdiv (whole * k.elem) 32
      let row := slice (p.components.flatMap fun v => (csiElement k.fmt ty.2 (bits k.src 13 10) v).1) 0 (32 * words)
      x.length < bits k.src 47 32 → p.components.length = whole → 0 < words →
      completes (.csi2LongPacket h p) s fun t => t.ctl.slotTags = c.slotTags ∧
        t.mem = s.mem.apply (runWrite s.mem (lineAddr k (c.relay n) x.next x.length) row k.tagFormat (!p.crcGood)) ∧
        t.ctl.intake n = { x with
          length := x.length + 1, err := x.err || !p.crcGood, tStart := if x.length = 0 then c.clk.device else x.tStart,
          heard := c.clk.ns } ∧
        (p.crcGood = false → counted .intCrc r 1 s t) ∧ (p.overflow = true → counted .intOverflow r 1 s t)) ∧
    (∀ n, csiContexts c h = [n] → (c.intake n).busy = true → bits (c.cfg n).src 47 32 ≤ (c.intake n).length →
      (open' n → completes (.csi2FrameEnd h) s fun t => closed n t ∧
        t.mem = s.mem.apply (stampWrites s.mem n (frameOf c (c.intake n)) false c)) ∧
      ((c.intake n).blocked.isSome = true → completes (.csi2FrameEnd h) s fun t => next n t ∧ sameMem s t ∧
        t.ctl.slotTags = c.slotTags ∧ (t.ctl.intake n).ended = (c.intake n).ended ++ [frameOf c (c.intake n)])) ∧
    (∀ n, n < 32 →
      let due := (c.intake n).heard + 1000000 * c.param 0x0C90
      (c.clk.ns < due → exec (.intakeFrameTimeout n) s = .next s) ∧
      (due ≤ c.clk.ns → (c.intake n).busy = true → open' n →
        completes (.intakeFrameTimeout n) s fun t => closed n t ∧ ((c.intake n).short = false → counted .intShort n 1 s t)))

/-- Ethernet and TDM blocks and the relay. A payload begins a block with its first bytes, one without a context is counted
and dropped; a TDM frame adds its samples; the relay copies the oldest full slot word by word, unless a copy of a
Gale-triggered stream is due, sets the relay slot full and the landing slot empty, and waits where the relay slot is full; a
disable that has lasted 100 ms, and none before, is forced, which voids the slot in progress. [Rests on R380, R381, R382,
R384, R385, R387, R388; what it holds of the model's own choices and readings: log entries 93, 123] -/
def Obligations.BlocksAndRelaysMove : Prop :=
  ∀ s : State, s.ready → s.ctl.pins.padHold = false →
    let c := s.ctl
    (∀ port bitCount samples, c.pins.portsOff = true →
      (∀ n, 48 ≤ n → n < 64 → (c.intake n).on = true → bits (c.cfg n).src 1 0 ≠ port % 4) → exec (.tdmFrame port bitCount samples) s = .next s) ∧
    (c.pins.portsOff = false →
    let fresh (n : Nat) : Prop := (c.intake n).busy = false ∧ (c.intake n).dropping = false ∧ (c.intake n).frozen = false ∧
      (∀ f ∈ (c.intake n).ended, f.slot ≠ (c.intake n).next) ∧ (c.intake n).blocked = none ∧ c.plane.copying = none ∧
      (landKeys (c.cfg n) (c.intake n).next).any c.slotFull = false
    let filled (n : Nat) (bs : List Byte) (len : Nat) (t : State) : Prop :=
      t.ctl.slotTags = c.slotTags ∧
      t.mem = s.mem.apply (if bs.length < 32 then [] else
        runWrite s.mem (landBase (c.cfg n) (c.relay n) 0 (c.intake n).next) (bs.take (bs.length / 32 * 32)) (c.cfg n).tagFormat false) ∧
      t.ctl.intake n = { c.intake n with
        busy := true, length := len, short := false, long := false, err := false, tStart := c.clk.device, filled := bs.length,
        tail := bs.drop (bs.length / 32 * 32), heard := c.clk.ns }
    (∀ f : EthFrame, f.overflow = false → bit (c.param (0x0C88 + f.port % 2)) 48 = true →
      (f.goodChecks = false → reaches (.ethIntakeFrame f) s c ∧ completes (.ethIntakeFrame f) s (counted .intEthFcs (f.port % 2) 1 s)) ∧
      (f.goodChecks = true → f.fragment = false → f.bytes ≤ 9216 →
        (f.destination = bits (c.param (0x0C88 + f.port % 2)) 47 0 ∨ f.multicast = true) →
        (((List.range 16).map (· + 32)).find? (ethMatches c f) = none →
          reaches (.ethIntakeFrame f) s c ∧ completes (.ethIntakeFrame f) s (counted .intUnmatched (8 + f.port % 2) 1 s)) ∧
        (∀ n, ((List.range 16).map (· + 32)).find? (ethMatches c f) = some n → bit (c.cfg n).src 3 = false → fresh n →
          let data := f.payload.drop (bits (c.cfg n).src 39 32)
          data.length ≤ (c.cfg n).space → completes (.ethIntakeFrame f) s (filled n data data.length)))) ∧
    (∀ port bitCount samples,
      let cfg := c.param (0x0C8C + port % 4)
      let slotBits := 16 + 8 * bits cfg 3 2
      let dataBits := 16 + 8 * bits cfg 4 4
      let ns := ((List.range 16).map (· + 48)).filter fun n => (c.intake n).on && bits (c.cfg n).src 1 0 = port % 4
      bit cfg 9 = true →
      (bitCount ≠ 2 * 2 ^ bits cfg 1 0 * slotBits → ns = [] →
        reaches (.tdmFrame port bitCount samples) s c ∧ completes (.tdmFrame port bitCount samples) s (counted .intTdmSync (port % 4) 1 s)) ∧
      (∀ n, bitCount = 2 * 2 ^ bits cfg 1 0 * slotBits → ns = [n] → fresh n → 1 < bits (c.cfg n).src 32 20 →
        let els := ((List.range 16).filter fun i => bit (bits (c.cfg n).src 19 4) i).flatMap fun i =>
          sampleElement (c.cfg n).fmt dataBits (samples.getD i 0 % 2 ^ slotBits / 2 ^ (slotBits - dataBits))
        els.length ≤ (c.cfg n).space → completes (.tdmFrame port bitCount samples) s (filled n els 1))) ∧
    (∀ n sl, n < 64 → (c.cfg n).land = 2 →
      let k := c.cfg n
      let rl := c.relay n
      relayNext c n = some sl →
      ((∃ p < k.parts rl, c.copyHolds (relayBase k rl p sl) = true) → exec (.relayCopy n) s = .next s) ∧
      (c.plane.copying = none →
      ((relayKeys rl sl).any c.slotFull = true → (c.intake n).relayWait = true → exec (.relayCopy n) s = .next s) ∧
      ((relayKeys rl sl).any c.slotFull = true → (c.intake n).relayWait = false →
        reaches (.relayCopy n) s (c.setIntake n { c.intake n with relayWait := true }) ∧
        completes (.relayCopy n) s (counted .intRelayWait n 1 s)) ∧
      ((relayKeys rl sl).any c.slotFull = false → relayBehind c n = true → exec (.relayCopy n) s = .next s) ∧
      ((relayKeys rl sl).any c.slotFull = false → relayBehind c n = false → (∀ y ∈ relayKeys rl sl, y ∉ landKeys k sl) →
        let voided := (landKeys k sl).any c.slotVoided
        completes (.relayCopy n) s fun t =>
          t.mem = s.mem.apply ((List.range (k.parts rl)).flatMap fun p => (List.range k.slotWords).flatMap fun i =>
            let w := s.mem.readWord (landBase k rl p sl / 32 + i)
            wholeWord (relayBase k rl p sl / 32 + i) w.data (w.format + 8 * b2n (w.poison || voided))) ∧
          (∀ y ∈ relayKeys rl sl, t.ctl.slotFull y = true ∧ t.ctl.slotVoided y = voided) ∧
          (∀ y ∈ landKeys k sl, t.ctl.slotFull y = false) ∧ (t.ctl.intake n).relayWait = false))) ∧
    (∀ n, n < 64 → (c.intake n).stopping = true → c.clk.ns < (c.intake n).stopAt + 100000000 → exec (.disableTimeout n) s = .next s) ∧
    (∀ n, n < 64 → (c.intake n).stopping = true → (c.intake n).stopAt + 100000000 ≤ c.clk.ns →
      completes (.disableTimeout n) s fun t =>
        (t.ctl.intake n).on = false ∧ (t.ctl.intake n).stopping = false ∧ (t.ctl.intake n).busy = false ∧
        ((c.intake n).busy = true → ∀ k ∈ landKeys (c.cfg n) (c.intake n).next, t.ctl.slotFull k = true ∧ t.ctl.slotVoided k = true)))

/-! ### Crosswind (14) -/

/-- The packet commands of the link, with their TYPEs. -/
def packetCommands (pk : XwPacket) : List (Nat × Instr) :=
  [(0, .xwWordsPacket pk), (1, .xwZeroMaskPacket pk), (2, .xwReducePacket pk), (3, .xwRunStart pk), (4, .xwRunEnd pk),
   (5, .xwConfigRelay pk)]

/-- What a port has once a packet that arrived in order and good is acknowledged. -/
def acked (c : Ctl) (pk : XwPacket) : Ctl :=
  pushControl pk.port 0x02 [pk.seq] (c.setPort pk.port { c.port pk.port with rxSeq := (c.port pk.port).rxSeq + 1, asked := 0 })

/-- Packets of every TYPE: the symbols that its codewords corrected are counted, and of those that could not be, each
codeword; one that is damaged, whose tag its link's key does not give, or out of order asks for a replay from the SEQ
expected and has no other effect; one in order is acknowledged; one for another member goes on towards it, or waits where the
replay buffer has no room; one of TYPE 6 to 255, with a reserved field set or of another group epoch is refused. [Rests on
R430, R431, R435; what it holds of the model's own choices and readings: log entries 25, 37, 132] -/
def Obligations.CrosswindReceivesInOrder : Prop :=
  ∀ (s : State) (pk : XwPacket) (q : Nat × Instr), s.ready → q ∈ packetCommands pk →
    let c := noteSymbols pk.port pk.symbols s.ctl
    let x := c.port pk.port
    let good : Prop := pk.uncorrectable = 0 ∧ packetGood x q.1 pk = true ∧ pk.seq = x.rxSeq
    let refused (st : KS) : Prop := reaches q.2 s (pushControl pk.port 0x05 [pk.seq, st.code] (acked c pk))
    (s.ctl.linkUp pk.port = false → exec q.2 s = .next s) ∧
    (s.ctl.linkUp pk.port = true → ¬good →
      (x.asked + 1 < 8 → reaches q.2 s (pushControl pk.port 0x03 [x.rxSeq] (c.setPort pk.port { x with asked := x.asked + 1 }))) ∧
      (7 ≤ x.asked → pk.port < c.group.ports.length → completes q.2 s fun t => sameMem s t ∧ (t.ctl.port pk.port).up = false) ∧
      (0 < pk.uncorrectable → completes q.2 s (counted .xwFecUncorr pk.port pk.uncorrectable s)) ∧
      (pk.uncorrectable = 0 → packetGood x q.1 pk = false → completes q.2 s (counted .xwAuthFail pk.port 1 s))) ∧
    (s.ctl.linkUp pk.port = true → good → pk.dst ≠ c.member →
      (∀ p, portTo (acked c pk) pk.dst pk.link = some p → pk.dst < 4 → p ≠ pk.port →
        reaches q.2 s (pushPacket p q.1 pk (acked c pk)) ∧ completes q.2 s (counted .xwRelay 0 1 s)) ∧
      (portTo (acked c pk) pk.dst pk.link = none → reaches q.2 s (acked c pk))) ∧
    (s.ctl.linkUp pk.port = true → ¬(good ∧ pk.dst = c.member) → completes q.2 s (counted .xwFecCorr pk.port pk.corrected s)) ∧
    (s.ctl.linkUp pk.port = true → good → pk.dst = c.member →
      (6 ≤ pk.badType → refused .badType) ∧
      (pk.badType < 6 → pk.flags / 4 ≠ 0 ∨ pk.reserved ≠ 0 → refused .badReserved) ∧
      (pk.badType < 6 → pk.flags / 4 = 0 → pk.reserved = 0 → pk.groupEpoch ≠ c.group.epoch % 2 ^ 32 → refused .groupHeld))

/-- Packets that are taken: the words of TYPE 0 and 1 land in their slot part, with their tag bytes, and the one marked LAST
sets it full; a contribution whose turn it is is added to its accumulator slot, and the last one of the last source sets it
full, or ends its job where its words do not suit; a full slot, a store that is being copied, or a turn not come, holds the
packet back; a run start begins the run or waits behind one, but not while the device leaves RUN; a run end ends the job, or
with KS_OK the run that it names; a configuration change of the lead, and of no other member, is staged by its TYPE code
under its number, or refused with the status that the request would have; the lead notes which member can commit a change,
and a member that the lead lets commit it, or drops it. [Rests on R430, R431, R438, R440, R441, R442, R443, R444, R475, R483,
R541; what it holds of the model's own choices and readings: log entries 25, 34, 35, 36, 120] -/
def Obligations.CrosswindPacketsTakeEffect : Prop :=
  ∀ (s : State) (pk : XwPacket), s.ready →
    let c := s.ctl
    let c₀ := noteSymbols pk.port pk.symbols c
    let got := acked c₀ pk
    let good (type : Nat) : Prop := packetGood (c.port pk.port) type pk = true
    let refused (i : Instr) (st : KS) : Prop := reaches i s (pushControl pk.port 0x05 [pk.seq, st.code] got) ∧
      completes i s (counted .xwRefused pk.port 1 s)
    c.linkUp pk.port = true → pk.uncorrectable = 0 → pk.seq = (c.port pk.port).rxSeq →
    pk.dst = c.member → pk.badType < 6 → pk.flags / 4 = 0 → pk.reserved = 0 → pk.groupEpoch = c.group.epoch % 2 ^ 32 →
    (∀ blocks ws n j e a,
      let i := if blocks = true then Instr.xwZeroMaskPacket pk else .xwWordsPacket pk
      good (b2n blocks) → packetWords blocks pk = some (ws, n) → packetTarget pk false pk.wordOffset n c = some (j, e, a) →
      (c.slotFull (e.slotKey pk.tile pk.slot) = true ∨ c.copyHolds a = true → exec i s = .next s) ∧
      (c.slotFull (e.slotKey pk.tile pk.slot) = false → c.copyHolds a = false → completes i s fun t =>
        t.mem = s.mem.apply (ws.flatMap fun q => wholeWord (a / 32 + q.1) q.2.data (q.2.tag.toNat % 16)) ∧
        (bit pk.flags 1 = false → t.ctl.slotTags = c.slotTags) ∧
        (bit pk.flags 1 = true → t.ctl.slotFull (e.slotKey pk.tile pk.slot) = true ∧
          ∀ k, k ≠ e.slotKey pk.tile pk.slot → t.ctl.slotFull k = c.slotFull k) ∧
        (pk.port < c.group.ports.length → (t.ctl.port pk.port).rxSeq = pk.seq + 1))) ∧
    (∀ j e a, good 2 → 0 < pk.count → pk.count ≤ 128 → pk.words.length = pk.count → packetTarget pk true 0 1 c = some (j, e, a) →
      windowBit c (32 + pk.port) a e.slotBytes = true →
      let h := lDstHandle (j.link pk.link)
      let turn : Prop := c.slotFull (e.slotKey 0 pk.slot) = false ∧ c.copyHolds a = false ∧ nextReducer c j h pk.slot = some pk.link
      (¬turn → exec (.xwReducePacket pk) s = .next s) ∧
      (∀ st, turn → j.linkScales.getD pk.link 0 = 0 →
        contribution32 e.accs (c.group.scalesOf j.no pk.link pk.slot) pk.wordOffset pk.words = .error st →
        completes (.xwReducePacket pk) s fun t => endedJob t j.no) ∧
      (∀ first xs, turn → j.linkScales.getD pk.link 0 = 0 →
        contribution32 e.accs (c.group.scalesOf j.no pk.link pk.slot) pk.wordOffset pk.words = .ok (first, xs) →
        completes (.xwReducePacket pk) s fun t =>
          t.mem = s.mem.apply (accumulate s.mem (e.addr 0 (pk.slot * e.slotBytes)) e.accs first xs) ∧
          (bit pk.flags 1 = false → t.ctl.slotTags = c.slotTags) ∧
          (∀ d, bit pk.flags 1 = true → c.group.done? j.no h pk.slot = some d → (∀ i ∈ j.reducers h, i ∈ d ∨ i = pk.link) →
            t.ctl.slotFull (e.slotKey 0 pk.slot) = true))) ∧
    (∀ j, c.job? pk.jobNo = some j → j.grouped = true → j.ended = false →
      let d := (pk.words.headD { tag := 0, data := [] }).data
      (good 3 → pk.src = c.group.lead → c.isLead = false → j.waiting = none → c.jobFrozen j.no = false →
        (c.power.stage ≠ .on → refused (.xwRunStart pk) .powerState) ∧
        (c.power.stage = .on → completes (.xwRunStart pk) s fun t => sameMem s t ∧ withJob t pk.jobNo fun k =>
          let time := beNat (slice d 18 8)
          (j.running = none → k.waiting = none ∧ ∃ r, k.running = some r ∧ r.triggerTime = time ∧ r.seq = j.runSeq) ∧
          (∀ r₀, j.running = some r₀ → k.running = some r₀ ∧ ∃ r, k.waiting = some r ∧ r.triggerTime = time ∧ r.seq = j.runSeq))) ∧
      (∀ st, good 4 → KS.ofCode (beNat (slice d 0 2)) = some st →
        (st ≠ .ok → j.running.isSome = true → completes (.xwRunEnd pk) s fun t => endedJob t pk.jobNo) ∧
        (∀ r₀, st = .ok → (d.getD 2 0).toNat = 0 → j.running = some r₀ →
          (r₀.seq ≠ beNat (slice d 3 4) → reaches (.xwRunEnd pk) s got) ∧
          (r₀.seq = beNat (slice d 3 4) → j.abortReq = none → j.endReq = none → j.endAtRun = 0 → c.xfers = [] → c.ctxs = [] →
            completes (.xwRunEnd pk) s fun t => withJob t pk.jobNo fun k =>
              k.ended = false ∧ k.running = promoted c j ∧ k.waiting = none ∧ k.exec = j.exec.afresh)) ∧
        (st = .ok → (d.getD 2 0).toNat ≠ 0 → j.running = none → completes (.xwRunEnd pk) s fun t => endedJob t pk.jobNo))) ∧
    (good 5 →
      let w := pk.words.flatMap fun w => slice w.data 0 32
      let d := slice (w.drop 4) 0 (min (beNat (slice w 0 2)) 4096)
      let code := (w.getD 2 0).toNat
      let no := beNat (slice d 0 4)
      let staged (ch : Change) : Ctl := got.withProto fun p => { p with
        staged := p.staged ++ [{ change := ch, grouped := true, req := none, at' := c.clk.ns, deadline := c.param 0x0D01,
                                 number := pk.slot, payload := d }] }
      let refused := refused (.xwConfigRelay pk)
      (c.isLead = false → pk.src ≠ c.group.lead → refused .badReserved) ∧
      (c.isLead = false → pk.src = c.group.lead → c.journalFull = true → code ∈ [0x03, 0x32, 0x33] →
        refused .journalFull ∧ completes (.xwConfigRelay pk) s (counted .secJournalFull 0 1 s)) ∧
      (c.isLead = false → pk.src = c.group.lead → code ∉ [0x03, 0x10, 0x30, 0x31, 0x32, 0x33, 0x91, 0x93, 0x94] → refused .badType) ∧
      (c.isLead = true → code ∉ [0x90, 0x92] → refused .badType) ∧
      (c.isLead = true → code = 0x92 → c.proto.staged = [] → reaches (.xwConfigRelay pk) s (got.withGroup fun g => { g with
        agreed := SMap.put 0 g.agreed pk.src pk.slot })) ∧
      (∀ j, c.isLead = true → code = 0x90 → c.job? pk.jobNo = some j → j.admitReq.isSome = true → (∃ k ∈ j.admitLeft, k ≠ pk.src) →
        reaches (.xwConfigRelay pk) s (got.mapJob pk.jobNo fun k => { k with admitLeft := j.admitLeft.filter (· ≠ pk.src) })) ∧
      (c.isLead = false → pk.src = c.group.lead →
        (code = 0x93 → c.proto.staged = [] → reaches (.xwConfigRelay pk) s (got.withGroup fun g => { g with go := pk.slot })) ∧
        (∀ x, code = 0x94 → c.proto.staged.find? (fun x => x.grouped && x.number == pk.slot) = some x → x.req = none →
          completes (.xwConfigRelay pk) s fun t => sameMem s t ∧ t.ctl.params = c.params ∧ t.ctl.proto.epoch = c.proto.epoch ∧
            t.ctl.proto.staged = c.proto.staged.filter (· ≠ x)) ∧
        (c.journalFull = false → code = 0x03 → ∀ es, parseEntries 32 d = some (es, true) →
          (∀ e ∈ es, memberSpecific e.1 = false) →
          let vals := es.map fun e => (e.1, e.2.2)
          (firstBad (valueAfter c vals) 0 es = none → reaches (.xwConfigRelay pk) s (staged (.params vals))) ∧
          (∀ n st, firstBad (valueAfter c vals) 0 es = some (n, st) → refused st)) ∧
        (c.journalFull = false → code = 0x33 →
          ((∃ b ∈ c.store.bundles, b.no = no) → reaches (.xwConfigRelay pk) s (staged (.bundleRemove no))) ∧
          ((∀ b ∈ c.store.bundles, b.no ≠ no) → refused .noBundle))))

/-- A member in service is lost: its state, the ends of the group's jobs, the lead that remains. -/
def memberGone (s t : State) (member st : Nat) : Prop :=
  t.ctl.group.state = s.ctl.group.state.set member st ∧ counted .xwMemberLost 0 1 s t ∧
  (∀ j ∈ s.ctl.jobs, j.grouped = true → j.ended = false → ∀ k, t.ctl.job? j.no = some k → k.ended = true) ∧
  let left := s.ctl.group.serving.filter (· ≠ member)
  (2 ≤ left.length → some t.ctl.group.lead = left.head?) ∧ (left.length < 2 → t.ctl.group.lead = 0xFF) ∧
  (2 ≤ left.length ∧ s.ctl.member ∈ left → t.ctl.group.formed = true) ∧
  (¬(2 ≤ left.length ∧ s.ctl.member ∈ left) → t.ctl.group.formed = false)

/-- A member enters service: the lead is the lowest-numbered member that then serves (R436). -/
def memberServes (member : Nat) (g : Group) : Group :=
  let states := g.state.set member 0
  { g with state := states, formed := true, lead := ((List.range 4).find? fun k => states.getD k 0xFF == 0).getD 0xFF }

/-- Control blocks of a link that is up: an acknowledgement frees the replay buffer up to its SEQ; a replay request resends
from its SEQ, and the eighth for one SEQ takes the link down; a credit is held, one for a job not yet here too, or goes on to
the member that it is for; a refusal ends the job of the packet it names, whatever its TYPE, or answers the admission that
waits with the member's number, or drops the change; a time probe gives the offset to the lead, and beyond 1 µs the member is
held out; a heartbeat gives a member's state and the members that it reaches, the lead sends a member that lags the change
that comes next, a member held out enters when it has caught up, the lowest-numbered member in service then leading, and one
that was lost or refused does not; an alignment codeword is noted; a reserved block is counted. [Rests on R59, R428, R429,
R431, R435, R436, R438, R439, R440, R442, R445; what it holds of the model's own choices and readings: log entries 25, 35,
37, 39] -/
def Obligations.CrosswindControlBlocks : Prop :=
  ∀ (s : State) (p : Nat), s.ready → s.ctl.linkUp p = true →
    let c := s.ctl
    let x := c.port p
    (∀ seq, seq < x.txSeq → exec (.xwAcknowledge p seq) s = .next (s.withCtl (c.setPort p
      { x with replay := x.replay.filter fun q => seq < q.2.seq, replays := 0 }))) ∧
    (∀ seq, seq < x.txSeq →
      let n := if x.replay.any (fun q => q.2.seq < seq) then 1 else x.replays + 1
      completes (.xwReplayRequest p seq) s (counted .xwReplay p 1 s) ∧
      (n < 8 → reaches (.xwReplayRequest p seq) s (c.setPort p
        { x with replay := x.replay.filter fun q => seq ≤ q.2.seq, replays := n, resend := some seq })) ∧
      (8 ≤ n → p < c.group.ports.length → completes (.xwReplayRequest p seq) s fun t => sameMem s t ∧ (t.ctl.port p).up = false)) ∧
    (∀ job link slot tile, (job, link, slot, tile) ∉ x.credits →
      (c.job? job = none ∨ (∃ j, c.job? job = some j ∧ link < j.links.length ∧ lSrc (j.link link) = c.member) →
        exec (.xwCredit p job link slot tile) s = .next (s.withCtl (c.setPort p
          { x with credits := x.credits ++ [(job, link, slot, tile)] }))) ∧
      (∀ j q, c.job? job = some j → link < j.links.length → lSrc (j.link link) ≠ c.member →
        portTo c (lSrc (j.link link)) link = some q → q ≠ p →
        exec (.xwCredit p job link slot tile) s = .next (s.withCtl (pushControl q 0x04 [job, link, slot, tile] c)))) ∧
    (∀ seq status ty pk st, (x.out.filter fun q => q.2.seq == seq).getLast? = some (ty, pk) → KS.ofCode status = some st →
      let waits := (c.job? pk.jobNo).bind (·.admitReq)
      (∀ j, st ≠ .ok → c.job? pk.jobNo = some j → j.grouped = true → j.ended = false →
        (ty ≠ 5 ∧ j.running.isSome = true) ∨ (ty = 5 ∧ waits = none ∧ pk.slot = 0) →
        completes (.xwRefusal p seq status) s fun t => endedJob t pk.jobNo) ∧
      (∀ r, ty = 5 → waits = some r → c.proto.sa.getD r.port false = true →
        completes (.xwRefusal p seq status) s fun t => endedJob t pk.jobNo ∧
          replies s t r 0x10 st [List.replicate 7 0 ++ [byte pk.dst]]) ∧
      (∀ y, ty = 5 → waits = none → pk.slot ≠ 0 →
        c.proto.staged.find? (fun y => y.grouped && y.req.isSome && y.number == pk.slot) = some y →
        completes (.xwRefusal p seq status) s fun t => sameMem s t ∧ t.ctl.params = c.params ∧
          t.ctl.proto.staged = c.proto.staged.filter (· ≠ y) ∧ counted .svcNotApplied 0 1 s t)) ∧
    (∀ probe sent peerReceived received : Nat,
      let twice := ((received : Int) - sent) - ((peerReceived : Int) - x.probe.2.1)
      let off := if 0 ≤ twice then (twice + 1) / 2 else -((1 - twice) / 2)
      let c' := (c.setPort p { x with probe := (max x.probe.1 probe, x.probe.2.1, received) }).withGroup fun g => { g with offset := off }
      let own := c.group.state.getD c.member 0xFF
      x.probe.2.1 ≠ 0 → peerReceived ≠ 0 → portPeer c p = c.group.lead → c.isLead = false →
      (own = 0 → off.natAbs ≤ 1000 → exec (.xwTimeProbe p probe sent peerReceived received) s = .next (s.withCtl c')) ∧
      (own = 0 → 1000 < off.natAbs → c.group.formed = true → c.member < 4 →
        completes (.xwTimeProbe p probe sent peerReceived received) s fun t => memberGone s t c.member 2 ∧
          t.ctl.group.offset = off ∧ counted .xwHoldOut 0 1 s t) ∧
      (own = 2 → off.natAbs ≤ 500 → exec (.xwTimeProbe p probe sent peerReceived received) s =
        .next (s.withCtl (c'.withGroup (memberServes c.member))))) ∧
    (∀ member epoch st links, member < 4 → member ≠ c.member → bit (c.param 0x0E01) member = true →
      let beat := Instr.xwHeartbeat p member epoch st links
      let old := c.group.state.getD member 0xFF
      let here := c.group.epoch % 2 ^ 64
      let heard := c.withGroup fun g => { g with
        reach := SMap.put 0xF g.reach member (((List.range 4).map fun k => if k ∈ links then 2 ^ k else 0).sum) }
      (c.group.formed = true →
        (old = 0 → st = 0 ∨ 4 ≤ st → exec beat s = .next (s.withCtl heard)) ∧
        (old = 0 → 1 ≤ st → st ≤ 3 → completes beat s fun t => memberGone s t member st) ∧
        (old = 2 ∨ old = 3 → st < 4 → (st = 0 → epoch = here) → (old = 3 → here ≤ epoch) →
          exec beat s = .next (s.withCtl (heard.withGroup
            (if st = 0 then memberServes member else fun g => { g with state := g.state.set member st })))) ∧
        (old ≠ 0 → old ≠ 2 → old ≠ 3 → exec beat s = .next (s.withCtl heard)) ∧
        (old = 3 → epoch < here → c.isLead = true → SMap.get 0 c.group.sentTo member ≠ epoch + 1 →
          let sent := heard.withGroup fun g => { g with sentTo := SMap.put 0 g.sentTo member (epoch + 1) }
          (∀ ch es, c.group.changes.find? (fun x => x.1 = epoch + 1) = some (epoch + 1, ch) → ch = .params es →
            (readEntries c (es.map (·.1))).isSome = true → ∃ payload,
              reaches beat s (sendConfig member epoch 0x03 0 payload sent)) ∧
          (c.group.changes.find? (fun x => x.1 = epoch + 1) = none → reaches beat s sent))) ∧
      (c.group.formed = false → c.member < 4 → c.group.state.getD c.member 0xFF = 3 → member = c.group.lead → st = 0 → epoch = here →
        exec beat s = .next (s.withCtl (heard.withGroup (memberServes c.member))))) ∧
    (∀ lane n port, lane < 5 → exec (.xwAlignment p lane n port) s = .next (s.withCtl (c.setPort p
      { x with aligned := SMap.put 0 x.aligned lane n, alignedTo := SMap.put 0 x.alignedTo lane port }))) ∧
    (∀ kind, 8 ≤ kind → reaches (.xwReservedBlock p kind) s c ∧ completes (.xwReservedBlock p kind) s (counted .xwBadBlock p 1 s))

/-- What a member sends, and its links. The port engine gives the credits that it can, then sends a resend, or the packet of
the part that its order chooses, sealed under the link's key, Gale first and then by turns of LINK, with packets that wait
for their turn; a part without a credit waits and the others go on; packets wait where the replay buffer has no room; with
nothing to send an idle block goes out, and a spare port that stands by carries nothing. Heartbeats and time probes go out; a
lane that loses lock or passes the error limit gives its traffic to the spare lane, a second one takes the port down, and a
port's traffic moves to its spare port with the replay buffer; a member that is lost ends the group's jobs; a link that
trains has new keys and counts its packets from 0. [Rests on R428, R429, R430, R432, R433, R434, R439, R441, R445, R455; what
it holds of the model's own choices and readings: log entries 5, 25, 40, 41, 42, 124, 132] -/
def Obligations.CrosswindSendsAndSpares : Prop :=
  ∀ (s : State) (p : Nat), s.ready → p < 4 → p < s.ctl.group.ports.length →
    let c := s.ctl
    let x := c.port p
    (portStands c p = true → exec (.xwPacketSend p) s = .next s ∧ exec (.xwTimeProbeSend p) s = .next s) ∧
    (c.linkUp p = true → portStands c p = false →
      let c₁ := noteWaits p (grantCredits c)
      let x := c₁.port p
      -- packets of class `g` take their turn: no Gale one goes first
      let turn (g : Bool) : Prop := x.resend = none ∧ localReduce c₁ = none ∧
        (g = false → nextWaiting x true = none ∧ nextPart p true c₁ = none)
      let runs (P : State → Prop) : Prop := completes (.xwPacketSend p) s fun t => t.mem = s.mem.apply c₁.wq ∧ P t
      (∀ n y, x.resend = some n → x.replay.find? (fun y => y.2.seq = n) = some y →
        runs fun t => t.ctl.slotTags = c.slotTags ∧ t.ctl.port p =
          XwPort.emit { x with resend := if x.replay.any (fun z => z.2.seq == n + 1) then some (n + 1) else none } y) ∧
      (x.resend = none → localReduce c₁ = none → x.waiting = [] → (sendable c₁ p).any (·.2) = false →
        runs fun t => t.ctl.slotTags = c.slotTags ∧
          t.ctl.port p = XwPort.passed { x with control := x.control ++ [(0x00, [])] } p 1 ∧
          ∀ k, (k, false) ∈ sendable c₁ p → ∃ since, (k, since) ∈ (t.ctl.port p).waits) ∧
      (∀ g q, turn g → nextWaiting x g = some q → (∀ k, nextPart p g c₁ = some k → x.turn q.2.link ≤ x.turn k.2.1) →
        runs fun t => t.ctl.slotTags = c.slotTags ∧
          (replayRoom x q.2.words.length = false → t.ctl.port p = x) ∧
          (replayRoom x q.2.words.length = true → (t.ctl.port p).waiting = x.waiting.erase q ∧
            (t.ctl.port p).out = x.out ++ [(q.1, { q.2 with port := p, seq := x.txSeq })] ∧ (t.ctl.port p).txSeq = x.txSeq + 1)) ∧
      (∀ g k j e, turn g → nextPart p g c₁ = some k → (∀ q, nextWaiting x g = some q → x.turn k.2.1 < x.turn q.2.link) →
        c₁.job? k.1 = some j → c₁.xwOut j.bundle = true →
        j.handle? (lSrcHandle (j.link k.2.1)) = some e → replayRoom x 128 = true →
        runs fun t => ∃ ty pk,
          (t.ctl.port p).out = x.out ++ [(ty, pk)] ∧ (t.ctl.port p).replay = x.replay ++ [(ty, pk)] ∧
          (t.ctl.port p).wire = x.wire ++ [wireBlocks x.txKey ty pk] ∧
          (t.ctl.port p).txSeq = x.txSeq + 1 ∧ pk.seq = x.txSeq ∧ pk.src = c.member ∧ pk.dst = lDst (j.link k.2.1) ∧
          (pk.jobNo, pk.link, pk.slot, pk.tile) = k ∧ pk.groupEpoch = c.group.epoch % 2 ^ 32 ∧
          pk.wordOffset = ((x.sending.find? fun y => y.1 = k.1 && y.2.1 = k.2.1 && y.2.2.1 = k.2.2.1 && y.2.2.2.1 = k.2.2.2).map
            (·.2.2.2.2)).getD 0 ∧
          (bit pk.flags 0 = true ↔ j.cls = 0) ∧
          (bit pk.flags 1 = false → t.ctl.slotTags = c.slotTags) ∧
          (bit pk.flags 1 = true → (∀ y ∈ t.ctl.group.ports, k ∉ y.credits) ∧
            (lEmpties (j.link k.2.1) = true → ∀ u ∈ linkTiles j k.2.1 k.2.2.2 e, t.ctl.slotFull (e.slotKey u k.2.2.1) = false)))) ∧
    (c.member ≠ 0xFF → c.power.stage = .on → c.service.lee = false →
      completes .xwHeartbeatSend s fun t => sameMem s t ∧ t.ctl.port p = if c.linkUp p = true ∧ portStands c p = false then
        XwPort.passed { x with control := x.control ++ [(0x07, [c.member, c.group.epoch, c.group.state.getD c.member 0xFF])] } p 1
        else x) ∧
    (c.linkUp p = true → portStands c p = false → c.group.lead ≠ 0xFF → c.isLead = true ∨ portPeer c p = c.group.lead →
      exec (.xwTimeProbeSend p) s = .next (s.withCtl (c.setPort p (XwPort.passed { x with
        probe := (x.probe.1 + 1, c.clk.device, x.probe.2.2),
        control := x.control ++ [(0x06, [x.probe.1 + 1, c.clk.device, x.probe.2.2])] } p 1)))) ∧
    (∀ lane errors lost, c.linkUp p = true → lane < 5 → x.swapped ≠ some lane →
      -- symbols corrected on the lane in this second
      let here := (if x.laneSecond = c.clk.ns / 1000000000 then SMap.get 0 x.laneErrors lane else 0) + errors
      let noted := if errors = 0 then c else noteSymbols p (List.replicate lane 0 ++ [errors]) c
      let fails : Prop := lost = true ∨ c.param 0x0E03 < here
      let x := noted.port p
      (¬fails → exec (.xwLaneSwap p lane errors lost) s = .next (s.withCtl noted)) ∧
      (fails → x.swapped = none → lane < 4 →
        completes (.xwLaneSwap p lane errors lost) s fun t => sameMem s t ∧ counted .xwLaneSwap p 1 s t ∧
          t.ctl.port p = { x with swapped := some lane, resend := (x.replay.head?).map (·.2.seq) }) ∧
      (∀ l, fails → x.swapped = some l →
        exec (.xwLaneSwap p lane errors lost) s = .next (s.withCtl (noted.setPort p { x with up := false, waits := [] })))) ∧
    (portEnabled c p = true →
      let spare := (List.range 4).find? fun q =>
        portEnabled c q && portSpare c q && portPeer c q == portPeer c p && (c.port q).up && q ≠ p
      (spare = none → exec (.xwPortSwap p) s = .next (s.withCtl (c.setPort p { x with up := false, waits := [] }))) ∧
      (∀ q, spare = some q → c.group.spareFor = none → q < c.group.ports.length →
        let y := c.port q
        completes (.xwPortSwap p) s fun t => sameMem s t ∧ t.ctl.group.spareFor = some p ∧ counted .xwPortSwap 0 1 s t ∧
          (t.ctl.port p).up = false ∧ (t.ctl.port p).replay = [] ∧
          (t.ctl.port q).replay = y.replay ++ renumber q y.txSeq x.replay ∧ (t.ctl.port q).txSeq = y.txSeq + x.replay.length ∧
          (t.ctl.port q).credits = y.credits ++ x.credits ∧ (t.ctl.port q).waiting = y.waiting ++ x.waiting ∧
          (t.ctl.port q).frozen = y.frozen ++ x.frozen)) ∧
    (∀ member, c.group.formed = true → member ∈ c.group.serving →
      completes (.xwMemberLost member) s fun t => memberGone s t member 4) ∧
    (∀ mine peer pm pp,
      let trains (i : Instr) : Prop := completes i s fun t => sameMem s t ∧
        (t.ctl.port p).up = true ∧ (t.ctl.port p).idle = false ∧
        (t.ctl.port p).txKey = linkKey c mine peer c.member p ∧ (t.ctl.port p).rxKey = linkKey c peer mine pm pp ∧
        (t.ctl.port p).rxSeq = 0 ∧ (t.ctl.port p).txSeq = x.replay.length ∧
        (t.ctl.port p).replay.map (·.2.seq) = List.range x.replay.length
      (portEnabled c p = true → c.service.lee = false → c.pins.padHold = false → x.up = false →
        c.power.stage = .on ∨ c.power.stage = .link → trains (.xwLinkUp p mine peer pm pp)) ∧
      (c.linkUp p = true → 2 ^ 47 ≤ x.txSeq ∨ 2 ^ 47 ≤ x.rxSeq → trains (.xwRekey p mine peer pm pp)) ∧
      (x.txSeq < 2 ^ 47 → x.rxSeq < 2 ^ 47 → exec (.xwRekey p mine peer pm pp) s = .next s))

/-! ### Wakes, resets and power (15, 16, 18) -/

/-- The wake sequence, step by step: power good starts the boot ROM; the image that verifies runs, the other slot's where the
first does not, and with none the device stays with FAULT_N low until a wake tries again; training and the release of the
pads follow; with a secure association commands are accepted, a trial image becomes the active one, intake contexts start,
and after a loss of power a cell that failed the array self-test has its row retired. [Rests on R347, R456, R457, R458, R485,
R489, R491, R492, R499; what it holds of the model's own choices and readings: log entries 9, 10, 57, 62, 66] -/
def Obligations.WakeGoesStepByStep : Prop :=
  ∀ s : State, s.ready →
    let c := s.ctl
    (c.power.stage = .waitGood → exec .aonPwrGoodRise s = .next (s.withCtl { c with
      pins := { c.pins with aonPwrGood := true }, power := { c.power with stage := .boot } })) ∧
    (∀ okA okB, c.power.stage = .boot → c.power.hbmTrained = false →
      let ok (n : Nat) : Bool :=
        (if n = 0 then okA else okB) && imageGood c n && c.sec.slotSvn.getD n 0 != 0 && c.sec.svn ≤ c.sec.slotSvn.getD n 0
      let first := c.sec.nextSlot.getD c.sec.bootSlot
      let runs (t : State) : Prop := sameMem s t ∧ t.ctl.power.stage = .training ∧ t.ctl.power.opNow = c.param 0x1001 ∧
        t.ctl.pins = c.pins ∧ t.ctl.sec.svn = c.sec.svn
      (ok first = true → completes (.bootVerification okA okB) s fun t => runs t ∧
        t.ctl.sec.bootSlot = c.sec.bootSlot ∧ t.ctl.sec.trial = c.sec.nextSlot.isSome) ∧
      (ok first = false → ok (1 - first) = true → completes (.bootVerification okA okB) s fun t => runs t ∧
        t.ctl.sec.bootSlot = 1 - first ∧ t.ctl.sec.fallback = true ∧ t.ctl.sec.nextSlot = none ∧ counted .secBootFallback 0 1 s t) ∧
      (ok first = false → ok (1 - first) = false → exec (.bootVerification okA okB) s = .next (s.withCtl { c with
        service := { c.service with bootFault := true }, pins := { c.pins with faultN := false }
        power := { c.power with stage := .bootFailed, reachedAt := c.clk.ns } }))) ∧
    (∀ w, c.power.stage = .bootFailed → c.inEntry = false → bit c.power.wakeCfg 0 = true → c.pins.sysResetN = true → c.pins.refClk = true →
      completes (.aonWake w (bit c.power.wakeCfg 2)) s fun t => sameMem s t ∧ t.ctl.service.bootFault = false ∧
        t.ctl.power.wakeCause = 1 ∧ counted .pwrWake 1 1 s t ∧
        t.ctl.power.stage = if (c.pins.aonPwrReq && c.pins.aonPwrGood) = true then .boot else .waitGood) ∧
    (∀ failed, c.power.stage = .training → c.pins.padHold = true →
      completes (.hbmTrainingComplete failed) s fun t => sameMem s t ∧ t.ctl.power.hbmTrained = true ∧
        t.ctl.power.stage = .padHold ∧ t.ctl.store.failed = failed.filter (· < 64) ∧
        (bit t.ctl.service.leeCause 3 = true ↔ ∃ p ∈ failed, p < 64)) ∧
    (c.power.stage = .padHold → completes .padHoldRelease s fun t => sameMem s t ∧ t.ctl.power.stage = .link ∧
      t.ctl.pins = { c.pins with
        padHold := false, portsOff := c.service.lee, leeN := !c.service.lee, faultN := !(hardwareCauses c.service.leeCause || c.service.bootFault) }) ∧
    (∀ found, c.power.stage = .link → c.proto.sa.any id = true → c.power.target ≠ 2 → c.pins.coolantOk = true → c.inService = 16 →
      (c.service.leeCause = 0 → c.service.lee = false → bit (c.param 0x0E02) 0 = false →
        completes (.commandsAccepted true found []) s fun t => t.ctl.power.stage = .on ∧ t.ctl.power.target = 0 ∧
          t.ctl.service.lee = false ∧ t.ctl.jobs = c.jobs ∧
          (∀ n < 64, (c.intake n).held = true → (c.config n).enable = true → (t.ctl.intake n).on = true) ∧
          (∀ n, c.sec.trial = true → c.sec.nextSlot = some n →
            t.ctl.sec.bootSlot = n ∧ t.ctl.sec.nextSlot = none ∧ t.ctl.sec.trial = false ∧
            t.ctl.sec.svn = max c.sec.svn (c.sec.slotSvn.getD n 0))) ∧
      (∀ l p row col, c.service.leeCause = 0 → c.service.lee = false → c.physical l = some p → p < c.tiles.length → row < 256 →
        (c.tile p).retRows.length < 2 →
        completes (.commandsAccepted true found [(l, row, col)]) s fun t =>
          t.ctl.tile p = { c.tile p with retRows := (c.tile p).retRows ++ [builtIndex (c.tile p).retRows 258 row] }) ∧
      (bit c.service.leeCause 3 = true → c.service.lee = false →
        completes (.commandsAccepted true found []) s fun t => t.ctl.power.stage = .on ∧ t.ctl.service.lee = true ∧
          bit t.ctl.service.leeCause 3 = true)) ∧
    (c.power.target = 2 → ∀ ok found cells, exec (.commandsAccepted ok found cells) s = exec (.commandsAccepted ok found []) s) ∧
    ((c.power.stage ≠ .link ∨ c.proto.sa.any id = false) → ∀ ok found cells, exec (.commandsAccepted ok found cells) s = .next s)

/-- Every source of reset: the cause of Table 16.9 is kept, jobs and stores are lost, parameters, the epoch, the bundles and
what spares have replaced stay, and the device wakes again, or stays in reset while SYS_RESET_N is low or REF_CLK is lost.
Only a cold reset takes the time of the device; without VDD_AON nothing runs. [Rests on R457, R486, R495, R496, R498, R502,
R526, R529; what it holds of the model's own choices and readings: log entries 58, 59, 60, 61, 68, 135] -/
def Obligations.ResetsKeepWhatFlashKeeps : Prop :=
  ∀ s : State, s.ready →
    let c := s.ctl
    let lost (t : State) : Prop := t.ctl.jobs = [] ∧ t.ctl.params = c.params ∧ t.ctl.proto.epoch = c.proto.epoch ∧
      t.ctl.store.bundles = c.store.bundles ∧ t.ctl.sec.journal = c.sec.journal ∧ t.pending = s.pending ∧
      t.ctl.tiles = c.tiles ∧ t.ctl.group.spareFor = c.group.spareFor ∧
      (∀ p < c.group.ports.length, (t.ctl.port p).swapped = (c.port p).swapped ∧ (t.ctl.port p).up = false) ∧
      (∀ k, t.ctl.slotFull k = false) ∧ ∀ st < 17, ∀ a, storeOf a = some st → t.mem.byteAt a = 0
    let after (b : Nat) (t : State) : Prop := lost t ∧ t.ctl.power.resetCause = 2 ^ b ∧ t.ctl.power.wakeCause = 5 ∧
      counted .pwrReset b 1 s t ∧ t.ctl.clk.device = c.clk.device
    let again (t : State) : Prop :=
      t.ctl.power.stage = (if (t.ctl.pins.sysResetN && t.ctl.pins.refClk) = false then Stage.held
        else if (c.pins.aonPwrReq && t.ctl.pins.aonPwrGood) = true then .boot else .waitGood) ∧ t.ctl.pins.aonPwrReq = true
    (c.pins.aonPwrGood = true → c.pins.aonPwrReq = true → c.power.stage ≠ .dead →
      completes .aonPwrGoodFall s fun t => after 3 t ∧ again t ∧ t.ctl.pins.aonPwrGood = false) ∧
    (c.power.stage ≠ .dead → completes .sysResetN s fun t => after 1 t ∧ t.ctl.power.stage = .held ∧ t.ctl.pins.sysResetN = false) ∧
    (c.firmwareRuns = true → completes .watchdogReset s fun t => after 2 t ∧ again t) ∧
    (c.safetyRuns = true → completes .safetyCoreReset s fun t => after 3 t ∧ again t) ∧
    (c.clk.ns < c.power.wakeAt + 5000000000 → exec .bootAcceptanceTimeout s = .next s) ∧
    (c.sec.trial = true → c.power.stage ∈ [Stage.training, .padHold, .link] → c.power.wakeAt + 5000000000 ≤ c.clk.ns →
      completes .bootAcceptanceTimeout s fun t => after 4 t ∧ again t ∧ t.ctl.sec.nextSlot = none ∧ t.ctl.sec.fallback = true ∧
        t.ctl.sec.trial = false ∧ t.ctl.sec.bootSlot = c.sec.bootSlot) ∧
    (c.pins.aonPwrReq = true → c.power.stage ≠ .dead →
      completes .referenceLoss s fun t => after 6 t ∧ t.ctl.power.stage = .held ∧ t.ctl.pins.refClk = false) ∧
    (c.power.stage = .held → c.pins.refClk = true →
      completes .sysResetNRelease s fun t => sameMem s t ∧ again t ∧ t.ctl.pins.sysResetN = true) ∧
    (c.power.stage = .held → c.pins.sysResetN = true →
      completes .refClkReturn s fun t => sameMem s t ∧ again t ∧ t.ctl.pins.refClk = true) ∧
    completes .powerOn s (fun t => lost t ∧ t.ctl.power.resetCause = 1 ∧ t.ctl.power.wakeCause = 0 ∧
      t.ctl.counter .pwrReset 0 = 1 ∧ t.ctl.counter .pwrWake 0 = 1 ∧
      t.ctl.clk = State.reset.ctl.clk ∧ t.ctl.pins.padHold = true ∧ t.ctl.service = State.reset.ctl.service) ∧
    completes .vddAonLoss s fun t => lost t ∧ t.ctl.power.stage = .dead ∧ t.ctl.pins.aonPwrReq = false

/-- Entries, wakes and operating points: a device that was idle for PWR_IDLE_DELAY enters IDLE; when PWR_ENTRY_DRAIN has
passed what still runs ends; at the end of the entry the pads are held, the wake configuration is copied, and DORMANT and OFF
lose jobs and stores while SLEEP keeps them; an enabled source wakes the device with its cause, AON_WAKE at the level that
PIN_POL names, and a wake from SLEEP numbers the frozen objects from 1 again; a change of point takes effect between
commands, with none stopped inside, and restarts the plane clock's counter; temperature steps PWR_OP_NOW down by a point and
up by one, never above PWR_OP, and drives THERM_ALERT_N. [Rests on R28, R480, R483, R484, R485, R486, R491, R492, R493, R494,
R537; what it holds of the model's own choices and readings: log entries 57, 58, 59, 63, 113] -/
def Obligations.PowerStatesAndPoints : Prop :=
  ∀ s : State, s.ready →
    let c := s.ctl
    let woken (i : Instr) (k : Nat) : Prop := c.power.stage = .low →
      (c.power.target = 2 → completes i s fun t => sameMem s t ∧ t.ctl.power.wakeCause = k ∧ t.ctl.power.stage = .sleepExit ∧
        t.ctl.jobs = c.jobs ∧ t.ctl.proto.unsync = true ∧ t.ctl.clk.plane = 0 ∧ counted .pwrWake k 1 s t ∧
        t.ctl.sec.frozen.map (·.id) = (List.range c.sec.frozen.length).map (· + 1) ∧ t.ctl.sec.nextObject = c.sec.frozen.length + 1) ∧
      (c.power.target ≠ 2 → c.pins.sysResetN = true → c.pins.refClk = true → completes i s fun t => sameMem s t ∧
        t.ctl.power.wakeCause = k ∧ t.ctl.pins.aonPwrReq = true ∧ counted .pwrWake k 1 s t ∧
        t.ctl.power.stage = if (c.pins.aonPwrReq && c.pins.aonPwrGood) = true then .boot else .waitGood)
    let held (i : Instr) (k : Nat) : Prop := c.inEntry = true → c.power.wakeHeld = none →
      exec i s = .next (s.withCtl { c with power := { c.power with wakeHeld := some k } })
    let running (j : Job) : Prop := j.running.isSome = true ∧ j.ended = false
    (c.power.quiet < 1000 * c.param 0x1003 → exec .idleEntry s = .next s) ∧
    (c.power.stage = .on → c.power.idle = false → c.power.opNext = none → (∀ j ∈ c.jobs, ¬running j) →
      1000 * c.param 0x1003 ≤ c.power.quiet → reaches .idleEntry s { c with power := { c.power with idle := true } } ∧ completes .idleEntry s (counted .pwrIdle 0 1 s)) ∧
    (c.clk.ns < c.power.enterAt + 1000000 * c.param 0x1006 → exec .entryDrainTimeout s = .next s) ∧
    (c.power.stage = .entering → c.power.enterAt + 1000000 * c.param 0x1006 ≤ c.clk.ns → completes .entryDrainTimeout s fun t =>
      (∀ j ∈ c.jobs, running j → ∀ k, t.ctl.job? j.no = some k → k.ended = true) ∧
      ((c.jobs.map (·.no)).Nodup → (∀ n < 64, (c.intake n).frozen = true ∨
          ((c.intake n).busy = false ∧ (c.intake n).dropping = false ∧ (c.intake n).ended = [])) →
        t.ctl.power.stage = .powerDown ∧ t.ctl.power.enterReq = none)) ∧
    (c.power.stage = .powerDown → c.power.wakeHeld = none →
      let low (t : State) : Prop := t.ctl.power.stage = .low ∧ t.ctl.pins.padHold = true ∧ t.ctl.power.wakeCfg = c.param 0x1004 ∧
        t.ctl.power.wakeTimer = c.param 0x1005 ∧ t.ctl.params = c.params ∧ counted .pwrEntry (c.power.target - 2) 1 s t
      (c.power.target = 2 → completes .powerStateReached s fun t => low t ∧ sameMem s t ∧ t.ctl.jobs = c.jobs ∧
        t.ctl.slotTags = c.slotTags ∧ t.ctl.pins.aonPwrReq = true) ∧
      (c.power.target ≠ 2 → completes .powerStateReached s fun t => low t ∧ t.ctl.jobs = [] ∧ t.ctl.pins.aonPwrReq = false ∧
        (∀ st < 17, ∀ a, storeOf a = some st → t.mem.byteAt a = 0) ∧ (∀ a, regionOf a = .hbm → t.mem.byteAt a = 0) ∧
        ∀ f ∈ t.ctl.sec.frozen, f.kind = 6)) ∧
    (∀ w, bit c.power.wakeCfg 0 = true → woken (.aonWake w (bit c.power.wakeCfg 2)) 1) ∧
    (∀ w high, let seen := { c with pins := { c.pins with aonWake := high } }
      (high ≠ bit (if c.inEntry = true then c.param 0x1004 else c.power.wakeCfg) 2 →
        exec (.aonWake w high) s = .next (s.withCtl seen)) ∧
      (c.inEntry = true → c.power.wakeHeld = none → high = bit (c.param 0x1004) 2 → bit (c.param 0x1004) 0 = true →
        (w = true → bit (c.param 0x1004) 1 = false) →
        exec (.aonWake w high) s = .next (s.withCtl { seen with power := { c.power with wakeHeld := some 1 } }))) ∧
    (∀ port < 2, c.power.target ≠ 4 → bit c.power.wakeCfg (3 + port) = true → woken (.energyDetect port) (2 + port)) ∧
    (∀ port < 2, c.power.target ≠ 4 → bit (c.param 0x1004) (3 + port) = true → held (.energyDetect port) (2 + port)) ∧
    (bit c.power.wakeCfg 5 = true → c.power.wakeTimer ≠ 0 →
      let due := c.power.reachedAt + 1000000000 * c.power.wakeTimer
      (c.clk.ns < due → exec .wakeTimer s = .next s) ∧ (due ≤ c.clk.ns → woken .wakeTimer 4)) ∧
    (∀ op n, c.power.opNext = some op → c.power.stage = .on →
      (n < 3 → c.mayRetire = false ∨ c.galeIdle = false → exec (.operatingPointSwitch n) s = .next s) ∧
      (n < 3 → c.mayRetire = true → c.galeIdle = true →
        reaches (.operatingPointSwitch n) s { c with
          power := { c.power with opNow := op, opNext := none }, clk := { c.clk with plane := 0, planeFrac := 0 } } ∧
        (op ≠ c.power.opNow → completes (.operatingPointSwitch n) s (counted .pwrOpChange 0 1 s))) ∧
      (3 ≤ n → completes (.operatingPointSwitch n) s fun t => t.ctl.power.resetCause = 2 ^ 3)) ∧
    (∀ tj : Int, c.power.stage = .on ∨ c.power.stage = .entering → c.service.lee = false →
      let to' (n : Nat) : Ctl := { c with power := { c.power with throttle := n - c.param 0x1001, opNext := some n } }
      let limit : Int := c.param 0x1007
      (tj ≤ limit ∨ 2 ≤ c.power.opNow → exec (.throttleStepDown tj) s = .next s) ∧
      (limit < tj → c.power.opNow < 2 →
        reaches (.throttleStepDown tj) s (to' (max (c.power.opNow + 1) (c.power.opNext.getD 0))) ∧
        completes (.throttleStepDown tj) s (counted .pwrThrottle 0 1 s)) ∧
      (limit - 5 ≤ tj ∨ c.power.opNow ≤ c.param 0x1001 → exec (.throttleStepUp tj) s = .next s) ∧
      (tj < limit - 5 → c.param 0x1001 < c.power.opNow →
        exec (.throttleStepUp tj) s = .next (s.withCtl (to' (c.power.opNow - 1))))) ∧
    (∀ tj : Int, c.safetyRuns = true → exec (.thermAlert tj) s = .next (s.withCtl { c with pins := { c.pins with
      thermAlertN := if 115 ≤ tj then false else if tj ≤ 100 then true else c.pins.thermAlertN } }))

/-! ### Lee mode (17) -/

/-- The causes of Lee mode: while commands are accepted, a cause outside Lee mode enters it, which ends every job that is not
kept, goes to the lowest point and takes the Crosswind and intake ports down; in Lee mode a further cause is added; the last
cause that clears leaves the mode, and under XW_AUTOFORM the group forms again; with another left it stays. [Rests on R494,
R505, R506, R507, R508, R510; what it holds of the model's own choices and readings: log entries 60, 70, 104] -/
def Obligations.LeeCausesComeAndGo : Prop :=
  ∀ s : State, s.ready → s.ctl.accepting = true →
    let c := s.ctl
    let entered (b : Nat) (t : State) : Prop := t.ctl.service.lee = true ∧ bit t.ctl.service.leeCause b = true ∧
      t.ctl.power.opNow = 2 ∧ t.ctl.pins.portsOff = true ∧ (c.pins.padHold = false → t.ctl.pins.leeN = false) ∧
      (∀ p < c.group.ports.length, (t.ctl.port p).up = false ∧ (t.ctl.port p).idle = true) ∧ t.ctl.group.formed = false ∧
      (∀ j ∈ c.jobs, leeKeeps c j.bundle j.index j.cls = false → ∀ k, t.ctl.job? j.no = some k → k.ended = true) ∧
      counted .svcLeeEntry b 1 s t
    (c.service.lee = false →
      completes .coolantLoss s (fun t => entered 0 t ∧ t.ctl.pins.coolantOk = false) ∧
      (∀ tj, completes (.overTemperatureLee tj true) s (entered 0)) ∧
      (∀ tj : Int, 110 ≤ tj → c.power.opNow = 2 → completes (.overTemperatureLee tj false) s (entered 1)) ∧
      completes .safetyMonitorLee s fun t => entered 5 t ∧ (c.pins.padHold = false → t.ctl.pins.faultN = false)) ∧
    (∀ tj : Int, tj < 110 ∨ c.power.opNow ≠ 2 → exec (.overTemperatureLee tj false) s = .next s) ∧
    (c.service.lee = true → bit c.service.leeCause 0 = false →
      completes .coolantLoss s fun t => sameMem s t ∧ t.ctl.service = { c.service with leeCause := c.service.leeCause + 1 } ∧
        t.ctl.jobs = c.jobs ∧ t.ctl.pins.coolantOk = false) ∧
    (∀ b, b = 0 ∨ b = 1 ∨ (b = 2 ∧ c.inService = 16) → c.service.lee = true →
      ∀ found,
      (c.service.leeCause = 2 ^ b → completes (.leeCauseClear b found) s fun t =>
        t.ctl.service.lee = false ∧ t.ctl.service.leeCause = 0 ∧ t.ctl.pins.portsOff = false ∧
        (c.pins.padHold = false → t.ctl.pins.leeN = true) ∧ (b = 0 → t.ctl.pins.coolantOk = true) ∧
        (∀ n < 64, (c.intake n).held = true → (c.config n).enable = true → (t.ctl.intake n).on = true) ∧
        (bit (c.param 0x0E02) 0 = false → t.ctl.jobs = c.jobs ∧ t.ctl.group.formed = c.group.formed) ∧
        (bit (c.param 0x0E02) 0 = true → c.member < 4 → bit (c.param 0x0E01) c.member = true →
          t.ctl.group.state = (formStates c found).1)) ∧
      (bit c.service.leeCause b = true → c.service.leeCause ≠ 2 ^ b → completes (.leeCauseClear b found) s fun t =>
        sameMem s t ∧ t.ctl.service = { c.service with leeCause := c.service.leeCause - 2 ^ b } ∧ t.ctl.jobs = c.jobs))
end

