-- ==== Sys2Proof/Laws/Maps.lean ====
section
/-! SUPPORT. What sorted association lists do: a write keeps the canonical form, and a read after a write gives what was
written, there and nowhere else. -/

namespace Sys2Proof

variable {α : Type}

/-- The keys of a map rise from above `lo`; entries may hold anything. -/
def SMap.rises : Option Nat → List (Nat × α) → Prop
  | _, [] => True
  | lo, (k, _) :: m => (∀ l, lo = some l → l < k) ∧ SMap.rises (some k) m

theorem SMap.rises_weaken {m : List (Nat × α)} {lo lo' : Option Nat} (h : SMap.rises lo m)
    (hl : ∀ l, lo' = some l → ∃ l', lo = some l' ∧ l ≤ l') : SMap.rises lo' m := by
  cases m with
  | nil => trivial
  | cons p m =>
    refine ⟨fun l e => ?_, h.2⟩
    obtain ⟨l', e', hle⟩ := hl l e
    exact lt_of_le_of_lt hle (h.1 l' e')

theorem SMap.wfFrom_iff [DecidableEq α] {d : α} {lo : Option Nat} {m : List (Nat × α)} :
    SMap.wfFrom d lo m = true ↔ SMap.rises lo m ∧ ∀ p ∈ m, p.2 ≠ d := by
  induction m generalizing lo with
  | nil => simp [SMap.wfFrom, SMap.rises]
  | cons p m ih =>
    obtain ⟨k, v⟩ := p
    simp only [SMap.wfFrom, SMap.rises, Bool.and_eq_true, ih, decide_eq_true_eq, List.mem_cons, forall_eq_or_imp]
    cases lo <;> simp <;> tauto

/-- The canonical form: the keys rise, and nothing listed holds the default. -/
theorem SMap.wf_iff [DecidableEq α] {d : α} {m : List (Nat × α)} :
    SMap.wf d m = true ↔ SMap.rises none m ∧ ∀ p ∈ m, p.2 ≠ d := SMap.wfFrom_iff

theorem SMap.rises_insert {m : List (Nat × α)} {lo : Option Nat} (h : SMap.rises lo m) {k : Nat}
    (hk : ∀ l, lo = some l → l < k) (v : α) : SMap.rises lo (SMap.insert m k v) := by
  induction m generalizing lo with
  | nil => exact ⟨hk, trivial⟩
  | cons p m ih =>
    obtain ⟨k', v'⟩ := p
    unfold SMap.insert
    split
    · rename_i hlt
      exact ⟨hk, fun l e => by cases e; exact hlt, h.2⟩
    · split
      · rename_i he
        subst he
        exact ⟨hk, h.2⟩
      · rename_i h1 h2
        exact ⟨h.1, ih h.2 fun l e => by cases e; omega⟩

theorem SMap.rises_erase {m : List (Nat × α)} {lo : Option Nat} (h : SMap.rises lo m) (k : Nat) :
    SMap.rises lo (SMap.erase m k) := by
  induction m generalizing lo with
  | nil => trivial
  | cons p m ih =>
    obtain ⟨k', v'⟩ := p
    unfold SMap.erase
    split
    · exact SMap.rises_weaken (ih h.2) fun l e => ⟨k', rfl, (h.1 l e).le⟩
    · exact ⟨h.1, ih h.2⟩

theorem SMap.mem_insert {m : List (Nat × α)} {k : Nat} {v : α} {p : Nat × α} (h : p ∈ SMap.insert m k v) :
    p = (k, v) ∨ p ∈ m := by
  induction m with
  | nil =>
    simp [SMap.insert] at h
    exact Or.inl h
  | cons q m ih =>
    obtain ⟨k', v'⟩ := q
    simp only [SMap.insert] at h
    split at h
    · simpa using h
    · split at h
      · simp only [List.mem_cons] at h ⊢
        tauto
      · simp only [List.mem_cons] at h ⊢
        rcases h with h | h
        · tauto
        · rcases ih h with h | h <;> tauto

theorem SMap.mem_erase {m : List (Nat × α)} {k : Nat} {p : Nat × α} (h : p ∈ SMap.erase m k) : p ∈ m := by
  induction m with
  | nil => simp [SMap.erase] at h
  | cons q m ih =>
    obtain ⟨k', v'⟩ := q
    simp only [SMap.erase] at h
    split at h
    · exact List.mem_cons_of_mem _ (ih h)
    · simp only [List.mem_cons] at h ⊢
      rcases h with h | h
      · exact Or.inl h
      · exact Or.inr (ih h)

/-- A write keeps the canonical form. -/
theorem SMap.put_wf [DecidableEq α] {d : α} {m : List (Nat × α)} (h : SMap.wf d m = true) (k : Nat) (v : α) :
    SMap.wf d (SMap.put d m k v) = true := by
  rw [SMap.wf_iff] at h ⊢
  unfold SMap.put
  split
  · exact ⟨SMap.rises_erase h.1 k, fun p hp => h.2 p (SMap.mem_erase hp)⟩
  · rename_i hv
    refine ⟨SMap.rises_insert h.1 (fun l e => by cases e) v, fun p hp => ?_⟩
    rcases SMap.mem_insert hp with rfl | hp
    · exact hv
    · exact h.2 p hp

theorem SMap.get_insert (d : α) (m : List (Nat × α)) (k : Nat) (v : α) (j : Nat) :
    SMap.get d (SMap.insert m k v) j = if j = k then v else SMap.get d m j := by
  induction m with
  | nil => simp [SMap.insert, SMap.get]
  | cons p m ih =>
    obtain ⟨k', v'⟩ := p
    unfold SMap.insert
    split
    · simp [SMap.get]
    · split
      · rename_i he
        subst he
        simp only [SMap.get]
        split <;> simp_all
      · rename_i h2
        simp only [SMap.get, ih]
        by_cases hj : j = k'
        · have : j ≠ k := by omega
          simp [hj, Ne.symm h2]
        · simp [hj]

theorem SMap.get_erase (d : α) (m : List (Nat × α)) (k j : Nat) :
    SMap.get d (SMap.erase m k) j = if j = k then d else SMap.get d m j := by
  induction m with
  | nil => simp [SMap.erase, SMap.get]
  | cons p m ih =>
    obtain ⟨k', v'⟩ := p
    unfold SMap.erase
    split
    · rename_i he
      subst he
      rw [ih]
      simp only [SMap.get]
      split <;> simp_all
    · rename_i h2
      simp only [SMap.get, ih]
      by_cases hj : j = k'
      · simp [hj, Ne.symm h2]
      · simp [hj]

/-- A read after a write: what was written at its key, and what stood there at every other. -/
theorem SMap.get_put [DecidableEq α] (d : α) (m : List (Nat × α)) (k : Nat) (v : α) (j : Nat) :
    SMap.get d (SMap.put d m k v) j = if j = k then v else SMap.get d m j := by
  unfold SMap.put
  split
  · rename_i hv
    rw [SMap.get_erase, hv]
  · exact SMap.get_insert d m k v j

end Sys2Proof
end

