-- ==== Sys2Proof/Laws/State.lean ====
section
/-! SUPPORT. What each update of the control state leaves of each field: one lemma for a field and an update, so that no
proof unfolds a record update. -/

namespace Sys2Proof.Machine


/-! ### withPlane -/

@[simp] theorem Ctl.withPlane_clk (c : Ctl) (f : Plane → Plane) : (c.withPlane f).clk = c.clk := rfl
@[simp] theorem Ctl.withPlane_params (c : Ctl) (f : Plane → Plane) : (c.withPlane f).params = c.params := rfl
@[simp] theorem Ctl.withPlane_counters (c : Ctl) (f : Plane → Plane) : (c.withPlane f).counters = c.counters := rfl
@[simp] theorem Ctl.withPlane_slotTags (c : Ctl) (f : Plane → Plane) : (c.withPlane f).slotTags = c.slotTags := rfl
@[simp] theorem Ctl.withPlane_tagTimes (c : Ctl) (f : Plane → Plane) : (c.withPlane f).tagTimes = c.tagTimes := rfl
@[simp] theorem Ctl.withPlane_plane (c : Ctl) (f : Plane → Plane) : (c.withPlane f).plane = f c.plane := rfl
@[simp] theorem Ctl.withPlane_tiles (c : Ctl) (f : Plane → Plane) : (c.withPlane f).tiles = c.tiles := rfl
@[simp] theorem Ctl.withPlane_jobs (c : Ctl) (f : Plane → Plane) : (c.withPlane f).jobs = c.jobs := rfl
@[simp] theorem Ctl.withPlane_ctxs (c : Ctl) (f : Plane → Plane) : (c.withPlane f).ctxs = c.ctxs := rfl
@[simp] theorem Ctl.withPlane_xfers (c : Ctl) (f : Plane → Plane) : (c.withPlane f).xfers = c.xfers := rfl
@[simp] theorem Ctl.withPlane_charges (c : Ctl) (f : Plane → Plane) : (c.withPlane f).charges = c.charges := rfl
@[simp] theorem Ctl.withPlane_govHeld (c : Ctl) (f : Plane → Plane) : (c.withPlane f).govHeld = c.govHeld := rfl
@[simp] theorem Ctl.withPlane_store (c : Ctl) (f : Plane → Plane) : (c.withPlane f).store = c.store := rfl
@[simp] theorem Ctl.withPlane_intakes (c : Ctl) (f : Plane → Plane) : (c.withPlane f).intakes = c.intakes := rfl
@[simp] theorem Ctl.withPlane_proto (c : Ctl) (f : Plane → Plane) : (c.withPlane f).proto = c.proto := rfl
@[simp] theorem Ctl.withPlane_group (c : Ctl) (f : Plane → Plane) : (c.withPlane f).group = c.group := rfl
@[simp] theorem Ctl.withPlane_sec (c : Ctl) (f : Plane → Plane) : (c.withPlane f).sec = c.sec := rfl
@[simp] theorem Ctl.withPlane_power (c : Ctl) (f : Plane → Plane) : (c.withPlane f).power = c.power := rfl
@[simp] theorem Ctl.withPlane_service (c : Ctl) (f : Plane → Plane) : (c.withPlane f).service = c.service := rfl
@[simp] theorem Ctl.withPlane_pins (c : Ctl) (f : Plane → Plane) : (c.withPlane f).pins = c.pins := rfl
@[simp] theorem Ctl.withPlane_wq (c : Ctl) (f : Plane → Plane) : (c.withPlane f).wq = c.wq := rfl
@[simp] theorem Ctl.withPlane_freeIx (c : Ctl) (f : Plane → Plane) : (c.withPlane f).freeIx = c.freeIx := rfl

/-! ### withStore -/

@[simp] theorem Ctl.withStore_clk (c : Ctl) (f : Store → Store) : (c.withStore f).clk = c.clk := rfl
@[simp] theorem Ctl.withStore_params (c : Ctl) (f : Store → Store) : (c.withStore f).params = c.params := rfl
@[simp] theorem Ctl.withStore_counters (c : Ctl) (f : Store → Store) : (c.withStore f).counters = c.counters := rfl
@[simp] theorem Ctl.withStore_slotTags (c : Ctl) (f : Store → Store) : (c.withStore f).slotTags = c.slotTags := rfl
@[simp] theorem Ctl.withStore_tagTimes (c : Ctl) (f : Store → Store) : (c.withStore f).tagTimes = c.tagTimes := rfl
@[simp] theorem Ctl.withStore_plane (c : Ctl) (f : Store → Store) : (c.withStore f).plane = c.plane := rfl
@[simp] theorem Ctl.withStore_tiles (c : Ctl) (f : Store → Store) : (c.withStore f).tiles = c.tiles := rfl
@[simp] theorem Ctl.withStore_jobs (c : Ctl) (f : Store → Store) : (c.withStore f).jobs = c.jobs := rfl
@[simp] theorem Ctl.withStore_ctxs (c : Ctl) (f : Store → Store) : (c.withStore f).ctxs = c.ctxs := rfl
@[simp] theorem Ctl.withStore_xfers (c : Ctl) (f : Store → Store) : (c.withStore f).xfers = c.xfers := rfl
@[simp] theorem Ctl.withStore_charges (c : Ctl) (f : Store → Store) : (c.withStore f).charges = c.charges := rfl
@[simp] theorem Ctl.withStore_govHeld (c : Ctl) (f : Store → Store) : (c.withStore f).govHeld = c.govHeld := rfl
@[simp] theorem Ctl.withStore_store (c : Ctl) (f : Store → Store) : (c.withStore f).store = f c.store := rfl
@[simp] theorem Ctl.withStore_intakes (c : Ctl) (f : Store → Store) : (c.withStore f).intakes = c.intakes := rfl
@[simp] theorem Ctl.withStore_proto (c : Ctl) (f : Store → Store) : (c.withStore f).proto = c.proto := rfl
@[simp] theorem Ctl.withStore_group (c : Ctl) (f : Store → Store) : (c.withStore f).group = c.group := rfl
@[simp] theorem Ctl.withStore_sec (c : Ctl) (f : Store → Store) : (c.withStore f).sec = c.sec := rfl
@[simp] theorem Ctl.withStore_power (c : Ctl) (f : Store → Store) : (c.withStore f).power = c.power := rfl
@[simp] theorem Ctl.withStore_service (c : Ctl) (f : Store → Store) : (c.withStore f).service = c.service := rfl
@[simp] theorem Ctl.withStore_pins (c : Ctl) (f : Store → Store) : (c.withStore f).pins = c.pins := rfl
@[simp] theorem Ctl.withStore_wq (c : Ctl) (f : Store → Store) : (c.withStore f).wq = c.wq := rfl
@[simp] theorem Ctl.withStore_freeIx (c : Ctl) (f : Store → Store) : (c.withStore f).freeIx = c.freeIx := rfl

/-! ### withProto -/

@[simp] theorem Ctl.withProto_clk (c : Ctl) (f : Proto → Proto) : (c.withProto f).clk = c.clk := rfl
@[simp] theorem Ctl.withProto_params (c : Ctl) (f : Proto → Proto) : (c.withProto f).params = c.params := rfl
@[simp] theorem Ctl.withProto_counters (c : Ctl) (f : Proto → Proto) : (c.withProto f).counters = c.counters := rfl
@[simp] theorem Ctl.withProto_slotTags (c : Ctl) (f : Proto → Proto) : (c.withProto f).slotTags = c.slotTags := rfl
@[simp] theorem Ctl.withProto_tagTimes (c : Ctl) (f : Proto → Proto) : (c.withProto f).tagTimes = c.tagTimes := rfl
@[simp] theorem Ctl.withProto_plane (c : Ctl) (f : Proto → Proto) : (c.withProto f).plane = c.plane := rfl
@[simp] theorem Ctl.withProto_tiles (c : Ctl) (f : Proto → Proto) : (c.withProto f).tiles = c.tiles := rfl
@[simp] theorem Ctl.withProto_jobs (c : Ctl) (f : Proto → Proto) : (c.withProto f).jobs = c.jobs := rfl
@[simp] theorem Ctl.withProto_ctxs (c : Ctl) (f : Proto → Proto) : (c.withProto f).ctxs = c.ctxs := rfl
@[simp] theorem Ctl.withProto_xfers (c : Ctl) (f : Proto → Proto) : (c.withProto f).xfers = c.xfers := rfl
@[simp] theorem Ctl.withProto_charges (c : Ctl) (f : Proto → Proto) : (c.withProto f).charges = c.charges := rfl
@[simp] theorem Ctl.withProto_govHeld (c : Ctl) (f : Proto → Proto) : (c.withProto f).govHeld = c.govHeld := rfl
@[simp] theorem Ctl.withProto_store (c : Ctl) (f : Proto → Proto) : (c.withProto f).store = c.store := rfl
@[simp] theorem Ctl.withProto_intakes (c : Ctl) (f : Proto → Proto) : (c.withProto f).intakes = c.intakes := rfl
@[simp] theorem Ctl.withProto_proto (c : Ctl) (f : Proto → Proto) : (c.withProto f).proto = f c.proto := rfl
@[simp] theorem Ctl.withProto_group (c : Ctl) (f : Proto → Proto) : (c.withProto f).group = c.group := rfl
@[simp] theorem Ctl.withProto_sec (c : Ctl) (f : Proto → Proto) : (c.withProto f).sec = c.sec := rfl
@[simp] theorem Ctl.withProto_power (c : Ctl) (f : Proto → Proto) : (c.withProto f).power = c.power := rfl
@[simp] theorem Ctl.withProto_service (c : Ctl) (f : Proto → Proto) : (c.withProto f).service = c.service := rfl
@[simp] theorem Ctl.withProto_pins (c : Ctl) (f : Proto → Proto) : (c.withProto f).pins = c.pins := rfl
@[simp] theorem Ctl.withProto_wq (c : Ctl) (f : Proto → Proto) : (c.withProto f).wq = c.wq := rfl
@[simp] theorem Ctl.withProto_freeIx (c : Ctl) (f : Proto → Proto) : (c.withProto f).freeIx = c.freeIx := rfl

/-! ### withSec -/

@[simp] theorem Ctl.withSec_clk (c : Ctl) (f : Sec → Sec) : (c.withSec f).clk = c.clk := rfl
@[simp] theorem Ctl.withSec_params (c : Ctl) (f : Sec → Sec) : (c.withSec f).params = c.params := rfl
@[simp] theorem Ctl.withSec_counters (c : Ctl) (f : Sec → Sec) : (c.withSec f).counters = c.counters := rfl
@[simp] theorem Ctl.withSec_slotTags (c : Ctl) (f : Sec → Sec) : (c.withSec f).slotTags = c.slotTags := rfl
@[simp] theorem Ctl.withSec_tagTimes (c : Ctl) (f : Sec → Sec) : (c.withSec f).tagTimes = c.tagTimes := rfl
@[simp] theorem Ctl.withSec_plane (c : Ctl) (f : Sec → Sec) : (c.withSec f).plane = c.plane := rfl
@[simp] theorem Ctl.withSec_tiles (c : Ctl) (f : Sec → Sec) : (c.withSec f).tiles = c.tiles := rfl
@[simp] theorem Ctl.withSec_jobs (c : Ctl) (f : Sec → Sec) : (c.withSec f).jobs = c.jobs := rfl
@[simp] theorem Ctl.withSec_ctxs (c : Ctl) (f : Sec → Sec) : (c.withSec f).ctxs = c.ctxs := rfl
@[simp] theorem Ctl.withSec_xfers (c : Ctl) (f : Sec → Sec) : (c.withSec f).xfers = c.xfers := rfl
@[simp] theorem Ctl.withSec_charges (c : Ctl) (f : Sec → Sec) : (c.withSec f).charges = c.charges := rfl
@[simp] theorem Ctl.withSec_govHeld (c : Ctl) (f : Sec → Sec) : (c.withSec f).govHeld = c.govHeld := rfl
@[simp] theorem Ctl.withSec_store (c : Ctl) (f : Sec → Sec) : (c.withSec f).store = c.store := rfl
@[simp] theorem Ctl.withSec_intakes (c : Ctl) (f : Sec → Sec) : (c.withSec f).intakes = c.intakes := rfl
@[simp] theorem Ctl.withSec_proto (c : Ctl) (f : Sec → Sec) : (c.withSec f).proto = c.proto := rfl
@[simp] theorem Ctl.withSec_group (c : Ctl) (f : Sec → Sec) : (c.withSec f).group = c.group := rfl
@[simp] theorem Ctl.withSec_sec (c : Ctl) (f : Sec → Sec) : (c.withSec f).sec = f c.sec := rfl
@[simp] theorem Ctl.withSec_power (c : Ctl) (f : Sec → Sec) : (c.withSec f).power = c.power := rfl
@[simp] theorem Ctl.withSec_service (c : Ctl) (f : Sec → Sec) : (c.withSec f).service = c.service := rfl
@[simp] theorem Ctl.withSec_pins (c : Ctl) (f : Sec → Sec) : (c.withSec f).pins = c.pins := rfl
@[simp] theorem Ctl.withSec_wq (c : Ctl) (f : Sec → Sec) : (c.withSec f).wq = c.wq := rfl
@[simp] theorem Ctl.withSec_freeIx (c : Ctl) (f : Sec → Sec) : (c.withSec f).freeIx = c.freeIx := rfl

/-! ### withPower -/

@[simp] theorem Ctl.withPower_clk (c : Ctl) (f : Power → Power) : (c.withPower f).clk = c.clk := rfl
@[simp] theorem Ctl.withPower_params (c : Ctl) (f : Power → Power) : (c.withPower f).params = c.params := rfl
@[simp] theorem Ctl.withPower_counters (c : Ctl) (f : Power → Power) : (c.withPower f).counters = c.counters := rfl
@[simp] theorem Ctl.withPower_slotTags (c : Ctl) (f : Power → Power) : (c.withPower f).slotTags = c.slotTags := rfl
@[simp] theorem Ctl.withPower_tagTimes (c : Ctl) (f : Power → Power) : (c.withPower f).tagTimes = c.tagTimes := rfl
@[simp] theorem Ctl.withPower_plane (c : Ctl) (f : Power → Power) : (c.withPower f).plane = c.plane := rfl
@[simp] theorem Ctl.withPower_tiles (c : Ctl) (f : Power → Power) : (c.withPower f).tiles = c.tiles := rfl
@[simp] theorem Ctl.withPower_jobs (c : Ctl) (f : Power → Power) : (c.withPower f).jobs = c.jobs := rfl
@[simp] theorem Ctl.withPower_ctxs (c : Ctl) (f : Power → Power) : (c.withPower f).ctxs = c.ctxs := rfl
@[simp] theorem Ctl.withPower_xfers (c : Ctl) (f : Power → Power) : (c.withPower f).xfers = c.xfers := rfl
@[simp] theorem Ctl.withPower_charges (c : Ctl) (f : Power → Power) : (c.withPower f).charges = c.charges := rfl
@[simp] theorem Ctl.withPower_govHeld (c : Ctl) (f : Power → Power) : (c.withPower f).govHeld = c.govHeld := rfl
@[simp] theorem Ctl.withPower_store (c : Ctl) (f : Power → Power) : (c.withPower f).store = c.store := rfl
@[simp] theorem Ctl.withPower_intakes (c : Ctl) (f : Power → Power) : (c.withPower f).intakes = c.intakes := rfl
@[simp] theorem Ctl.withPower_proto (c : Ctl) (f : Power → Power) : (c.withPower f).proto = c.proto := rfl
@[simp] theorem Ctl.withPower_group (c : Ctl) (f : Power → Power) : (c.withPower f).group = c.group := rfl
@[simp] theorem Ctl.withPower_sec (c : Ctl) (f : Power → Power) : (c.withPower f).sec = c.sec := rfl
@[simp] theorem Ctl.withPower_power (c : Ctl) (f : Power → Power) : (c.withPower f).power = f c.power := rfl
@[simp] theorem Ctl.withPower_service (c : Ctl) (f : Power → Power) : (c.withPower f).service = c.service := rfl
@[simp] theorem Ctl.withPower_pins (c : Ctl) (f : Power → Power) : (c.withPower f).pins = c.pins := rfl
@[simp] theorem Ctl.withPower_wq (c : Ctl) (f : Power → Power) : (c.withPower f).wq = c.wq := rfl
@[simp] theorem Ctl.withPower_freeIx (c : Ctl) (f : Power → Power) : (c.withPower f).freeIx = c.freeIx := rfl

/-! ### withGroup -/

@[simp] theorem Ctl.withGroup_clk (c : Ctl) (f : Group → Group) : (c.withGroup f).clk = c.clk := rfl
@[simp] theorem Ctl.withGroup_params (c : Ctl) (f : Group → Group) : (c.withGroup f).params = c.params := rfl
@[simp] theorem Ctl.withGroup_counters (c : Ctl) (f : Group → Group) : (c.withGroup f).counters = c.counters := rfl
@[simp] theorem Ctl.withGroup_slotTags (c : Ctl) (f : Group → Group) : (c.withGroup f).slotTags = c.slotTags := rfl
@[simp] theorem Ctl.withGroup_tagTimes (c : Ctl) (f : Group → Group) : (c.withGroup f).tagTimes = c.tagTimes := rfl
@[simp] theorem Ctl.withGroup_plane (c : Ctl) (f : Group → Group) : (c.withGroup f).plane = c.plane := rfl
@[simp] theorem Ctl.withGroup_tiles (c : Ctl) (f : Group → Group) : (c.withGroup f).tiles = c.tiles := rfl
@[simp] theorem Ctl.withGroup_jobs (c : Ctl) (f : Group → Group) : (c.withGroup f).jobs = c.jobs := rfl
@[simp] theorem Ctl.withGroup_ctxs (c : Ctl) (f : Group → Group) : (c.withGroup f).ctxs = c.ctxs := rfl
@[simp] theorem Ctl.withGroup_xfers (c : Ctl) (f : Group → Group) : (c.withGroup f).xfers = c.xfers := rfl
@[simp] theorem Ctl.withGroup_charges (c : Ctl) (f : Group → Group) : (c.withGroup f).charges = c.charges := rfl
@[simp] theorem Ctl.withGroup_govHeld (c : Ctl) (f : Group → Group) : (c.withGroup f).govHeld = c.govHeld := rfl
@[simp] theorem Ctl.withGroup_store (c : Ctl) (f : Group → Group) : (c.withGroup f).store = c.store := rfl
@[simp] theorem Ctl.withGroup_intakes (c : Ctl) (f : Group → Group) : (c.withGroup f).intakes = c.intakes := rfl
@[simp] theorem Ctl.withGroup_proto (c : Ctl) (f : Group → Group) : (c.withGroup f).proto = c.proto := rfl
@[simp] theorem Ctl.withGroup_group (c : Ctl) (f : Group → Group) : (c.withGroup f).group = f c.group := rfl
@[simp] theorem Ctl.withGroup_sec (c : Ctl) (f : Group → Group) : (c.withGroup f).sec = c.sec := rfl
@[simp] theorem Ctl.withGroup_power (c : Ctl) (f : Group → Group) : (c.withGroup f).power = c.power := rfl
@[simp] theorem Ctl.withGroup_service (c : Ctl) (f : Group → Group) : (c.withGroup f).service = c.service := rfl
@[simp] theorem Ctl.withGroup_pins (c : Ctl) (f : Group → Group) : (c.withGroup f).pins = c.pins := rfl
@[simp] theorem Ctl.withGroup_wq (c : Ctl) (f : Group → Group) : (c.withGroup f).wq = c.wq := rfl
@[simp] theorem Ctl.withGroup_freeIx (c : Ctl) (f : Group → Group) : (c.withGroup f).freeIx = c.freeIx := rfl

/-! ### withPins -/

@[simp] theorem Ctl.withPins_clk (c : Ctl) (f : Pins → Pins) : (c.withPins f).clk = c.clk := rfl
@[simp] theorem Ctl.withPins_params (c : Ctl) (f : Pins → Pins) : (c.withPins f).params = c.params := rfl
@[simp] theorem Ctl.withPins_counters (c : Ctl) (f : Pins → Pins) : (c.withPins f).counters = c.counters := rfl
@[simp] theorem Ctl.withPins_slotTags (c : Ctl) (f : Pins → Pins) : (c.withPins f).slotTags = c.slotTags := rfl
@[simp] theorem Ctl.withPins_tagTimes (c : Ctl) (f : Pins → Pins) : (c.withPins f).tagTimes = c.tagTimes := rfl
@[simp] theorem Ctl.withPins_plane (c : Ctl) (f : Pins → Pins) : (c.withPins f).plane = c.plane := rfl
@[simp] theorem Ctl.withPins_tiles (c : Ctl) (f : Pins → Pins) : (c.withPins f).tiles = c.tiles := rfl
@[simp] theorem Ctl.withPins_jobs (c : Ctl) (f : Pins → Pins) : (c.withPins f).jobs = c.jobs := rfl
@[simp] theorem Ctl.withPins_ctxs (c : Ctl) (f : Pins → Pins) : (c.withPins f).ctxs = c.ctxs := rfl
@[simp] theorem Ctl.withPins_xfers (c : Ctl) (f : Pins → Pins) : (c.withPins f).xfers = c.xfers := rfl
@[simp] theorem Ctl.withPins_charges (c : Ctl) (f : Pins → Pins) : (c.withPins f).charges = c.charges := rfl
@[simp] theorem Ctl.withPins_govHeld (c : Ctl) (f : Pins → Pins) : (c.withPins f).govHeld = c.govHeld := rfl
@[simp] theorem Ctl.withPins_store (c : Ctl) (f : Pins → Pins) : (c.withPins f).store = c.store := rfl
@[simp] theorem Ctl.withPins_intakes (c : Ctl) (f : Pins → Pins) : (c.withPins f).intakes = c.intakes := rfl
@[simp] theorem Ctl.withPins_proto (c : Ctl) (f : Pins → Pins) : (c.withPins f).proto = c.proto := rfl
@[simp] theorem Ctl.withPins_group (c : Ctl) (f : Pins → Pins) : (c.withPins f).group = c.group := rfl
@[simp] theorem Ctl.withPins_sec (c : Ctl) (f : Pins → Pins) : (c.withPins f).sec = c.sec := rfl
@[simp] theorem Ctl.withPins_power (c : Ctl) (f : Pins → Pins) : (c.withPins f).power = c.power := rfl
@[simp] theorem Ctl.withPins_service (c : Ctl) (f : Pins → Pins) : (c.withPins f).service = c.service := rfl
@[simp] theorem Ctl.withPins_pins (c : Ctl) (f : Pins → Pins) : (c.withPins f).pins = f c.pins := rfl
@[simp] theorem Ctl.withPins_wq (c : Ctl) (f : Pins → Pins) : (c.withPins f).wq = c.wq := rfl
@[simp] theorem Ctl.withPins_freeIx (c : Ctl) (f : Pins → Pins) : (c.withPins f).freeIx = c.freeIx := rfl

/-! ### setJob -/

@[simp] theorem Ctl.setJob_clk (c : Ctl) (j : Job) : (c.setJob j).clk = c.clk := rfl
@[simp] theorem Ctl.setJob_params (c : Ctl) (j : Job) : (c.setJob j).params = c.params := rfl
@[simp] theorem Ctl.setJob_counters (c : Ctl) (j : Job) : (c.setJob j).counters = c.counters := rfl
@[simp] theorem Ctl.setJob_slotTags (c : Ctl) (j : Job) : (c.setJob j).slotTags = c.slotTags := rfl
@[simp] theorem Ctl.setJob_tagTimes (c : Ctl) (j : Job) : (c.setJob j).tagTimes = c.tagTimes := rfl
@[simp] theorem Ctl.setJob_plane (c : Ctl) (j : Job) : (c.setJob j).plane = c.plane := rfl
@[simp] theorem Ctl.setJob_tiles (c : Ctl) (j : Job) : (c.setJob j).tiles = c.tiles := rfl
@[simp] theorem Ctl.setJob_jobs (c : Ctl) (j : Job) : (c.setJob j).jobs = c.jobs.map fun k => if k.no = j.no then j else k := rfl
@[simp] theorem Ctl.setJob_ctxs (c : Ctl) (j : Job) : (c.setJob j).ctxs = c.ctxs := rfl
@[simp] theorem Ctl.setJob_xfers (c : Ctl) (j : Job) : (c.setJob j).xfers = c.xfers := rfl
@[simp] theorem Ctl.setJob_charges (c : Ctl) (j : Job) : (c.setJob j).charges = c.charges := rfl
@[simp] theorem Ctl.setJob_govHeld (c : Ctl) (j : Job) : (c.setJob j).govHeld = c.govHeld := rfl
@[simp] theorem Ctl.setJob_store (c : Ctl) (j : Job) : (c.setJob j).store = c.store := rfl
@[simp] theorem Ctl.setJob_intakes (c : Ctl) (j : Job) : (c.setJob j).intakes = c.intakes := rfl
@[simp] theorem Ctl.setJob_proto (c : Ctl) (j : Job) : (c.setJob j).proto = c.proto := rfl
@[simp] theorem Ctl.setJob_group (c : Ctl) (j : Job) : (c.setJob j).group = c.group := rfl
@[simp] theorem Ctl.setJob_sec (c : Ctl) (j : Job) : (c.setJob j).sec = c.sec := rfl
@[simp] theorem Ctl.setJob_power (c : Ctl) (j : Job) : (c.setJob j).power = c.power := rfl
@[simp] theorem Ctl.setJob_service (c : Ctl) (j : Job) : (c.setJob j).service = c.service := rfl
@[simp] theorem Ctl.setJob_pins (c : Ctl) (j : Job) : (c.setJob j).pins = c.pins := rfl
@[simp] theorem Ctl.setJob_wq (c : Ctl) (j : Job) : (c.setJob j).wq = c.wq := rfl
@[simp] theorem Ctl.setJob_freeIx (c : Ctl) (j : Job) : (c.setJob j).freeIx = c.freeIx := rfl

/-! ### mapJob -/

@[simp] theorem Ctl.mapJob_clk (c : Ctl) (n : Nat) (f : Job → Job) : (c.mapJob n f).clk = c.clk := rfl
@[simp] theorem Ctl.mapJob_params (c : Ctl) (n : Nat) (f : Job → Job) : (c.mapJob n f).params = c.params := rfl
@[simp] theorem Ctl.mapJob_counters (c : Ctl) (n : Nat) (f : Job → Job) : (c.mapJob n f).counters = c.counters := rfl
@[simp] theorem Ctl.mapJob_slotTags (c : Ctl) (n : Nat) (f : Job → Job) : (c.mapJob n f).slotTags = c.slotTags := rfl
@[simp] theorem Ctl.mapJob_tagTimes (c : Ctl) (n : Nat) (f : Job → Job) : (c.mapJob n f).tagTimes = c.tagTimes := rfl
@[simp] theorem Ctl.mapJob_plane (c : Ctl) (n : Nat) (f : Job → Job) : (c.mapJob n f).plane = c.plane := rfl
@[simp] theorem Ctl.mapJob_tiles (c : Ctl) (n : Nat) (f : Job → Job) : (c.mapJob n f).tiles = c.tiles := rfl
@[simp] theorem Ctl.mapJob_jobs (c : Ctl) (n : Nat) (f : Job → Job) : (c.mapJob n f).jobs = c.jobs.map fun k => if k.no = n then f k else k := rfl
@[simp] theorem Ctl.mapJob_ctxs (c : Ctl) (n : Nat) (f : Job → Job) : (c.mapJob n f).ctxs = c.ctxs := rfl
@[simp] theorem Ctl.mapJob_xfers (c : Ctl) (n : Nat) (f : Job → Job) : (c.mapJob n f).xfers = c.xfers := rfl
@[simp] theorem Ctl.mapJob_charges (c : Ctl) (n : Nat) (f : Job → Job) : (c.mapJob n f).charges = c.charges := rfl
@[simp] theorem Ctl.mapJob_govHeld (c : Ctl) (n : Nat) (f : Job → Job) : (c.mapJob n f).govHeld = c.govHeld := rfl
@[simp] theorem Ctl.mapJob_store (c : Ctl) (n : Nat) (f : Job → Job) : (c.mapJob n f).store = c.store := rfl
@[simp] theorem Ctl.mapJob_intakes (c : Ctl) (n : Nat) (f : Job → Job) : (c.mapJob n f).intakes = c.intakes := rfl
@[simp] theorem Ctl.mapJob_proto (c : Ctl) (n : Nat) (f : Job → Job) : (c.mapJob n f).proto = c.proto := rfl
@[simp] theorem Ctl.mapJob_group (c : Ctl) (n : Nat) (f : Job → Job) : (c.mapJob n f).group = c.group := rfl
@[simp] theorem Ctl.mapJob_sec (c : Ctl) (n : Nat) (f : Job → Job) : (c.mapJob n f).sec = c.sec := rfl
@[simp] theorem Ctl.mapJob_power (c : Ctl) (n : Nat) (f : Job → Job) : (c.mapJob n f).power = c.power := rfl
@[simp] theorem Ctl.mapJob_service (c : Ctl) (n : Nat) (f : Job → Job) : (c.mapJob n f).service = c.service := rfl
@[simp] theorem Ctl.mapJob_pins (c : Ctl) (n : Nat) (f : Job → Job) : (c.mapJob n f).pins = c.pins := rfl
@[simp] theorem Ctl.mapJob_wq (c : Ctl) (n : Nat) (f : Job → Job) : (c.mapJob n f).wq = c.wq := rfl
@[simp] theorem Ctl.mapJob_freeIx (c : Ctl) (n : Nat) (f : Job → Job) : (c.mapJob n f).freeIx = c.freeIx := rfl

/-! ### setIntake -/

@[simp] theorem Ctl.setIntake_clk (c : Ctl) (n : Nat) (i : Intake) : (c.setIntake n i).clk = c.clk := rfl
@[simp] theorem Ctl.setIntake_params (c : Ctl) (n : Nat) (i : Intake) : (c.setIntake n i).params = c.params := rfl
@[simp] theorem Ctl.setIntake_counters (c : Ctl) (n : Nat) (i : Intake) : (c.setIntake n i).counters = c.counters := rfl
@[simp] theorem Ctl.setIntake_slotTags (c : Ctl) (n : Nat) (i : Intake) : (c.setIntake n i).slotTags = c.slotTags := rfl
@[simp] theorem Ctl.setIntake_tagTimes (c : Ctl) (n : Nat) (i : Intake) : (c.setIntake n i).tagTimes = c.tagTimes := rfl
@[simp] theorem Ctl.setIntake_plane (c : Ctl) (n : Nat) (i : Intake) : (c.setIntake n i).plane = c.plane := rfl
@[simp] theorem Ctl.setIntake_tiles (c : Ctl) (n : Nat) (i : Intake) : (c.setIntake n i).tiles = c.tiles := rfl
@[simp] theorem Ctl.setIntake_jobs (c : Ctl) (n : Nat) (i : Intake) : (c.setIntake n i).jobs = c.jobs := rfl
@[simp] theorem Ctl.setIntake_ctxs (c : Ctl) (n : Nat) (i : Intake) : (c.setIntake n i).ctxs = c.ctxs := rfl
@[simp] theorem Ctl.setIntake_xfers (c : Ctl) (n : Nat) (i : Intake) : (c.setIntake n i).xfers = c.xfers := rfl
@[simp] theorem Ctl.setIntake_charges (c : Ctl) (n : Nat) (i : Intake) : (c.setIntake n i).charges = c.charges := rfl
@[simp] theorem Ctl.setIntake_govHeld (c : Ctl) (n : Nat) (i : Intake) : (c.setIntake n i).govHeld = c.govHeld := rfl
@[simp] theorem Ctl.setIntake_store (c : Ctl) (n : Nat) (i : Intake) : (c.setIntake n i).store = c.store := rfl
@[simp] theorem Ctl.setIntake_intakes (c : Ctl) (n : Nat) (i : Intake) : (c.setIntake n i).intakes = SMap.put Intake.off c.intakes n i := rfl
@[simp] theorem Ctl.setIntake_proto (c : Ctl) (n : Nat) (i : Intake) : (c.setIntake n i).proto = c.proto := rfl
@[simp] theorem Ctl.setIntake_group (c : Ctl) (n : Nat) (i : Intake) : (c.setIntake n i).group = c.group := rfl
@[simp] theorem Ctl.setIntake_sec (c : Ctl) (n : Nat) (i : Intake) : (c.setIntake n i).sec = c.sec := rfl
@[simp] theorem Ctl.setIntake_power (c : Ctl) (n : Nat) (i : Intake) : (c.setIntake n i).power = c.power := rfl
@[simp] theorem Ctl.setIntake_service (c : Ctl) (n : Nat) (i : Intake) : (c.setIntake n i).service = c.service := rfl
@[simp] theorem Ctl.setIntake_pins (c : Ctl) (n : Nat) (i : Intake) : (c.setIntake n i).pins = c.pins := rfl
@[simp] theorem Ctl.setIntake_wq (c : Ctl) (n : Nat) (i : Intake) : (c.setIntake n i).wq = c.wq := rfl
@[simp] theorem Ctl.setIntake_freeIx (c : Ctl) (n : Nat) (i : Intake) : (c.setIntake n i).freeIx = c.freeIx := rfl

/-! ### setTile -/

@[simp] theorem Ctl.setTile_clk (c : Ctl) (n : Nat) (x : Tile) : (c.setTile n x).clk = c.clk := rfl
@[simp] theorem Ctl.setTile_params (c : Ctl) (n : Nat) (x : Tile) : (c.setTile n x).params = c.params := rfl
@[simp] theorem Ctl.setTile_counters (c : Ctl) (n : Nat) (x : Tile) : (c.setTile n x).counters = c.counters := rfl
@[simp] theorem Ctl.setTile_slotTags (c : Ctl) (n : Nat) (x : Tile) : (c.setTile n x).slotTags = c.slotTags := rfl
@[simp] theorem Ctl.setTile_tagTimes (c : Ctl) (n : Nat) (x : Tile) : (c.setTile n x).tagTimes = c.tagTimes := rfl
@[simp] theorem Ctl.setTile_plane (c : Ctl) (n : Nat) (x : Tile) : (c.setTile n x).plane = c.plane := rfl
@[simp] theorem Ctl.setTile_tiles (c : Ctl) (n : Nat) (x : Tile) : (c.setTile n x).tiles = c.tiles.set n x := rfl
@[simp] theorem Ctl.setTile_jobs (c : Ctl) (n : Nat) (x : Tile) : (c.setTile n x).jobs = c.jobs := rfl
@[simp] theorem Ctl.setTile_ctxs (c : Ctl) (n : Nat) (x : Tile) : (c.setTile n x).ctxs = c.ctxs := rfl
@[simp] theorem Ctl.setTile_xfers (c : Ctl) (n : Nat) (x : Tile) : (c.setTile n x).xfers = c.xfers := rfl
@[simp] theorem Ctl.setTile_charges (c : Ctl) (n : Nat) (x : Tile) : (c.setTile n x).charges = c.charges := rfl
@[simp] theorem Ctl.setTile_govHeld (c : Ctl) (n : Nat) (x : Tile) : (c.setTile n x).govHeld = c.govHeld := rfl
@[simp] theorem Ctl.setTile_store (c : Ctl) (n : Nat) (x : Tile) : (c.setTile n x).store = c.store := rfl
@[simp] theorem Ctl.setTile_intakes (c : Ctl) (n : Nat) (x : Tile) : (c.setTile n x).intakes = c.intakes := rfl
@[simp] theorem Ctl.setTile_proto (c : Ctl) (n : Nat) (x : Tile) : (c.setTile n x).proto = c.proto := rfl
@[simp] theorem Ctl.setTile_group (c : Ctl) (n : Nat) (x : Tile) : (c.setTile n x).group = c.group := rfl
@[simp] theorem Ctl.setTile_sec (c : Ctl) (n : Nat) (x : Tile) : (c.setTile n x).sec = c.sec := rfl
@[simp] theorem Ctl.setTile_power (c : Ctl) (n : Nat) (x : Tile) : (c.setTile n x).power = c.power := rfl
@[simp] theorem Ctl.setTile_service (c : Ctl) (n : Nat) (x : Tile) : (c.setTile n x).service = c.service := rfl
@[simp] theorem Ctl.setTile_pins (c : Ctl) (n : Nat) (x : Tile) : (c.setTile n x).pins = c.pins := rfl
@[simp] theorem Ctl.setTile_wq (c : Ctl) (n : Nat) (x : Tile) : (c.setTile n x).wq = c.wq := rfl
@[simp] theorem Ctl.setTile_freeIx (c : Ctl) (n : Nat) (x : Tile) : (c.setTile n x).freeIx = c.freeIx := rfl

/-! ### setParam -/

@[simp] theorem Ctl.setParam_clk (c : Ctl) (n v : Nat) : (c.setParam n v).clk = c.clk := rfl
@[simp] theorem Ctl.setParam_counters (c : Ctl) (n v : Nat) : (c.setParam n v).counters = c.counters := rfl
@[simp] theorem Ctl.setParam_slotTags (c : Ctl) (n v : Nat) : (c.setParam n v).slotTags = c.slotTags := rfl
@[simp] theorem Ctl.setParam_tagTimes (c : Ctl) (n v : Nat) : (c.setParam n v).tagTimes = c.tagTimes := rfl
@[simp] theorem Ctl.setParam_plane (c : Ctl) (n v : Nat) : (c.setParam n v).plane = c.plane := rfl
@[simp] theorem Ctl.setParam_tiles (c : Ctl) (n v : Nat) : (c.setParam n v).tiles = c.tiles := rfl
@[simp] theorem Ctl.setParam_jobs (c : Ctl) (n v : Nat) : (c.setParam n v).jobs = c.jobs := rfl
@[simp] theorem Ctl.setParam_ctxs (c : Ctl) (n v : Nat) : (c.setParam n v).ctxs = c.ctxs := rfl
@[simp] theorem Ctl.setParam_xfers (c : Ctl) (n v : Nat) : (c.setParam n v).xfers = c.xfers := rfl
@[simp] theorem Ctl.setParam_charges (c : Ctl) (n v : Nat) : (c.setParam n v).charges = c.charges := rfl
@[simp] theorem Ctl.setParam_govHeld (c : Ctl) (n v : Nat) : (c.setParam n v).govHeld = c.govHeld := rfl
@[simp] theorem Ctl.setParam_store (c : Ctl) (n v : Nat) : (c.setParam n v).store = c.store := rfl
@[simp] theorem Ctl.setParam_intakes (c : Ctl) (n v : Nat) : (c.setParam n v).intakes = c.intakes := rfl
@[simp] theorem Ctl.setParam_proto (c : Ctl) (n v : Nat) : (c.setParam n v).proto = c.proto := rfl
@[simp] theorem Ctl.setParam_group (c : Ctl) (n v : Nat) : (c.setParam n v).group = c.group := rfl
@[simp] theorem Ctl.setParam_sec (c : Ctl) (n v : Nat) : (c.setParam n v).sec = c.sec := rfl
@[simp] theorem Ctl.setParam_power (c : Ctl) (n v : Nat) : (c.setParam n v).power = c.power := rfl
@[simp] theorem Ctl.setParam_service (c : Ctl) (n v : Nat) : (c.setParam n v).service = c.service := rfl
@[simp] theorem Ctl.setParam_pins (c : Ctl) (n v : Nat) : (c.setParam n v).pins = c.pins := rfl
@[simp] theorem Ctl.setParam_wq (c : Ctl) (n v : Nat) : (c.setParam n v).wq = c.wq := rfl
@[simp] theorem Ctl.setParam_freeIx (c : Ctl) (n v : Nat) : (c.setParam n v).freeIx = c.freeIx := rfl

/-! ### setBank, setPort -/

@[simp] theorem Ctl.setBank_clk (c : Ctl) (k : Nat) (b : Bank) : (c.setBank k b).clk = c.clk := rfl
@[simp] theorem Ctl.setBank_params (c : Ctl) (k : Nat) (b : Bank) : (c.setBank k b).params = c.params := rfl
@[simp] theorem Ctl.setBank_counters (c : Ctl) (k : Nat) (b : Bank) : (c.setBank k b).counters = c.counters := rfl
@[simp] theorem Ctl.setBank_slotTags (c : Ctl) (k : Nat) (b : Bank) : (c.setBank k b).slotTags = c.slotTags := rfl
@[simp] theorem Ctl.setBank_tagTimes (c : Ctl) (k : Nat) (b : Bank) : (c.setBank k b).tagTimes = c.tagTimes := rfl
@[simp] theorem Ctl.setBank_plane (c : Ctl) (k : Nat) (b : Bank) : (c.setBank k b).plane = c.plane := rfl
@[simp] theorem Ctl.setBank_tiles (c : Ctl) (k : Nat) (b : Bank) : (c.setBank k b).tiles = c.tiles := rfl
@[simp] theorem Ctl.setBank_jobs (c : Ctl) (k : Nat) (b : Bank) : (c.setBank k b).jobs = c.jobs := rfl
@[simp] theorem Ctl.setBank_ctxs (c : Ctl) (k : Nat) (b : Bank) : (c.setBank k b).ctxs = c.ctxs := rfl
@[simp] theorem Ctl.setBank_xfers (c : Ctl) (k : Nat) (b : Bank) : (c.setBank k b).xfers = c.xfers := rfl
@[simp] theorem Ctl.setBank_charges (c : Ctl) (k : Nat) (b : Bank) : (c.setBank k b).charges = c.charges := rfl
@[simp] theorem Ctl.setBank_govHeld (c : Ctl) (k : Nat) (b : Bank) : (c.setBank k b).govHeld = c.govHeld := rfl
@[simp] theorem Ctl.setBank_intakes (c : Ctl) (k : Nat) (b : Bank) : (c.setBank k b).intakes = c.intakes := rfl
@[simp] theorem Ctl.setBank_proto (c : Ctl) (k : Nat) (b : Bank) : (c.setBank k b).proto = c.proto := rfl
@[simp] theorem Ctl.setBank_group (c : Ctl) (k : Nat) (b : Bank) : (c.setBank k b).group = c.group := rfl
@[simp] theorem Ctl.setBank_sec (c : Ctl) (k : Nat) (b : Bank) : (c.setBank k b).sec = c.sec := rfl
@[simp] theorem Ctl.setBank_power (c : Ctl) (k : Nat) (b : Bank) : (c.setBank k b).power = c.power := rfl
@[simp] theorem Ctl.setBank_service (c : Ctl) (k : Nat) (b : Bank) : (c.setBank k b).service = c.service := rfl
@[simp] theorem Ctl.setBank_pins (c : Ctl) (k : Nat) (b : Bank) : (c.setBank k b).pins = c.pins := rfl
@[simp] theorem Ctl.setBank_wq (c : Ctl) (k : Nat) (b : Bank) : (c.setBank k b).wq = c.wq := rfl
@[simp] theorem Ctl.setBank_freeIx (c : Ctl) (k : Nat) (b : Bank) : (c.setBank k b).freeIx = c.freeIx := rfl
@[simp] theorem Ctl.setPort_clk (c : Ctl) (p : Nat) (x : XwPort) : (c.setPort p x).clk = c.clk := rfl
@[simp] theorem Ctl.setPort_params (c : Ctl) (p : Nat) (x : XwPort) : (c.setPort p x).params = c.params := rfl
@[simp] theorem Ctl.setPort_counters (c : Ctl) (p : Nat) (x : XwPort) : (c.setPort p x).counters = c.counters := rfl
@[simp] theorem Ctl.setPort_slotTags (c : Ctl) (p : Nat) (x : XwPort) : (c.setPort p x).slotTags = c.slotTags := rfl
@[simp] theorem Ctl.setPort_tagTimes (c : Ctl) (p : Nat) (x : XwPort) : (c.setPort p x).tagTimes = c.tagTimes := rfl
@[simp] theorem Ctl.setPort_plane (c : Ctl) (p : Nat) (x : XwPort) : (c.setPort p x).plane = c.plane := rfl
@[simp] theorem Ctl.setPort_tiles (c : Ctl) (p : Nat) (x : XwPort) : (c.setPort p x).tiles = c.tiles := rfl
@[simp] theorem Ctl.setPort_jobs (c : Ctl) (p : Nat) (x : XwPort) : (c.setPort p x).jobs = c.jobs := rfl
@[simp] theorem Ctl.setPort_ctxs (c : Ctl) (p : Nat) (x : XwPort) : (c.setPort p x).ctxs = c.ctxs := rfl
@[simp] theorem Ctl.setPort_xfers (c : Ctl) (p : Nat) (x : XwPort) : (c.setPort p x).xfers = c.xfers := rfl
@[simp] theorem Ctl.setPort_charges (c : Ctl) (p : Nat) (x : XwPort) : (c.setPort p x).charges = c.charges := rfl
@[simp] theorem Ctl.setPort_govHeld (c : Ctl) (p : Nat) (x : XwPort) : (c.setPort p x).govHeld = c.govHeld := rfl
@[simp] theorem Ctl.setPort_store (c : Ctl) (p : Nat) (x : XwPort) : (c.setPort p x).store = c.store := rfl
@[simp] theorem Ctl.setPort_intakes (c : Ctl) (p : Nat) (x : XwPort) : (c.setPort p x).intakes = c.intakes := rfl
@[simp] theorem Ctl.setPort_proto (c : Ctl) (p : Nat) (x : XwPort) : (c.setPort p x).proto = c.proto := rfl
@[simp] theorem Ctl.setPort_sec (c : Ctl) (p : Nat) (x : XwPort) : (c.setPort p x).sec = c.sec := rfl
@[simp] theorem Ctl.setPort_power (c : Ctl) (p : Nat) (x : XwPort) : (c.setPort p x).power = c.power := rfl
@[simp] theorem Ctl.setPort_service (c : Ctl) (p : Nat) (x : XwPort) : (c.setPort p x).service = c.service := rfl
@[simp] theorem Ctl.setPort_pins (c : Ctl) (p : Nat) (x : XwPort) : (c.setPort p x).pins = c.pins := rfl
@[simp] theorem Ctl.setPort_wq (c : Ctl) (p : Nat) (x : XwPort) : (c.setPort p x).wq = c.wq := rfl
@[simp] theorem Ctl.setPort_freeIx (c : Ctl) (p : Nat) (x : XwPort) : (c.setPort p x).freeIx = c.freeIx := rfl

/-! ### emit, setTag, countRaw, settle -/

@[simp] theorem emit_clk (ws : List Wr) (c : Ctl) : (emit ws c).clk = c.clk := rfl
@[simp] theorem emit_params (ws : List Wr) (c : Ctl) : (emit ws c).params = c.params := rfl
@[simp] theorem emit_counters (ws : List Wr) (c : Ctl) : (emit ws c).counters = c.counters := rfl
@[simp] theorem emit_slotTags (ws : List Wr) (c : Ctl) : (emit ws c).slotTags = c.slotTags := rfl
@[simp] theorem emit_tagTimes (ws : List Wr) (c : Ctl) : (emit ws c).tagTimes = c.tagTimes := rfl
@[simp] theorem emit_plane (ws : List Wr) (c : Ctl) : (emit ws c).plane = c.plane := rfl
@[simp] theorem emit_tiles (ws : List Wr) (c : Ctl) : (emit ws c).tiles = c.tiles := rfl
@[simp] theorem emit_jobs (ws : List Wr) (c : Ctl) : (emit ws c).jobs = c.jobs := rfl
@[simp] theorem emit_ctxs (ws : List Wr) (c : Ctl) : (emit ws c).ctxs = c.ctxs := rfl
@[simp] theorem emit_xfers (ws : List Wr) (c : Ctl) : (emit ws c).xfers = c.xfers := rfl
@[simp] theorem emit_charges (ws : List Wr) (c : Ctl) : (emit ws c).charges = c.charges := rfl
@[simp] theorem emit_govHeld (ws : List Wr) (c : Ctl) : (emit ws c).govHeld = c.govHeld := rfl
@[simp] theorem emit_store (ws : List Wr) (c : Ctl) : (emit ws c).store = c.store := rfl
@[simp] theorem emit_intakes (ws : List Wr) (c : Ctl) : (emit ws c).intakes = c.intakes := rfl
@[simp] theorem emit_proto (ws : List Wr) (c : Ctl) : (emit ws c).proto = c.proto := rfl
@[simp] theorem emit_group (ws : List Wr) (c : Ctl) : (emit ws c).group = c.group := rfl
@[simp] theorem emit_sec (ws : List Wr) (c : Ctl) : (emit ws c).sec = c.sec := rfl
@[simp] theorem emit_power (ws : List Wr) (c : Ctl) : (emit ws c).power = c.power := rfl
@[simp] theorem emit_service (ws : List Wr) (c : Ctl) : (emit ws c).service = c.service := rfl
@[simp] theorem emit_pins (ws : List Wr) (c : Ctl) : (emit ws c).pins = c.pins := rfl
@[simp] theorem emit_wq (ws : List Wr) (c : Ctl) : (emit ws c).wq = c.wq ++ ws := rfl
@[simp] theorem emit_freeIx (ws : List Wr) (c : Ctl) : (emit ws c).freeIx = c.freeIx := rfl
@[simp] theorem setTag_clk (k v : Nat) (c : Ctl) : (setTag k v c).clk = c.clk := rfl
@[simp] theorem setTag_params (k v : Nat) (c : Ctl) : (setTag k v c).params = c.params := rfl
@[simp] theorem setTag_counters (k v : Nat) (c : Ctl) : (setTag k v c).counters = c.counters := rfl
@[simp] theorem setTag_slotTags (k v : Nat) (c : Ctl) : (setTag k v c).slotTags = SMap.put 0 c.slotTags k v := rfl
@[simp] theorem setTag_tagTimes (k v : Nat) (c : Ctl) : (setTag k v c).tagTimes = SMap.put 0 c.tagTimes k c.clk.ns := rfl
@[simp] theorem setTag_plane (k v : Nat) (c : Ctl) : (setTag k v c).plane = c.plane := rfl
@[simp] theorem setTag_tiles (k v : Nat) (c : Ctl) : (setTag k v c).tiles = c.tiles := rfl
@[simp] theorem setTag_jobs (k v : Nat) (c : Ctl) : (setTag k v c).jobs = c.jobs := rfl
@[simp] theorem setTag_ctxs (k v : Nat) (c : Ctl) : (setTag k v c).ctxs = c.ctxs := rfl
@[simp] theorem setTag_xfers (k v : Nat) (c : Ctl) : (setTag k v c).xfers = c.xfers := rfl
@[simp] theorem setTag_charges (k v : Nat) (c : Ctl) : (setTag k v c).charges = c.charges := rfl
@[simp] theorem setTag_govHeld (k v : Nat) (c : Ctl) : (setTag k v c).govHeld = c.govHeld := rfl
@[simp] theorem setTag_store (k v : Nat) (c : Ctl) : (setTag k v c).store = c.store := rfl
@[simp] theorem setTag_intakes (k v : Nat) (c : Ctl) : (setTag k v c).intakes = c.intakes := rfl
@[simp] theorem setTag_proto (k v : Nat) (c : Ctl) : (setTag k v c).proto = c.proto := rfl
@[simp] theorem setTag_group (k v : Nat) (c : Ctl) : (setTag k v c).group = c.group := rfl
@[simp] theorem setTag_sec (k v : Nat) (c : Ctl) : (setTag k v c).sec = c.sec := rfl
@[simp] theorem setTag_power (k v : Nat) (c : Ctl) : (setTag k v c).power = c.power := rfl
@[simp] theorem setTag_service (k v : Nat) (c : Ctl) : (setTag k v c).service = c.service := rfl
@[simp] theorem setTag_pins (k v : Nat) (c : Ctl) : (setTag k v c).pins = c.pins := rfl
@[simp] theorem setTag_wq (k v : Nat) (c : Ctl) : (setTag k v c).wq = c.wq := rfl
@[simp] theorem setTag_freeIx (k v : Nat) (c : Ctl) : (setTag k v c).freeIx = c.freeIx := rfl
@[simp] theorem countRaw_clk (k : Cnt) (i n : Nat) (c : Ctl) : (countRaw k i n c).clk = c.clk := rfl
@[simp] theorem countRaw_params (k : Cnt) (i n : Nat) (c : Ctl) : (countRaw k i n c).params = c.params := rfl
@[simp] theorem countRaw_slotTags (k : Cnt) (i n : Nat) (c : Ctl) : (countRaw k i n c).slotTags = c.slotTags := rfl
@[simp] theorem countRaw_tagTimes (k : Cnt) (i n : Nat) (c : Ctl) : (countRaw k i n c).tagTimes = c.tagTimes := rfl
@[simp] theorem countRaw_plane (k : Cnt) (i n : Nat) (c : Ctl) : (countRaw k i n c).plane = c.plane := rfl
@[simp] theorem countRaw_tiles (k : Cnt) (i n : Nat) (c : Ctl) : (countRaw k i n c).tiles = c.tiles := rfl
@[simp] theorem countRaw_jobs (k : Cnt) (i n : Nat) (c : Ctl) : (countRaw k i n c).jobs = c.jobs := rfl
@[simp] theorem countRaw_ctxs (k : Cnt) (i n : Nat) (c : Ctl) : (countRaw k i n c).ctxs = c.ctxs := rfl
@[simp] theorem countRaw_xfers (k : Cnt) (i n : Nat) (c : Ctl) : (countRaw k i n c).xfers = c.xfers := rfl
@[simp] theorem countRaw_charges (k : Cnt) (i n : Nat) (c : Ctl) : (countRaw k i n c).charges = c.charges := rfl
@[simp] theorem countRaw_govHeld (k : Cnt) (i n : Nat) (c : Ctl) : (countRaw k i n c).govHeld = c.govHeld := rfl
@[simp] theorem countRaw_store (k : Cnt) (i n : Nat) (c : Ctl) : (countRaw k i n c).store = c.store := rfl
@[simp] theorem countRaw_intakes (k : Cnt) (i n : Nat) (c : Ctl) : (countRaw k i n c).intakes = c.intakes := rfl
@[simp] theorem countRaw_proto (k : Cnt) (i n : Nat) (c : Ctl) : (countRaw k i n c).proto = c.proto := rfl
@[simp] theorem countRaw_group (k : Cnt) (i n : Nat) (c : Ctl) : (countRaw k i n c).group = c.group := rfl
@[simp] theorem countRaw_sec (k : Cnt) (i n : Nat) (c : Ctl) : (countRaw k i n c).sec = c.sec := rfl
@[simp] theorem countRaw_power (k : Cnt) (i n : Nat) (c : Ctl) : (countRaw k i n c).power = c.power := rfl
@[simp] theorem countRaw_service (k : Cnt) (i n : Nat) (c : Ctl) : (countRaw k i n c).service = c.service := rfl
@[simp] theorem countRaw_pins (k : Cnt) (i n : Nat) (c : Ctl) : (countRaw k i n c).pins = c.pins := rfl
@[simp] theorem countRaw_wq (k : Cnt) (i n : Nat) (c : Ctl) : (countRaw k i n c).wq = c.wq := rfl
@[simp] theorem countRaw_freeIx (k : Cnt) (i n : Nat) (c : Ctl) : (countRaw k i n c).freeIx = c.freeIx := rfl
@[simp] theorem Ctl.settle_clk (c : Ctl) : c.settle.clk = c.clk := rfl
@[simp] theorem Ctl.settle_params (c : Ctl) : c.settle.params = c.params := rfl
@[simp] theorem Ctl.settle_counters (c : Ctl) : c.settle.counters = c.counters := rfl
@[simp] theorem Ctl.settle_slotTags (c : Ctl) : c.settle.slotTags = c.slotTags := rfl
@[simp] theorem Ctl.settle_tagTimes (c : Ctl) : c.settle.tagTimes = c.tagTimes := rfl
@[simp] theorem Ctl.settle_plane (c : Ctl) : c.settle.plane = c.plane := rfl
@[simp] theorem Ctl.settle_tiles (c : Ctl) : c.settle.tiles = c.tiles := rfl
@[simp] theorem Ctl.settle_jobs (c : Ctl) : c.settle.jobs = c.jobs := rfl
@[simp] theorem Ctl.settle_ctxs (c : Ctl) : c.settle.ctxs = c.ctxs := rfl
@[simp] theorem Ctl.settle_xfers (c : Ctl) : c.settle.xfers = c.xfers := rfl
@[simp] theorem Ctl.settle_charges (c : Ctl) : c.settle.charges = c.charges := rfl
@[simp] theorem Ctl.settle_govHeld (c : Ctl) : c.settle.govHeld = c.govHeld := rfl
@[simp] theorem Ctl.settle_intakes (c : Ctl) : c.settle.intakes = c.intakes := rfl
@[simp] theorem Ctl.settle_proto (c : Ctl) : c.settle.proto = c.proto := rfl
@[simp] theorem Ctl.settle_group (c : Ctl) : c.settle.group = c.group := rfl
@[simp] theorem Ctl.settle_sec (c : Ctl) : c.settle.sec = c.sec := rfl
@[simp] theorem Ctl.settle_power (c : Ctl) : c.settle.power = c.power := rfl
@[simp] theorem Ctl.settle_service (c : Ctl) : c.settle.service = c.service := rfl
@[simp] theorem Ctl.settle_pins (c : Ctl) : c.settle.pins = c.pins := rfl
@[simp] theorem Ctl.settle_wq (c : Ctl) : c.settle.wq = [] := rfl
@[simp] theorem Ctl.settle_freeIx (c : Ctl) : c.settle.freeIx = c.freeIx := rfl

end Sys2Proof.Machine
end

