-- ==== Sys2Proof/Laws/Ops.lean ====
section
/-! SUPPORT. What the shared operations do, each said once: writes into the memories, the end of a command, packets, events,
counters and slot tags. -/

namespace Sys2Proof.Machine

/-! ### The memories -/

theorem Mem.wf_iff (m : Mem) : m.wf = true ↔
    SMap.wf 0 m.bytes = true ∧ SMap.wf 0 m.wtags = true ∧ SMap.wf 0 m.flaws = true := by
  simp [Mem.wf, Bool.and_eq_true, and_assoc]

/-- One write keeps the canonical form. -/
theorem Mem.write1_wf {m : Mem} (h : m.wf = true) (w : Wr) : (m.write1 w).wf = true := by
  rw [Mem.wf_iff] at h ⊢
  obtain ⟨h1, h2, h3⟩ := h
  cases w with
  | data a b => exact ⟨SMap.put_wf h1 a b, h2, h3⟩
  | tag w b => exact ⟨h1, SMap.put_wf h2 w b, h3⟩
  | flaw k b => exact ⟨h1, h2, SMap.put_wf h3 k b⟩

/-- Every list of writes keeps the canonical form. -/
theorem Mem.apply_wf {m : Mem} (h : m.wf = true) (ws : List Wr) : (m.apply ws).wf = true := by
  induction ws generalizing m with
  | nil => exact h
  | cons w ws ih => exact ih (Mem.write1_wf h w)

@[simp] theorem Mem.apply_nil (m : Mem) : m.apply [] = m := rfl
@[simp] theorem Mem.apply_cons (m : Mem) (w : Wr) (ws : List Wr) : m.apply (w :: ws) = (m.write1 w).apply ws := rfl

theorem Mem.apply_append (m : Mem) (a b : List Wr) : m.apply (a ++ b) = (m.apply a).apply b := by
  induction a generalizing m with
  | nil => rfl
  | cons w a ih => exact ih (m.write1 w)

/-- One write changes the byte it names. -/
theorem Mem.byteAt_write1 (m : Mem) (w : Wr) (a : Nat) :
    (m.write1 w).byteAt a = match w with | .data b v => if a = b then v else m.byteAt a | _ => m.byteAt a := by
  cases w with
  | data b v => exact SMap.get_put 0 m.bytes b v a
  | tag _ _ => rfl
  | flaw _ _ => rfl

/-- One write changes the tag it names. -/
theorem Mem.tagAt_write1 (m : Mem) (w : Wr) (k : Nat) :
    (m.write1 w).tagAt k = match w with | .tag b v => if k = b then v else m.tagAt k | _ => m.tagAt k := by
  cases w with
  | tag b v => exact SMap.get_put 0 m.wtags b v k
  | data _ _ => rfl
  | flaw _ _ => rfl

/-- One write changes the symbol error it names. -/
theorem Mem.flaw_write1 (m : Mem) (w : Wr) (k : Nat) :
    SMap.get 0 (m.write1 w).flaws k = match w with | .flaw b v => if k = b then v else SMap.get 0 m.flaws k | _ => SMap.get 0 m.flaws k := by
  cases w with
  | flaw b v => exact SMap.get_put 0 m.flaws b v k
  | data _ _ => rfl
  | tag _ _ => rfl

/-- Writes that name no byte `a` leave it. -/
theorem Mem.byteAt_apply {m : Mem} {ws : List Wr} {a : Nat} (hw : ∀ v, Wr.data a v ∉ ws) :
    (m.apply ws).byteAt a = m.byteAt a := by
  induction ws generalizing m with
  | nil => rfl
  | cons w ws ih =>
    rw [Mem.apply_cons, ih fun v hv => hw v (List.mem_cons_of_mem _ hv), Mem.byteAt_write1]
    cases w with
    | data b v =>
      have : a ≠ b := fun e => hw v (by simp [e])
      simp [this]
    | tag _ _ => rfl
    | flaw _ _ => rfl

/-! ### Packets, events and counters -/

@[simp] theorem countRaw_quiet (k : Cnt) (i n : Nat) (c : Ctl) : (countRaw k i n c).quiet = c.quiet := rfl
@[simp] theorem send_quiet (p : Packet) (c : Ctl) : (send p c).quiet = c.quiet := by
  unfold send
  split <;> rfl

theorem foldl_quiet {α : Type} (f : Ctl → α → Ctl) (h : ∀ c x, (f c x).quiet = c.quiet) (l : List α) (c : Ctl) :
    (l.foldl f c).quiet = c.quiet := by
  induction l generalizing c with
  | nil => rfl
  | cons x l ih => rw [List.foldl_cons, ih, h]

@[simp] theorem event_quiet (code job status list idx tag : Nat) (detail : List Byte) (more : List Peer) (c : Ctl) :
    (event code job status list idx tag detail more c).quiet = c.quiet := by
  unfold event
  exact foldl_quiet _ (fun c d => send_quiet _ c) _ _

@[simp] theorem serviceEvent_quiet (kind block inst value : Nat) (c : Ctl) :
    (serviceEvent kind block inst value c).quiet = c.quiet := by
  unfold serviceEvent
  dsimp only
  split
  · rfl
  · rw [event_quiet]
    rfl

@[simp] theorem count_quiet (k : Cnt) (i n : Nat) (c : Ctl) : (count k i n c).quiet = c.quiet := by
  unfold count
  dsimp only
  split
  · rfl
  · split
    · rw [countRaw_quiet, serviceEvent_quiet, countRaw_quiet]
    · rfl

theorem Ctl.clk_of_quiet {a b : Ctl} (h : a.quiet = b.quiet) : a.clk = b.clk :=
  (congrArg Ctl.clk h : a.quiet.clk = b.quiet.clk)
theorem Ctl.params_of_quiet {a b : Ctl} (h : a.quiet = b.quiet) : a.params = b.params :=
  (congrArg Ctl.params h : a.quiet.params = b.quiet.params)
theorem Ctl.slotTags_of_quiet {a b : Ctl} (h : a.quiet = b.quiet) : a.slotTags = b.slotTags :=
  (congrArg Ctl.slotTags h : a.quiet.slotTags = b.quiet.slotTags)
theorem Ctl.tagTimes_of_quiet {a b : Ctl} (h : a.quiet = b.quiet) : a.tagTimes = b.tagTimes :=
  (congrArg Ctl.tagTimes h : a.quiet.tagTimes = b.quiet.tagTimes)
theorem Ctl.plane_of_quiet {a b : Ctl} (h : a.quiet = b.quiet) : a.plane = b.plane :=
  (congrArg Ctl.plane h : a.quiet.plane = b.quiet.plane)
theorem Ctl.tiles_of_quiet {a b : Ctl} (h : a.quiet = b.quiet) : a.tiles = b.tiles :=
  (congrArg Ctl.tiles h : a.quiet.tiles = b.quiet.tiles)
theorem Ctl.jobs_of_quiet {a b : Ctl} (h : a.quiet = b.quiet) : a.jobs = b.jobs :=
  (congrArg Ctl.jobs h : a.quiet.jobs = b.quiet.jobs)
theorem Ctl.ctxs_of_quiet {a b : Ctl} (h : a.quiet = b.quiet) : a.ctxs = b.ctxs :=
  (congrArg Ctl.ctxs h : a.quiet.ctxs = b.quiet.ctxs)
theorem Ctl.xfers_of_quiet {a b : Ctl} (h : a.quiet = b.quiet) : a.xfers = b.xfers :=
  (congrArg Ctl.xfers h : a.quiet.xfers = b.quiet.xfers)
theorem Ctl.charges_of_quiet {a b : Ctl} (h : a.quiet = b.quiet) : a.charges = b.charges :=
  (congrArg Ctl.charges h : a.quiet.charges = b.quiet.charges)
theorem Ctl.store_of_quiet {a b : Ctl} (h : a.quiet = b.quiet) : a.store = b.store :=
  (congrArg Ctl.store h : a.quiet.store = b.quiet.store)
theorem Ctl.intakes_of_quiet {a b : Ctl} (h : a.quiet = b.quiet) : a.intakes = b.intakes :=
  (congrArg Ctl.intakes h : a.quiet.intakes = b.quiet.intakes)
theorem Ctl.group_of_quiet {a b : Ctl} (h : a.quiet = b.quiet) : a.group = b.group :=
  (congrArg Ctl.group h : a.quiet.group = b.quiet.group)
theorem Ctl.sec_of_quiet {a b : Ctl} (h : a.quiet = b.quiet) : a.sec = b.sec :=
  (congrArg Ctl.sec h : a.quiet.sec = b.quiet.sec)
theorem Ctl.power_of_quiet {a b : Ctl} (h : a.quiet = b.quiet) : a.power = b.power :=
  (congrArg Ctl.power h : a.quiet.power = b.quiet.power)
theorem Ctl.service_of_quiet {a b : Ctl} (h : a.quiet = b.quiet) : a.service = b.service :=
  (congrArg Ctl.service h : a.quiet.service = b.quiet.service)
theorem Ctl.pins_of_quiet {a b : Ctl} (h : a.quiet = b.quiet) : a.pins = b.pins :=
  (congrArg Ctl.pins h : a.quiet.pins = b.quiet.pins)
theorem Ctl.wq_of_quiet {a b : Ctl} (h : a.quiet = b.quiet) : a.wq = b.wq :=
  (congrArg Ctl.wq h : a.quiet.wq = b.quiet.wq)
theorem Ctl.proto_epoch_of_quiet {a b : Ctl} (h : a.quiet = b.quiet) : a.proto.epoch = b.proto.epoch :=
  (congrArg (fun c => c.proto.epoch) h : a.quiet.proto.epoch = b.quiet.proto.epoch)
theorem Ctl.proto_cache_of_quiet {a b : Ctl} (h : a.quiet = b.quiet) : a.proto.cache = b.proto.cache :=
  (congrArg (fun c => c.proto.cache) h : a.quiet.proto.cache = b.quiet.proto.cache)
theorem Ctl.proto_staged_of_quiet {a b : Ctl} (h : a.quiet = b.quiet) : a.proto.staged = b.proto.staged :=
  (congrArg (fun c => c.proto.staged) h : a.quiet.proto.staged = b.quiet.proto.staged)
theorem Ctl.proto_xfers_of_quiet {a b : Ctl} (h : a.quiet = b.quiet) : a.proto.xfers = b.proto.xfers :=
  (congrArg (fun c => c.proto.xfers) h : a.quiet.proto.xfers = b.quiet.proto.xfers)
theorem Ctl.proto_replies_of_quiet {a b : Ctl} (h : a.quiet = b.quiet) : a.proto.replies = b.proto.replies :=
  (congrArg (fun c => c.proto.replies) h : a.quiet.proto.replies = b.quiet.proto.replies)
theorem Ctl.proto_linkUp_of_quiet {a b : Ctl} (h : a.quiet = b.quiet) : a.proto.linkUp = b.proto.linkUp :=
  (congrArg (fun c => c.proto.linkUp) h : a.quiet.proto.linkUp = b.quiet.proto.linkUp)
theorem Ctl.proto_sa_of_quiet {a b : Ctl} (h : a.quiet = b.quiet) : a.proto.sa = b.proto.sa :=
  (congrArg (fun c => c.proto.sa) h : a.quiet.proto.sa = b.quiet.proto.sa)
theorem Ctl.proto_active_of_quiet {a b : Ctl} (h : a.quiet = b.quiet) : a.proto.active = b.proto.active :=
  (congrArg (fun c => c.proto.active) h : a.quiet.proto.active = b.quiet.proto.active)
theorem Ctl.proto_sync_of_quiet {a b : Ctl} (h : a.quiet = b.quiet) : a.proto.sync = b.proto.sync :=
  (congrArg (fun c => c.proto.sync) h : a.quiet.proto.sync = b.quiet.proto.sync)
theorem Ctl.proto_unsync_of_quiet {a b : Ctl} (h : a.quiet = b.quiet) : a.proto.unsync = b.proto.unsync :=
  (congrArg (fun c => c.proto.unsync) h : a.quiet.proto.unsync = b.quiet.proto.unsync)
theorem Ctl.proto_slavePort_of_quiet {a b : Ctl} (h : a.quiet = b.quiet) : a.proto.slavePort = b.proto.slavePort :=
  (congrArg (fun c => c.proto.slavePort) h : a.quiet.proto.slavePort = b.quiet.proto.slavePort)
theorem Ctl.proto_peerDelay_of_quiet {a b : Ctl} (h : a.quiet = b.quiet) : a.proto.peerDelay = b.proto.peerDelay :=
  (congrArg (fun c => c.proto.peerDelay) h : a.quiet.proto.peerDelay = b.quiet.proto.peerDelay)
theorem Ctl.proto_galeStarts_of_quiet {a b : Ctl} (h : a.quiet = b.quiet) : a.proto.galeStarts = b.proto.galeStarts :=
  (congrArg (fun c => c.proto.galeStarts) h : a.quiet.proto.galeStarts = b.quiet.proto.galeStarts)
theorem Ctl.proto_wearSent_of_quiet {a b : Ctl} (h : a.quiet = b.quiet) : a.proto.wearSent = b.proto.wearSent :=
  (congrArg (fun c => c.proto.wearSent) h : a.quiet.proto.wearSent = b.quiet.proto.wearSent)

@[simp] theorem send_clk (p : Packet) (c : Ctl) :
    (send p c).clk = c.clk := Ctl.clk_of_quiet (send_quiet p c)
@[simp] theorem send_params (p : Packet) (c : Ctl) :
    (send p c).params = c.params := Ctl.params_of_quiet (send_quiet p c)
@[simp] theorem send_slotTags (p : Packet) (c : Ctl) :
    (send p c).slotTags = c.slotTags := Ctl.slotTags_of_quiet (send_quiet p c)
@[simp] theorem send_tagTimes (p : Packet) (c : Ctl) :
    (send p c).tagTimes = c.tagTimes := Ctl.tagTimes_of_quiet (send_quiet p c)
@[simp] theorem send_plane (p : Packet) (c : Ctl) :
    (send p c).plane = c.plane := Ctl.plane_of_quiet (send_quiet p c)
@[simp] theorem send_tiles (p : Packet) (c : Ctl) :
    (send p c).tiles = c.tiles := Ctl.tiles_of_quiet (send_quiet p c)
@[simp] theorem send_jobs (p : Packet) (c : Ctl) :
    (send p c).jobs = c.jobs := Ctl.jobs_of_quiet (send_quiet p c)
@[simp] theorem send_ctxs (p : Packet) (c : Ctl) :
    (send p c).ctxs = c.ctxs := Ctl.ctxs_of_quiet (send_quiet p c)
@[simp] theorem send_xfers (p : Packet) (c : Ctl) :
    (send p c).xfers = c.xfers := Ctl.xfers_of_quiet (send_quiet p c)
@[simp] theorem send_charges (p : Packet) (c : Ctl) :
    (send p c).charges = c.charges := Ctl.charges_of_quiet (send_quiet p c)
@[simp] theorem send_store (p : Packet) (c : Ctl) :
    (send p c).store = c.store := Ctl.store_of_quiet (send_quiet p c)
@[simp] theorem send_intakes (p : Packet) (c : Ctl) :
    (send p c).intakes = c.intakes := Ctl.intakes_of_quiet (send_quiet p c)
@[simp] theorem send_group (p : Packet) (c : Ctl) :
    (send p c).group = c.group := Ctl.group_of_quiet (send_quiet p c)
@[simp] theorem send_sec (p : Packet) (c : Ctl) :
    (send p c).sec = c.sec := Ctl.sec_of_quiet (send_quiet p c)
@[simp] theorem send_power (p : Packet) (c : Ctl) :
    (send p c).power = c.power := Ctl.power_of_quiet (send_quiet p c)
@[simp] theorem send_service (p : Packet) (c : Ctl) :
    (send p c).service = c.service := Ctl.service_of_quiet (send_quiet p c)
@[simp] theorem send_pins (p : Packet) (c : Ctl) :
    (send p c).pins = c.pins := Ctl.pins_of_quiet (send_quiet p c)
@[simp] theorem send_wq (p : Packet) (c : Ctl) :
    (send p c).wq = c.wq := Ctl.wq_of_quiet (send_quiet p c)
@[simp] theorem send_proto_epoch (p : Packet) (c : Ctl) :
    (send p c).proto.epoch = c.proto.epoch := Ctl.proto_epoch_of_quiet (send_quiet p c)
@[simp] theorem send_proto_cache (p : Packet) (c : Ctl) :
    (send p c).proto.cache = c.proto.cache := Ctl.proto_cache_of_quiet (send_quiet p c)
@[simp] theorem send_proto_staged (p : Packet) (c : Ctl) :
    (send p c).proto.staged = c.proto.staged := Ctl.proto_staged_of_quiet (send_quiet p c)
@[simp] theorem send_proto_xfers (p : Packet) (c : Ctl) :
    (send p c).proto.xfers = c.proto.xfers := Ctl.proto_xfers_of_quiet (send_quiet p c)
@[simp] theorem send_proto_replies (p : Packet) (c : Ctl) :
    (send p c).proto.replies = c.proto.replies := Ctl.proto_replies_of_quiet (send_quiet p c)
@[simp] theorem send_proto_linkUp (p : Packet) (c : Ctl) :
    (send p c).proto.linkUp = c.proto.linkUp := Ctl.proto_linkUp_of_quiet (send_quiet p c)
@[simp] theorem send_proto_sa (p : Packet) (c : Ctl) :
    (send p c).proto.sa = c.proto.sa := Ctl.proto_sa_of_quiet (send_quiet p c)
@[simp] theorem send_proto_active (p : Packet) (c : Ctl) :
    (send p c).proto.active = c.proto.active := Ctl.proto_active_of_quiet (send_quiet p c)
@[simp] theorem send_proto_sync (p : Packet) (c : Ctl) :
    (send p c).proto.sync = c.proto.sync := Ctl.proto_sync_of_quiet (send_quiet p c)
@[simp] theorem send_proto_unsync (p : Packet) (c : Ctl) :
    (send p c).proto.unsync = c.proto.unsync := Ctl.proto_unsync_of_quiet (send_quiet p c)
@[simp] theorem send_proto_slavePort (p : Packet) (c : Ctl) :
    (send p c).proto.slavePort = c.proto.slavePort := Ctl.proto_slavePort_of_quiet (send_quiet p c)
@[simp] theorem send_proto_peerDelay (p : Packet) (c : Ctl) :
    (send p c).proto.peerDelay = c.proto.peerDelay := Ctl.proto_peerDelay_of_quiet (send_quiet p c)
@[simp] theorem send_proto_galeStarts (p : Packet) (c : Ctl) :
    (send p c).proto.galeStarts = c.proto.galeStarts := Ctl.proto_galeStarts_of_quiet (send_quiet p c)
@[simp] theorem send_proto_wearSent (p : Packet) (c : Ctl) :
    (send p c).proto.wearSent = c.proto.wearSent := Ctl.proto_wearSent_of_quiet (send_quiet p c)
@[simp] theorem event_clk (code job status list idx tag : Nat) (detail : List Byte) (more : List Peer) (c : Ctl) :
    (event code job status list idx tag detail more c).clk = c.clk := Ctl.clk_of_quiet (event_quiet code job status list idx tag detail more c)
@[simp] theorem event_params (code job status list idx tag : Nat) (detail : List Byte) (more : List Peer) (c : Ctl) :
    (event code job status list idx tag detail more c).params = c.params := Ctl.params_of_quiet (event_quiet code job status list idx tag detail more c)
@[simp] theorem event_slotTags (code job status list idx tag : Nat) (detail : List Byte) (more : List Peer) (c : Ctl) :
    (event code job status list idx tag detail more c).slotTags = c.slotTags := Ctl.slotTags_of_quiet (event_quiet code job status list idx tag detail more c)
@[simp] theorem event_tagTimes (code job status list idx tag : Nat) (detail : List Byte) (more : List Peer) (c : Ctl) :
    (event code job status list idx tag detail more c).tagTimes = c.tagTimes := Ctl.tagTimes_of_quiet (event_quiet code job status list idx tag detail more c)
@[simp] theorem event_plane (code job status list idx tag : Nat) (detail : List Byte) (more : List Peer) (c : Ctl) :
    (event code job status list idx tag detail more c).plane = c.plane := Ctl.plane_of_quiet (event_quiet code job status list idx tag detail more c)
@[simp] theorem event_tiles (code job status list idx tag : Nat) (detail : List Byte) (more : List Peer) (c : Ctl) :
    (event code job status list idx tag detail more c).tiles = c.tiles := Ctl.tiles_of_quiet (event_quiet code job status list idx tag detail more c)
@[simp] theorem event_jobs (code job status list idx tag : Nat) (detail : List Byte) (more : List Peer) (c : Ctl) :
    (event code job status list idx tag detail more c).jobs = c.jobs := Ctl.jobs_of_quiet (event_quiet code job status list idx tag detail more c)
@[simp] theorem event_ctxs (code job status list idx tag : Nat) (detail : List Byte) (more : List Peer) (c : Ctl) :
    (event code job status list idx tag detail more c).ctxs = c.ctxs := Ctl.ctxs_of_quiet (event_quiet code job status list idx tag detail more c)
@[simp] theorem event_xfers (code job status list idx tag : Nat) (detail : List Byte) (more : List Peer) (c : Ctl) :
    (event code job status list idx tag detail more c).xfers = c.xfers := Ctl.xfers_of_quiet (event_quiet code job status list idx tag detail more c)
@[simp] theorem event_charges (code job status list idx tag : Nat) (detail : List Byte) (more : List Peer) (c : Ctl) :
    (event code job status list idx tag detail more c).charges = c.charges := Ctl.charges_of_quiet (event_quiet code job status list idx tag detail more c)
@[simp] theorem event_store (code job status list idx tag : Nat) (detail : List Byte) (more : List Peer) (c : Ctl) :
    (event code job status list idx tag detail more c).store = c.store := Ctl.store_of_quiet (event_quiet code job status list idx tag detail more c)
@[simp] theorem event_intakes (code job status list idx tag : Nat) (detail : List Byte) (more : List Peer) (c : Ctl) :
    (event code job status list idx tag detail more c).intakes = c.intakes := Ctl.intakes_of_quiet (event_quiet code job status list idx tag detail more c)
@[simp] theorem event_group (code job status list idx tag : Nat) (detail : List Byte) (more : List Peer) (c : Ctl) :
    (event code job status list idx tag detail more c).group = c.group := Ctl.group_of_quiet (event_quiet code job status list idx tag detail more c)
@[simp] theorem event_sec (code job status list idx tag : Nat) (detail : List Byte) (more : List Peer) (c : Ctl) :
    (event code job status list idx tag detail more c).sec = c.sec := Ctl.sec_of_quiet (event_quiet code job status list idx tag detail more c)
@[simp] theorem event_power (code job status list idx tag : Nat) (detail : List Byte) (more : List Peer) (c : Ctl) :
    (event code job status list idx tag detail more c).power = c.power := Ctl.power_of_quiet (event_quiet code job status list idx tag detail more c)
@[simp] theorem event_service (code job status list idx tag : Nat) (detail : List Byte) (more : List Peer) (c : Ctl) :
    (event code job status list idx tag detail more c).service = c.service := Ctl.service_of_quiet (event_quiet code job status list idx tag detail more c)
@[simp] theorem event_pins (code job status list idx tag : Nat) (detail : List Byte) (more : List Peer) (c : Ctl) :
    (event code job status list idx tag detail more c).pins = c.pins := Ctl.pins_of_quiet (event_quiet code job status list idx tag detail more c)
@[simp] theorem event_wq (code job status list idx tag : Nat) (detail : List Byte) (more : List Peer) (c : Ctl) :
    (event code job status list idx tag detail more c).wq = c.wq := Ctl.wq_of_quiet (event_quiet code job status list idx tag detail more c)
@[simp] theorem event_proto_epoch (code job status list idx tag : Nat) (detail : List Byte) (more : List Peer) (c : Ctl) :
    (event code job status list idx tag detail more c).proto.epoch = c.proto.epoch := Ctl.proto_epoch_of_quiet (event_quiet code job status list idx tag detail more c)
@[simp] theorem event_proto_cache (code job status list idx tag : Nat) (detail : List Byte) (more : List Peer) (c : Ctl) :
    (event code job status list idx tag detail more c).proto.cache = c.proto.cache := Ctl.proto_cache_of_quiet (event_quiet code job status list idx tag detail more c)
@[simp] theorem event_proto_staged (code job status list idx tag : Nat) (detail : List Byte) (more : List Peer) (c : Ctl) :
    (event code job status list idx tag detail more c).proto.staged = c.proto.staged := Ctl.proto_staged_of_quiet (event_quiet code job status list idx tag detail more c)
@[simp] theorem event_proto_xfers (code job status list idx tag : Nat) (detail : List Byte) (more : List Peer) (c : Ctl) :
    (event code job status list idx tag detail more c).proto.xfers = c.proto.xfers := Ctl.proto_xfers_of_quiet (event_quiet code job status list idx tag detail more c)
@[simp] theorem event_proto_replies (code job status list idx tag : Nat) (detail : List Byte) (more : List Peer) (c : Ctl) :
    (event code job status list idx tag detail more c).proto.replies = c.proto.replies := Ctl.proto_replies_of_quiet (event_quiet code job status list idx tag detail more c)
@[simp] theorem event_proto_linkUp (code job status list idx tag : Nat) (detail : List Byte) (more : List Peer) (c : Ctl) :
    (event code job status list idx tag detail more c).proto.linkUp = c.proto.linkUp := Ctl.proto_linkUp_of_quiet (event_quiet code job status list idx tag detail more c)
@[simp] theorem event_proto_sa (code job status list idx tag : Nat) (detail : List Byte) (more : List Peer) (c : Ctl) :
    (event code job status list idx tag detail more c).proto.sa = c.proto.sa := Ctl.proto_sa_of_quiet (event_quiet code job status list idx tag detail more c)
@[simp] theorem event_proto_active (code job status list idx tag : Nat) (detail : List Byte) (more : List Peer) (c : Ctl) :
    (event code job status list idx tag detail more c).proto.active = c.proto.active := Ctl.proto_active_of_quiet (event_quiet code job status list idx tag detail more c)
@[simp] theorem event_proto_sync (code job status list idx tag : Nat) (detail : List Byte) (more : List Peer) (c : Ctl) :
    (event code job status list idx tag detail more c).proto.sync = c.proto.sync := Ctl.proto_sync_of_quiet (event_quiet code job status list idx tag detail more c)
@[simp] theorem event_proto_unsync (code job status list idx tag : Nat) (detail : List Byte) (more : List Peer) (c : Ctl) :
    (event code job status list idx tag detail more c).proto.unsync = c.proto.unsync := Ctl.proto_unsync_of_quiet (event_quiet code job status list idx tag detail more c)
@[simp] theorem event_proto_slavePort (code job status list idx tag : Nat) (detail : List Byte) (more : List Peer) (c : Ctl) :
    (event code job status list idx tag detail more c).proto.slavePort = c.proto.slavePort := Ctl.proto_slavePort_of_quiet (event_quiet code job status list idx tag detail more c)
@[simp] theorem event_proto_peerDelay (code job status list idx tag : Nat) (detail : List Byte) (more : List Peer) (c : Ctl) :
    (event code job status list idx tag detail more c).proto.peerDelay = c.proto.peerDelay := Ctl.proto_peerDelay_of_quiet (event_quiet code job status list idx tag detail more c)
@[simp] theorem event_proto_galeStarts (code job status list idx tag : Nat) (detail : List Byte) (more : List Peer) (c : Ctl) :
    (event code job status list idx tag detail more c).proto.galeStarts = c.proto.galeStarts := Ctl.proto_galeStarts_of_quiet (event_quiet code job status list idx tag detail more c)
@[simp] theorem event_proto_wearSent (code job status list idx tag : Nat) (detail : List Byte) (more : List Peer) (c : Ctl) :
    (event code job status list idx tag detail more c).proto.wearSent = c.proto.wearSent := Ctl.proto_wearSent_of_quiet (event_quiet code job status list idx tag detail more c)
@[simp] theorem serviceEvent_clk (kind block inst value : Nat) (c : Ctl) :
    (serviceEvent kind block inst value c).clk = c.clk := Ctl.clk_of_quiet (serviceEvent_quiet kind block inst value c)
@[simp] theorem serviceEvent_params (kind block inst value : Nat) (c : Ctl) :
    (serviceEvent kind block inst value c).params = c.params := Ctl.params_of_quiet (serviceEvent_quiet kind block inst value c)
@[simp] theorem serviceEvent_slotTags (kind block inst value : Nat) (c : Ctl) :
    (serviceEvent kind block inst value c).slotTags = c.slotTags := Ctl.slotTags_of_quiet (serviceEvent_quiet kind block inst value c)
@[simp] theorem serviceEvent_tagTimes (kind block inst value : Nat) (c : Ctl) :
    (serviceEvent kind block inst value c).tagTimes = c.tagTimes := Ctl.tagTimes_of_quiet (serviceEvent_quiet kind block inst value c)
@[simp] theorem serviceEvent_plane (kind block inst value : Nat) (c : Ctl) :
    (serviceEvent kind block inst value c).plane = c.plane := Ctl.plane_of_quiet (serviceEvent_quiet kind block inst value c)
@[simp] theorem serviceEvent_tiles (kind block inst value : Nat) (c : Ctl) :
    (serviceEvent kind block inst value c).tiles = c.tiles := Ctl.tiles_of_quiet (serviceEvent_quiet kind block inst value c)
@[simp] theorem serviceEvent_jobs (kind block inst value : Nat) (c : Ctl) :
    (serviceEvent kind block inst value c).jobs = c.jobs := Ctl.jobs_of_quiet (serviceEvent_quiet kind block inst value c)
@[simp] theorem serviceEvent_ctxs (kind block inst value : Nat) (c : Ctl) :
    (serviceEvent kind block inst value c).ctxs = c.ctxs := Ctl.ctxs_of_quiet (serviceEvent_quiet kind block inst value c)
@[simp] theorem serviceEvent_xfers (kind block inst value : Nat) (c : Ctl) :
    (serviceEvent kind block inst value c).xfers = c.xfers := Ctl.xfers_of_quiet (serviceEvent_quiet kind block inst value c)
@[simp] theorem serviceEvent_charges (kind block inst value : Nat) (c : Ctl) :
    (serviceEvent kind block inst value c).charges = c.charges := Ctl.charges_of_quiet (serviceEvent_quiet kind block inst value c)
@[simp] theorem serviceEvent_store (kind block inst value : Nat) (c : Ctl) :
    (serviceEvent kind block inst value c).store = c.store := Ctl.store_of_quiet (serviceEvent_quiet kind block inst value c)
@[simp] theorem serviceEvent_intakes (kind block inst value : Nat) (c : Ctl) :
    (serviceEvent kind block inst value c).intakes = c.intakes := Ctl.intakes_of_quiet (serviceEvent_quiet kind block inst value c)
@[simp] theorem serviceEvent_group (kind block inst value : Nat) (c : Ctl) :
    (serviceEvent kind block inst value c).group = c.group := Ctl.group_of_quiet (serviceEvent_quiet kind block inst value c)
@[simp] theorem serviceEvent_sec (kind block inst value : Nat) (c : Ctl) :
    (serviceEvent kind block inst value c).sec = c.sec := Ctl.sec_of_quiet (serviceEvent_quiet kind block inst value c)
@[simp] theorem serviceEvent_power (kind block inst value : Nat) (c : Ctl) :
    (serviceEvent kind block inst value c).power = c.power := Ctl.power_of_quiet (serviceEvent_quiet kind block inst value c)
@[simp] theorem serviceEvent_service (kind block inst value : Nat) (c : Ctl) :
    (serviceEvent kind block inst value c).service = c.service := Ctl.service_of_quiet (serviceEvent_quiet kind block inst value c)
@[simp] theorem serviceEvent_pins (kind block inst value : Nat) (c : Ctl) :
    (serviceEvent kind block inst value c).pins = c.pins := Ctl.pins_of_quiet (serviceEvent_quiet kind block inst value c)
@[simp] theorem serviceEvent_wq (kind block inst value : Nat) (c : Ctl) :
    (serviceEvent kind block inst value c).wq = c.wq := Ctl.wq_of_quiet (serviceEvent_quiet kind block inst value c)
@[simp] theorem serviceEvent_proto_epoch (kind block inst value : Nat) (c : Ctl) :
    (serviceEvent kind block inst value c).proto.epoch = c.proto.epoch := Ctl.proto_epoch_of_quiet (serviceEvent_quiet kind block inst value c)
@[simp] theorem serviceEvent_proto_cache (kind block inst value : Nat) (c : Ctl) :
    (serviceEvent kind block inst value c).proto.cache = c.proto.cache := Ctl.proto_cache_of_quiet (serviceEvent_quiet kind block inst value c)
@[simp] theorem serviceEvent_proto_staged (kind block inst value : Nat) (c : Ctl) :
    (serviceEvent kind block inst value c).proto.staged = c.proto.staged := Ctl.proto_staged_of_quiet (serviceEvent_quiet kind block inst value c)
@[simp] theorem serviceEvent_proto_xfers (kind block inst value : Nat) (c : Ctl) :
    (serviceEvent kind block inst value c).proto.xfers = c.proto.xfers := Ctl.proto_xfers_of_quiet (serviceEvent_quiet kind block inst value c)
@[simp] theorem serviceEvent_proto_replies (kind block inst value : Nat) (c : Ctl) :
    (serviceEvent kind block inst value c).proto.replies = c.proto.replies := Ctl.proto_replies_of_quiet (serviceEvent_quiet kind block inst value c)
@[simp] theorem serviceEvent_proto_linkUp (kind block inst value : Nat) (c : Ctl) :
    (serviceEvent kind block inst value c).proto.linkUp = c.proto.linkUp := Ctl.proto_linkUp_of_quiet (serviceEvent_quiet kind block inst value c)
@[simp] theorem serviceEvent_proto_sa (kind block inst value : Nat) (c : Ctl) :
    (serviceEvent kind block inst value c).proto.sa = c.proto.sa := Ctl.proto_sa_of_quiet (serviceEvent_quiet kind block inst value c)
@[simp] theorem serviceEvent_proto_active (kind block inst value : Nat) (c : Ctl) :
    (serviceEvent kind block inst value c).proto.active = c.proto.active := Ctl.proto_active_of_quiet (serviceEvent_quiet kind block inst value c)
@[simp] theorem serviceEvent_proto_sync (kind block inst value : Nat) (c : Ctl) :
    (serviceEvent kind block inst value c).proto.sync = c.proto.sync := Ctl.proto_sync_of_quiet (serviceEvent_quiet kind block inst value c)
@[simp] theorem serviceEvent_proto_unsync (kind block inst value : Nat) (c : Ctl) :
    (serviceEvent kind block inst value c).proto.unsync = c.proto.unsync := Ctl.proto_unsync_of_quiet (serviceEvent_quiet kind block inst value c)
@[simp] theorem serviceEvent_proto_slavePort (kind block inst value : Nat) (c : Ctl) :
    (serviceEvent kind block inst value c).proto.slavePort = c.proto.slavePort := Ctl.proto_slavePort_of_quiet (serviceEvent_quiet kind block inst value c)
@[simp] theorem serviceEvent_proto_peerDelay (kind block inst value : Nat) (c : Ctl) :
    (serviceEvent kind block inst value c).proto.peerDelay = c.proto.peerDelay := Ctl.proto_peerDelay_of_quiet (serviceEvent_quiet kind block inst value c)
@[simp] theorem serviceEvent_proto_galeStarts (kind block inst value : Nat) (c : Ctl) :
    (serviceEvent kind block inst value c).proto.galeStarts = c.proto.galeStarts := Ctl.proto_galeStarts_of_quiet (serviceEvent_quiet kind block inst value c)
@[simp] theorem serviceEvent_proto_wearSent (kind block inst value : Nat) (c : Ctl) :
    (serviceEvent kind block inst value c).proto.wearSent = c.proto.wearSent := Ctl.proto_wearSent_of_quiet (serviceEvent_quiet kind block inst value c)
@[simp] theorem count_clk (k : Cnt) (i n : Nat) (c : Ctl) :
    (count k i n c).clk = c.clk := Ctl.clk_of_quiet (count_quiet k i n c)
@[simp] theorem count_params (k : Cnt) (i n : Nat) (c : Ctl) :
    (count k i n c).params = c.params := Ctl.params_of_quiet (count_quiet k i n c)
@[simp] theorem count_slotTags (k : Cnt) (i n : Nat) (c : Ctl) :
    (count k i n c).slotTags = c.slotTags := Ctl.slotTags_of_quiet (count_quiet k i n c)
@[simp] theorem count_tagTimes (k : Cnt) (i n : Nat) (c : Ctl) :
    (count k i n c).tagTimes = c.tagTimes := Ctl.tagTimes_of_quiet (count_quiet k i n c)
@[simp] theorem count_plane (k : Cnt) (i n : Nat) (c : Ctl) :
    (count k i n c).plane = c.plane := Ctl.plane_of_quiet (count_quiet k i n c)
@[simp] theorem count_tiles (k : Cnt) (i n : Nat) (c : Ctl) :
    (count k i n c).tiles = c.tiles := Ctl.tiles_of_quiet (count_quiet k i n c)
@[simp] theorem count_jobs (k : Cnt) (i n : Nat) (c : Ctl) :
    (count k i n c).jobs = c.jobs := Ctl.jobs_of_quiet (count_quiet k i n c)
@[simp] theorem count_ctxs (k : Cnt) (i n : Nat) (c : Ctl) :
    (count k i n c).ctxs = c.ctxs := Ctl.ctxs_of_quiet (count_quiet k i n c)
@[simp] theorem count_xfers (k : Cnt) (i n : Nat) (c : Ctl) :
    (count k i n c).xfers = c.xfers := Ctl.xfers_of_quiet (count_quiet k i n c)
@[simp] theorem count_charges (k : Cnt) (i n : Nat) (c : Ctl) :
    (count k i n c).charges = c.charges := Ctl.charges_of_quiet (count_quiet k i n c)
@[simp] theorem count_store (k : Cnt) (i n : Nat) (c : Ctl) :
    (count k i n c).store = c.store := Ctl.store_of_quiet (count_quiet k i n c)
@[simp] theorem count_intakes (k : Cnt) (i n : Nat) (c : Ctl) :
    (count k i n c).intakes = c.intakes := Ctl.intakes_of_quiet (count_quiet k i n c)
@[simp] theorem count_group (k : Cnt) (i n : Nat) (c : Ctl) :
    (count k i n c).group = c.group := Ctl.group_of_quiet (count_quiet k i n c)
@[simp] theorem count_sec (k : Cnt) (i n : Nat) (c : Ctl) :
    (count k i n c).sec = c.sec := Ctl.sec_of_quiet (count_quiet k i n c)
@[simp] theorem count_power (k : Cnt) (i n : Nat) (c : Ctl) :
    (count k i n c).power = c.power := Ctl.power_of_quiet (count_quiet k i n c)
@[simp] theorem count_service (k : Cnt) (i n : Nat) (c : Ctl) :
    (count k i n c).service = c.service := Ctl.service_of_quiet (count_quiet k i n c)
@[simp] theorem count_pins (k : Cnt) (i n : Nat) (c : Ctl) :
    (count k i n c).pins = c.pins := Ctl.pins_of_quiet (count_quiet k i n c)
@[simp] theorem count_wq (k : Cnt) (i n : Nat) (c : Ctl) :
    (count k i n c).wq = c.wq := Ctl.wq_of_quiet (count_quiet k i n c)
@[simp] theorem count_proto_epoch (k : Cnt) (i n : Nat) (c : Ctl) :
    (count k i n c).proto.epoch = c.proto.epoch := Ctl.proto_epoch_of_quiet (count_quiet k i n c)
@[simp] theorem count_proto_cache (k : Cnt) (i n : Nat) (c : Ctl) :
    (count k i n c).proto.cache = c.proto.cache := Ctl.proto_cache_of_quiet (count_quiet k i n c)
@[simp] theorem count_proto_staged (k : Cnt) (i n : Nat) (c : Ctl) :
    (count k i n c).proto.staged = c.proto.staged := Ctl.proto_staged_of_quiet (count_quiet k i n c)
@[simp] theorem count_proto_xfers (k : Cnt) (i n : Nat) (c : Ctl) :
    (count k i n c).proto.xfers = c.proto.xfers := Ctl.proto_xfers_of_quiet (count_quiet k i n c)
@[simp] theorem count_proto_replies (k : Cnt) (i n : Nat) (c : Ctl) :
    (count k i n c).proto.replies = c.proto.replies := Ctl.proto_replies_of_quiet (count_quiet k i n c)
@[simp] theorem count_proto_linkUp (k : Cnt) (i n : Nat) (c : Ctl) :
    (count k i n c).proto.linkUp = c.proto.linkUp := Ctl.proto_linkUp_of_quiet (count_quiet k i n c)
@[simp] theorem count_proto_sa (k : Cnt) (i n : Nat) (c : Ctl) :
    (count k i n c).proto.sa = c.proto.sa := Ctl.proto_sa_of_quiet (count_quiet k i n c)
@[simp] theorem count_proto_active (k : Cnt) (i n : Nat) (c : Ctl) :
    (count k i n c).proto.active = c.proto.active := Ctl.proto_active_of_quiet (count_quiet k i n c)
@[simp] theorem count_proto_sync (k : Cnt) (i n : Nat) (c : Ctl) :
    (count k i n c).proto.sync = c.proto.sync := Ctl.proto_sync_of_quiet (count_quiet k i n c)
@[simp] theorem count_proto_unsync (k : Cnt) (i n : Nat) (c : Ctl) :
    (count k i n c).proto.unsync = c.proto.unsync := Ctl.proto_unsync_of_quiet (count_quiet k i n c)
@[simp] theorem count_proto_slavePort (k : Cnt) (i n : Nat) (c : Ctl) :
    (count k i n c).proto.slavePort = c.proto.slavePort := Ctl.proto_slavePort_of_quiet (count_quiet k i n c)
@[simp] theorem count_proto_peerDelay (k : Cnt) (i n : Nat) (c : Ctl) :
    (count k i n c).proto.peerDelay = c.proto.peerDelay := Ctl.proto_peerDelay_of_quiet (count_quiet k i n c)
@[simp] theorem count_proto_galeStarts (k : Cnt) (i n : Nat) (c : Ctl) :
    (count k i n c).proto.galeStarts = c.proto.galeStarts := Ctl.proto_galeStarts_of_quiet (count_quiet k i n c)
@[simp] theorem count_proto_wearSent (k : Cnt) (i n : Nat) (c : Ctl) :
    (count k i n c).proto.wearSent = c.proto.wearSent := Ctl.proto_wearSent_of_quiet (count_quiet k i n c)

/-! ### The end of a command -/

/-- With nothing issued, the end of a command changes nothing. -/
theorem Ctl.settle_of_wq {c : Ctl} (h : c.wq = []) : c.settle = c := by
  have : (c.store.writeBacks.filter fun w => !c.wq.any (Wr.hits w)) = c.store.writeBacks := by simp [h]
  cases c
  simp_all [Ctl.settle]

/-- The reports of a command's own overflows change nothing but what packets, events and counters touch. -/
@[simp] theorem reportOverflows_quiet (b : Ctl) (n : Nat) (c : Ctl) : (reportOverflows b n c).quiet = c.quiet := by
  induction n generalizing b c with
  | zero => rfl
  | succ n ih =>
    unfold reportOverflows
    dsimp only
    split
    · rfl
    · rw [ih]
      exact foldl_quiet _ (fun c k => (countRaw_quiet _ _ _ _).trans (serviceEvent_quiet _ _ _ _ c)) _ _
/-- With no overflow of the counters of packets and reports, nothing is reported. -/
theorem reportOverflows_of_none {b c : Ctl} (h : overflowed b c = []) (n : Nat) : reportOverflows b n c = c := by
  cases n <;> simp [reportOverflows, h]
@[simp] theorem reportOverflows_wq (b : Ctl) (n : Nat) (c : Ctl) : (reportOverflows b n c).wq = c.wq :=
  Ctl.wq_of_quiet (reportOverflows_quiet b n c)

theorem Ctl.settle_quiet (c : Ctl) : c.settle.quiet = c.quiet.settle := rfl

/-- A command that issues no write leaves the memories, and the control state its effect gives with the reports of overflow. -/
theorem State.run_of_wq {f : Mem → Ctl → Ctl} {s : State} (h : (f s.mem s.ctl).wq = []) :
    s.run f = { s with ctl := reportOverflows s.ctl 4 (f s.mem s.ctl) } := by
  have : (reportOverflows s.ctl 4 (f s.mem s.ctl)).wq = [] := by simpa using h
  simp [State.run, h, Ctl.settle_of_wq this]
/-- Such a command leaves the control state its effect gives, but for counters, packets and reports of events. -/
theorem State.run_quiet_of_wq {f : Mem → Ctl → Ctl} {s : State} (h : (f s.mem s.ctl).wq = []) :
    (s.run f).ctl.quiet = (f s.mem s.ctl).quiet := by
  rw [State.run_of_wq h]
  exact reportOverflows_quiet _ _ _
/-- Whatever a command writes, all but the write-backs that its writes replace, counters, packets and reports of events is as its
effect gives it. -/
theorem State.run_quiet (f : Mem → Ctl → Ctl) (s : State) : (s.run f).ctl.quiet = (f s.mem s.ctl).quiet.settle := by
  change (reportOverflows s.ctl 4 (f s.mem s.ctl)).settle.quiet = _
  rw [Ctl.settle_quiet, reportOverflows_quiet]

@[simp] theorem State.run_mem (f : Mem → Ctl → Ctl) (s : State) : (s.run f).mem = s.mem.apply (f s.mem s.ctl).wq := rfl
@[simp] theorem State.run_ctl (f : Mem → Ctl → Ctl) (s : State) : (s.run f).ctl = (reportOverflows s.ctl 4 (f s.mem s.ctl)).settle := rfl
@[simp] theorem State.run_pending (f : Mem → Ctl → Ctl) (s : State) : (s.run f).pending = s.pending := rfl
/-- A command leaves no write waiting. -/
theorem State.run_wq (f : Mem → Ctl → Ctl) (s : State) : (s.run f).ctl.wq = [] := rfl

/-! ### Slot tags -/

theorem setAll_wq (f : Nat → Ctl → Ctl) (h : ∀ k c, (f k c).wq = c.wq) (ks : List Nat) (c : Ctl) :
    (setAll f ks c).wq = c.wq := by
  induction ks generalizing c with
  | nil => rfl
  | cons k ks ih => exact (ih (f k c)).trans (h k c)
@[simp] theorem setFull_wq (k : Nat) (c : Ctl) : (setFull k c).wq = c.wq := by unfold setFull; split <;> rfl
@[simp] theorem setEmpty_wq (k : Nat) (c : Ctl) : (setEmpty k c).wq = c.wq := by unfold setEmpty; split <;> rfl
@[simp] theorem setVoided_wq (k : Nat) (c : Ctl) : (setVoided k c).wq = c.wq := rfl
@[simp] theorem setAllFull_wq (ks : List Nat) (c : Ctl) : (setAll setFull ks c).wq = c.wq := setAll_wq _ setFull_wq ks c
@[simp] theorem setAllEmpty_wq (ks : List Nat) (c : Ctl) : (setAll setEmpty ks c).wq = c.wq := setAll_wq _ setEmpty_wq ks c
@[simp] theorem setAllVoided_wq (ks : List Nat) (c : Ctl) : (setAll setVoided ks c).wq = c.wq := setAll_wq _ setVoided_wq ks c

/-- A packet joins the packets sent where its port has a secure association (R394). -/
theorem send_sent (p : Packet) (c : Ctl) :
    (send p c).proto.sent = c.proto.sent ++ (if c.proto.sa.getD p.dst.port false then [p] else []) := by
  unfold send
  split <;> simp

end Sys2Proof.Machine
end

