-- ==== Sys2Proof/Laws/Gate.lean ====
section
/-! SUPPORT. What a reply, a refusal and the gate of a host request do (13 R400 to R402). -/

namespace Sys2Proof.Machine

/-- The control state without the cache of requests and without what packets touch. -/
def Ctl.uncached (c : Ctl) : Ctl := { c.quiet with proto := { c.quiet.proto with cache := [] } }

theorem Ctl.uncached_of_quiet {a b : Ctl} (h : a.quiet = b.quiet) : a.uncached = b.uncached := by
  simp [Ctl.uncached, h]

theorem foldl_uncached {α : Type} (f : Ctl → α → Ctl) (h : ∀ c x, (f c x).uncached = c.uncached) (l : List α) (c : Ctl) :
    (l.foldl f c).uncached = c.uncached := by
  induction l generalizing c with
  | nil => rfl
  | cons x l ih => rw [List.foldl_cons, ih, h]

/-- A refusal changes nothing but what packets touch. -/
@[simp] theorem refuse_quiet (g : Gate) (r : Req) (st : KS) (c : Ctl) : (refuse g r st c).quiet = c.quiet :=
  foldl_quiet _ (fun c p => send_quiet p c) _ _

/-- The packet number of a frame is no part of what a command leaves. -/
@[simp] theorem noteFrame_quiet (port pn : Nat) (c : Ctl) : (noteFrame port pn c).quiet = c.quiet := rfl
@[simp] theorem noteFrame_clk (port pn : Nat) (c : Ctl) : (noteFrame port pn c).clk = c.clk := rfl
@[simp] theorem noteFrame_params (port pn : Nat) (c : Ctl) : (noteFrame port pn c).params = c.params := rfl
@[simp] theorem noteFrame_slotTags (port pn : Nat) (c : Ctl) : (noteFrame port pn c).slotTags = c.slotTags := rfl
@[simp] theorem noteFrame_tagTimes (port pn : Nat) (c : Ctl) : (noteFrame port pn c).tagTimes = c.tagTimes := rfl
@[simp] theorem noteFrame_plane (port pn : Nat) (c : Ctl) : (noteFrame port pn c).plane = c.plane := rfl
@[simp] theorem noteFrame_tiles (port pn : Nat) (c : Ctl) : (noteFrame port pn c).tiles = c.tiles := rfl
@[simp] theorem noteFrame_jobs (port pn : Nat) (c : Ctl) : (noteFrame port pn c).jobs = c.jobs := rfl
@[simp] theorem noteFrame_ctxs (port pn : Nat) (c : Ctl) : (noteFrame port pn c).ctxs = c.ctxs := rfl
@[simp] theorem noteFrame_xfers (port pn : Nat) (c : Ctl) : (noteFrame port pn c).xfers = c.xfers := rfl
@[simp] theorem noteFrame_charges (port pn : Nat) (c : Ctl) : (noteFrame port pn c).charges = c.charges := rfl
@[simp] theorem noteFrame_store (port pn : Nat) (c : Ctl) : (noteFrame port pn c).store = c.store := rfl
@[simp] theorem noteFrame_intakes (port pn : Nat) (c : Ctl) : (noteFrame port pn c).intakes = c.intakes := rfl
@[simp] theorem noteFrame_group (port pn : Nat) (c : Ctl) : (noteFrame port pn c).group = c.group := rfl
@[simp] theorem noteFrame_sec (port pn : Nat) (c : Ctl) : (noteFrame port pn c).sec = c.sec := rfl
@[simp] theorem noteFrame_power (port pn : Nat) (c : Ctl) : (noteFrame port pn c).power = c.power := rfl
@[simp] theorem noteFrame_service (port pn : Nat) (c : Ctl) : (noteFrame port pn c).service = c.service := rfl
@[simp] theorem noteFrame_pins (port pn : Nat) (c : Ctl) : (noteFrame port pn c).pins = c.pins := rfl
@[simp] theorem noteFrame_wq (port pn : Nat) (c : Ctl) : (noteFrame port pn c).wq = c.wq := rfl
@[simp] theorem noteFrame_proto_epoch (port pn : Nat) (c : Ctl) : (noteFrame port pn c).proto.epoch = c.proto.epoch := rfl
@[simp] theorem noteFrame_proto_staged (port pn : Nat) (c : Ctl) : (noteFrame port pn c).proto.staged = c.proto.staged := rfl
@[simp] theorem noteFrame_proto_xfers (port pn : Nat) (c : Ctl) : (noteFrame port pn c).proto.xfers = c.proto.xfers := rfl
@[simp] theorem noteFrame_proto_replies (port pn : Nat) (c : Ctl) : (noteFrame port pn c).proto.replies = c.proto.replies := rfl
@[simp] theorem noteFrame_proto_linkUp (port pn : Nat) (c : Ctl) : (noteFrame port pn c).proto.linkUp = c.proto.linkUp := rfl
@[simp] theorem noteFrame_proto_sa (port pn : Nat) (c : Ctl) : (noteFrame port pn c).proto.sa = c.proto.sa := rfl
@[simp] theorem noteFrame_proto_active (port pn : Nat) (c : Ctl) : (noteFrame port pn c).proto.active = c.proto.active := rfl
@[simp] theorem noteFrame_proto_sync (port pn : Nat) (c : Ctl) : (noteFrame port pn c).proto.sync = c.proto.sync := rfl
@[simp] theorem noteFrame_proto_unsync (port pn : Nat) (c : Ctl) : (noteFrame port pn c).proto.unsync = c.proto.unsync := rfl
@[simp] theorem noteFrame_proto_slavePort (port pn : Nat) (c : Ctl) : (noteFrame port pn c).proto.slavePort = c.proto.slavePort := rfl
@[simp] theorem noteFrame_proto_peerDelay (port pn : Nat) (c : Ctl) : (noteFrame port pn c).proto.peerDelay = c.proto.peerDelay := rfl
@[simp] theorem noteFrame_proto_galeStarts (port pn : Nat) (c : Ctl) : (noteFrame port pn c).proto.galeStarts = c.proto.galeStarts := rfl
@[simp] theorem noteFrame_proto_wearSent (port pn : Nat) (c : Ctl) : (noteFrame port pn c).proto.wearSent = c.proto.wearSent := rfl
@[simp] theorem noteFrame_proto_queue (port pn : Nat) (c : Ctl) : (noteFrame port pn c).proto.queue = c.proto.queue := rfl
@[simp] theorem noteFrame_proto_serving (port pn : Nat) (c : Ctl) : (noteFrame port pn c).proto.serving = c.proto.serving := rfl

/-- A reply changes nothing but the cache and what packets touch. -/
theorem answerAll_uncached (r : Req) (kind : Nat) (st : KS) (bodies : List (List Byte)) (c : Ctl) :
    (answerAll r kind st bodies c).uncached = c.uncached := by
  unfold answerAll
  dsimp only
  have h1 := fun ps => Ctl.uncached_of_quiet (foldl_quiet (fun c p => send p c) (fun c p => send_quiet p c) ps c)
  have h2 := fun (q : Nat × Nat × Nat) (ps : List Packet) (d : Ctl) => Ctl.uncached_of_quiet
    (foldl_quiet (fun c (p : Packet) => send { p with dst := { p.dst with port := q.1 }, src := q.2.1, srcUdp := q.2.2 } c)
      (fun c p => send_quiet _ c) ps d)
  split
  · exact (h2 _ _ _).trans (h1 _)
  · exact h1 _

@[simp] theorem answer_uncached (r : Req) (kind : Nat) (st : KS) (body : List Byte) (c : Ctl) :
    (answer r kind st body c).uncached = c.uncached := answerAll_uncached r kind st [body] c

theorem Ctl.clk_of_uncached {a b : Ctl} (h : a.uncached = b.uncached) : a.clk = b.clk :=
  (congrArg Ctl.clk h : a.uncached.clk = b.uncached.clk)
theorem Ctl.params_of_uncached {a b : Ctl} (h : a.uncached = b.uncached) : a.params = b.params :=
  (congrArg Ctl.params h : a.uncached.params = b.uncached.params)
theorem Ctl.slotTags_of_uncached {a b : Ctl} (h : a.uncached = b.uncached) : a.slotTags = b.slotTags :=
  (congrArg Ctl.slotTags h : a.uncached.slotTags = b.uncached.slotTags)
theorem Ctl.tagTimes_of_uncached {a b : Ctl} (h : a.uncached = b.uncached) : a.tagTimes = b.tagTimes :=
  (congrArg Ctl.tagTimes h : a.uncached.tagTimes = b.uncached.tagTimes)
theorem Ctl.plane_of_uncached {a b : Ctl} (h : a.uncached = b.uncached) : a.plane = b.plane :=
  (congrArg Ctl.plane h : a.uncached.plane = b.uncached.plane)
theorem Ctl.tiles_of_uncached {a b : Ctl} (h : a.uncached = b.uncached) : a.tiles = b.tiles :=
  (congrArg Ctl.tiles h : a.uncached.tiles = b.uncached.tiles)
theorem Ctl.jobs_of_uncached {a b : Ctl} (h : a.uncached = b.uncached) : a.jobs = b.jobs :=
  (congrArg Ctl.jobs h : a.uncached.jobs = b.uncached.jobs)
theorem Ctl.ctxs_of_uncached {a b : Ctl} (h : a.uncached = b.uncached) : a.ctxs = b.ctxs :=
  (congrArg Ctl.ctxs h : a.uncached.ctxs = b.uncached.ctxs)
theorem Ctl.xfers_of_uncached {a b : Ctl} (h : a.uncached = b.uncached) : a.xfers = b.xfers :=
  (congrArg Ctl.xfers h : a.uncached.xfers = b.uncached.xfers)
theorem Ctl.charges_of_uncached {a b : Ctl} (h : a.uncached = b.uncached) : a.charges = b.charges :=
  (congrArg Ctl.charges h : a.uncached.charges = b.uncached.charges)
theorem Ctl.store_of_uncached {a b : Ctl} (h : a.uncached = b.uncached) : a.store = b.store :=
  (congrArg Ctl.store h : a.uncached.store = b.uncached.store)
theorem Ctl.intakes_of_uncached {a b : Ctl} (h : a.uncached = b.uncached) : a.intakes = b.intakes :=
  (congrArg Ctl.intakes h : a.uncached.intakes = b.uncached.intakes)
theorem Ctl.group_of_uncached {a b : Ctl} (h : a.uncached = b.uncached) : a.group = b.group :=
  (congrArg Ctl.group h : a.uncached.group = b.uncached.group)
theorem Ctl.sec_of_uncached {a b : Ctl} (h : a.uncached = b.uncached) : a.sec = b.sec :=
  (congrArg Ctl.sec h : a.uncached.sec = b.uncached.sec)
theorem Ctl.power_of_uncached {a b : Ctl} (h : a.uncached = b.uncached) : a.power = b.power :=
  (congrArg Ctl.power h : a.uncached.power = b.uncached.power)
theorem Ctl.service_of_uncached {a b : Ctl} (h : a.uncached = b.uncached) : a.service = b.service :=
  (congrArg Ctl.service h : a.uncached.service = b.uncached.service)
theorem Ctl.pins_of_uncached {a b : Ctl} (h : a.uncached = b.uncached) : a.pins = b.pins :=
  (congrArg Ctl.pins h : a.uncached.pins = b.uncached.pins)
theorem Ctl.wq_of_uncached {a b : Ctl} (h : a.uncached = b.uncached) : a.wq = b.wq :=
  (congrArg Ctl.wq h : a.uncached.wq = b.uncached.wq)
theorem Ctl.proto_epoch_of_uncached {a b : Ctl} (h : a.uncached = b.uncached) : a.proto.epoch = b.proto.epoch :=
  (congrArg (fun c => c.proto.epoch) h : a.uncached.proto.epoch = b.uncached.proto.epoch)
theorem Ctl.proto_staged_of_uncached {a b : Ctl} (h : a.uncached = b.uncached) : a.proto.staged = b.proto.staged :=
  (congrArg (fun c => c.proto.staged) h : a.uncached.proto.staged = b.uncached.proto.staged)
theorem Ctl.proto_xfers_of_uncached {a b : Ctl} (h : a.uncached = b.uncached) : a.proto.xfers = b.proto.xfers :=
  (congrArg (fun c => c.proto.xfers) h : a.uncached.proto.xfers = b.uncached.proto.xfers)
theorem Ctl.proto_replies_of_uncached {a b : Ctl} (h : a.uncached = b.uncached) : a.proto.replies = b.proto.replies :=
  (congrArg (fun c => c.proto.replies) h : a.uncached.proto.replies = b.uncached.proto.replies)
theorem Ctl.proto_linkUp_of_uncached {a b : Ctl} (h : a.uncached = b.uncached) : a.proto.linkUp = b.proto.linkUp :=
  (congrArg (fun c => c.proto.linkUp) h : a.uncached.proto.linkUp = b.uncached.proto.linkUp)
theorem Ctl.proto_sa_of_uncached {a b : Ctl} (h : a.uncached = b.uncached) : a.proto.sa = b.proto.sa :=
  (congrArg (fun c => c.proto.sa) h : a.uncached.proto.sa = b.uncached.proto.sa)
theorem Ctl.proto_active_of_uncached {a b : Ctl} (h : a.uncached = b.uncached) : a.proto.active = b.proto.active :=
  (congrArg (fun c => c.proto.active) h : a.uncached.proto.active = b.uncached.proto.active)
theorem Ctl.proto_sync_of_uncached {a b : Ctl} (h : a.uncached = b.uncached) : a.proto.sync = b.proto.sync :=
  (congrArg (fun c => c.proto.sync) h : a.uncached.proto.sync = b.uncached.proto.sync)
theorem Ctl.proto_unsync_of_uncached {a b : Ctl} (h : a.uncached = b.uncached) : a.proto.unsync = b.proto.unsync :=
  (congrArg (fun c => c.proto.unsync) h : a.uncached.proto.unsync = b.uncached.proto.unsync)
theorem Ctl.proto_slavePort_of_uncached {a b : Ctl} (h : a.uncached = b.uncached) : a.proto.slavePort = b.proto.slavePort :=
  (congrArg (fun c => c.proto.slavePort) h : a.uncached.proto.slavePort = b.uncached.proto.slavePort)
theorem Ctl.proto_peerDelay_of_uncached {a b : Ctl} (h : a.uncached = b.uncached) : a.proto.peerDelay = b.proto.peerDelay :=
  (congrArg (fun c => c.proto.peerDelay) h : a.uncached.proto.peerDelay = b.uncached.proto.peerDelay)
theorem Ctl.proto_galeStarts_of_uncached {a b : Ctl} (h : a.uncached = b.uncached) : a.proto.galeStarts = b.proto.galeStarts :=
  (congrArg (fun c => c.proto.galeStarts) h : a.uncached.proto.galeStarts = b.uncached.proto.galeStarts)
theorem Ctl.proto_wearSent_of_uncached {a b : Ctl} (h : a.uncached = b.uncached) : a.proto.wearSent = b.proto.wearSent :=
  (congrArg (fun c => c.proto.wearSent) h : a.uncached.proto.wearSent = b.uncached.proto.wearSent)
@[simp] theorem answerAll_clk (r : Req) (kind : Nat) (st : KS) (bodies : List (List Byte)) (c : Ctl) :
    (answerAll r kind st bodies c).clk = c.clk := Ctl.clk_of_uncached (answerAll_uncached r kind st bodies c)
@[simp] theorem answerAll_params (r : Req) (kind : Nat) (st : KS) (bodies : List (List Byte)) (c : Ctl) :
    (answerAll r kind st bodies c).params = c.params := Ctl.params_of_uncached (answerAll_uncached r kind st bodies c)
@[simp] theorem answerAll_slotTags (r : Req) (kind : Nat) (st : KS) (bodies : List (List Byte)) (c : Ctl) :
    (answerAll r kind st bodies c).slotTags = c.slotTags := Ctl.slotTags_of_uncached (answerAll_uncached r kind st bodies c)
@[simp] theorem answerAll_tagTimes (r : Req) (kind : Nat) (st : KS) (bodies : List (List Byte)) (c : Ctl) :
    (answerAll r kind st bodies c).tagTimes = c.tagTimes := Ctl.tagTimes_of_uncached (answerAll_uncached r kind st bodies c)
@[simp] theorem answerAll_plane (r : Req) (kind : Nat) (st : KS) (bodies : List (List Byte)) (c : Ctl) :
    (answerAll r kind st bodies c).plane = c.plane := Ctl.plane_of_uncached (answerAll_uncached r kind st bodies c)
@[simp] theorem answerAll_tiles (r : Req) (kind : Nat) (st : KS) (bodies : List (List Byte)) (c : Ctl) :
    (answerAll r kind st bodies c).tiles = c.tiles := Ctl.tiles_of_uncached (answerAll_uncached r kind st bodies c)
@[simp] theorem answerAll_jobs (r : Req) (kind : Nat) (st : KS) (bodies : List (List Byte)) (c : Ctl) :
    (answerAll r kind st bodies c).jobs = c.jobs := Ctl.jobs_of_uncached (answerAll_uncached r kind st bodies c)
@[simp] theorem answerAll_ctxs (r : Req) (kind : Nat) (st : KS) (bodies : List (List Byte)) (c : Ctl) :
    (answerAll r kind st bodies c).ctxs = c.ctxs := Ctl.ctxs_of_uncached (answerAll_uncached r kind st bodies c)
@[simp] theorem answerAll_xfers (r : Req) (kind : Nat) (st : KS) (bodies : List (List Byte)) (c : Ctl) :
    (answerAll r kind st bodies c).xfers = c.xfers := Ctl.xfers_of_uncached (answerAll_uncached r kind st bodies c)
@[simp] theorem answerAll_charges (r : Req) (kind : Nat) (st : KS) (bodies : List (List Byte)) (c : Ctl) :
    (answerAll r kind st bodies c).charges = c.charges := Ctl.charges_of_uncached (answerAll_uncached r kind st bodies c)
@[simp] theorem answerAll_store (r : Req) (kind : Nat) (st : KS) (bodies : List (List Byte)) (c : Ctl) :
    (answerAll r kind st bodies c).store = c.store := Ctl.store_of_uncached (answerAll_uncached r kind st bodies c)
@[simp] theorem answerAll_intakes (r : Req) (kind : Nat) (st : KS) (bodies : List (List Byte)) (c : Ctl) :
    (answerAll r kind st bodies c).intakes = c.intakes := Ctl.intakes_of_uncached (answerAll_uncached r kind st bodies c)
@[simp] theorem answerAll_group (r : Req) (kind : Nat) (st : KS) (bodies : List (List Byte)) (c : Ctl) :
    (answerAll r kind st bodies c).group = c.group := Ctl.group_of_uncached (answerAll_uncached r kind st bodies c)
@[simp] theorem answerAll_sec (r : Req) (kind : Nat) (st : KS) (bodies : List (List Byte)) (c : Ctl) :
    (answerAll r kind st bodies c).sec = c.sec := Ctl.sec_of_uncached (answerAll_uncached r kind st bodies c)
@[simp] theorem answerAll_power (r : Req) (kind : Nat) (st : KS) (bodies : List (List Byte)) (c : Ctl) :
    (answerAll r kind st bodies c).power = c.power := Ctl.power_of_uncached (answerAll_uncached r kind st bodies c)
@[simp] theorem answerAll_service (r : Req) (kind : Nat) (st : KS) (bodies : List (List Byte)) (c : Ctl) :
    (answerAll r kind st bodies c).service = c.service := Ctl.service_of_uncached (answerAll_uncached r kind st bodies c)
@[simp] theorem answerAll_pins (r : Req) (kind : Nat) (st : KS) (bodies : List (List Byte)) (c : Ctl) :
    (answerAll r kind st bodies c).pins = c.pins := Ctl.pins_of_uncached (answerAll_uncached r kind st bodies c)
@[simp] theorem answerAll_wq (r : Req) (kind : Nat) (st : KS) (bodies : List (List Byte)) (c : Ctl) :
    (answerAll r kind st bodies c).wq = c.wq := Ctl.wq_of_uncached (answerAll_uncached r kind st bodies c)
@[simp] theorem answerAll_proto_epoch (r : Req) (kind : Nat) (st : KS) (bodies : List (List Byte)) (c : Ctl) :
    (answerAll r kind st bodies c).proto.epoch = c.proto.epoch := Ctl.proto_epoch_of_uncached (answerAll_uncached r kind st bodies c)
@[simp] theorem answerAll_proto_staged (r : Req) (kind : Nat) (st : KS) (bodies : List (List Byte)) (c : Ctl) :
    (answerAll r kind st bodies c).proto.staged = c.proto.staged := Ctl.proto_staged_of_uncached (answerAll_uncached r kind st bodies c)
@[simp] theorem answerAll_proto_xfers (r : Req) (kind : Nat) (st : KS) (bodies : List (List Byte)) (c : Ctl) :
    (answerAll r kind st bodies c).proto.xfers = c.proto.xfers := Ctl.proto_xfers_of_uncached (answerAll_uncached r kind st bodies c)
@[simp] theorem answerAll_proto_replies (r : Req) (kind : Nat) (st : KS) (bodies : List (List Byte)) (c : Ctl) :
    (answerAll r kind st bodies c).proto.replies = c.proto.replies := Ctl.proto_replies_of_uncached (answerAll_uncached r kind st bodies c)
@[simp] theorem answerAll_proto_linkUp (r : Req) (kind : Nat) (st : KS) (bodies : List (List Byte)) (c : Ctl) :
    (answerAll r kind st bodies c).proto.linkUp = c.proto.linkUp := Ctl.proto_linkUp_of_uncached (answerAll_uncached r kind st bodies c)
@[simp] theorem answerAll_proto_sa (r : Req) (kind : Nat) (st : KS) (bodies : List (List Byte)) (c : Ctl) :
    (answerAll r kind st bodies c).proto.sa = c.proto.sa := Ctl.proto_sa_of_uncached (answerAll_uncached r kind st bodies c)
@[simp] theorem answerAll_proto_active (r : Req) (kind : Nat) (st : KS) (bodies : List (List Byte)) (c : Ctl) :
    (answerAll r kind st bodies c).proto.active = c.proto.active := Ctl.proto_active_of_uncached (answerAll_uncached r kind st bodies c)
@[simp] theorem answerAll_proto_sync (r : Req) (kind : Nat) (st : KS) (bodies : List (List Byte)) (c : Ctl) :
    (answerAll r kind st bodies c).proto.sync = c.proto.sync := Ctl.proto_sync_of_uncached (answerAll_uncached r kind st bodies c)
@[simp] theorem answerAll_proto_unsync (r : Req) (kind : Nat) (st : KS) (bodies : List (List Byte)) (c : Ctl) :
    (answerAll r kind st bodies c).proto.unsync = c.proto.unsync := Ctl.proto_unsync_of_uncached (answerAll_uncached r kind st bodies c)
@[simp] theorem answerAll_proto_slavePort (r : Req) (kind : Nat) (st : KS) (bodies : List (List Byte)) (c : Ctl) :
    (answerAll r kind st bodies c).proto.slavePort = c.proto.slavePort := Ctl.proto_slavePort_of_uncached (answerAll_uncached r kind st bodies c)
@[simp] theorem answerAll_proto_peerDelay (r : Req) (kind : Nat) (st : KS) (bodies : List (List Byte)) (c : Ctl) :
    (answerAll r kind st bodies c).proto.peerDelay = c.proto.peerDelay := Ctl.proto_peerDelay_of_uncached (answerAll_uncached r kind st bodies c)
@[simp] theorem answerAll_proto_galeStarts (r : Req) (kind : Nat) (st : KS) (bodies : List (List Byte)) (c : Ctl) :
    (answerAll r kind st bodies c).proto.galeStarts = c.proto.galeStarts := Ctl.proto_galeStarts_of_uncached (answerAll_uncached r kind st bodies c)
@[simp] theorem answerAll_proto_wearSent (r : Req) (kind : Nat) (st : KS) (bodies : List (List Byte)) (c : Ctl) :
    (answerAll r kind st bodies c).proto.wearSent = c.proto.wearSent := Ctl.proto_wearSent_of_uncached (answerAll_uncached r kind st bodies c)
@[simp] theorem answer_clk (r : Req) (kind : Nat) (st : KS) (body : List Byte) (c : Ctl) :
    (answer r kind st body c).clk = c.clk := Ctl.clk_of_uncached (answer_uncached r kind st body c)
@[simp] theorem answer_params (r : Req) (kind : Nat) (st : KS) (body : List Byte) (c : Ctl) :
    (answer r kind st body c).params = c.params := Ctl.params_of_uncached (answer_uncached r kind st body c)
@[simp] theorem answer_slotTags (r : Req) (kind : Nat) (st : KS) (body : List Byte) (c : Ctl) :
    (answer r kind st body c).slotTags = c.slotTags := Ctl.slotTags_of_uncached (answer_uncached r kind st body c)
@[simp] theorem answer_tagTimes (r : Req) (kind : Nat) (st : KS) (body : List Byte) (c : Ctl) :
    (answer r kind st body c).tagTimes = c.tagTimes := Ctl.tagTimes_of_uncached (answer_uncached r kind st body c)
@[simp] theorem answer_plane (r : Req) (kind : Nat) (st : KS) (body : List Byte) (c : Ctl) :
    (answer r kind st body c).plane = c.plane := Ctl.plane_of_uncached (answer_uncached r kind st body c)
@[simp] theorem answer_tiles (r : Req) (kind : Nat) (st : KS) (body : List Byte) (c : Ctl) :
    (answer r kind st body c).tiles = c.tiles := Ctl.tiles_of_uncached (answer_uncached r kind st body c)
@[simp] theorem answer_jobs (r : Req) (kind : Nat) (st : KS) (body : List Byte) (c : Ctl) :
    (answer r kind st body c).jobs = c.jobs := Ctl.jobs_of_uncached (answer_uncached r kind st body c)
@[simp] theorem answer_ctxs (r : Req) (kind : Nat) (st : KS) (body : List Byte) (c : Ctl) :
    (answer r kind st body c).ctxs = c.ctxs := Ctl.ctxs_of_uncached (answer_uncached r kind st body c)
@[simp] theorem answer_xfers (r : Req) (kind : Nat) (st : KS) (body : List Byte) (c : Ctl) :
    (answer r kind st body c).xfers = c.xfers := Ctl.xfers_of_uncached (answer_uncached r kind st body c)
@[simp] theorem answer_charges (r : Req) (kind : Nat) (st : KS) (body : List Byte) (c : Ctl) :
    (answer r kind st body c).charges = c.charges := Ctl.charges_of_uncached (answer_uncached r kind st body c)
@[simp] theorem answer_store (r : Req) (kind : Nat) (st : KS) (body : List Byte) (c : Ctl) :
    (answer r kind st body c).store = c.store := Ctl.store_of_uncached (answer_uncached r kind st body c)
@[simp] theorem answer_intakes (r : Req) (kind : Nat) (st : KS) (body : List Byte) (c : Ctl) :
    (answer r kind st body c).intakes = c.intakes := Ctl.intakes_of_uncached (answer_uncached r kind st body c)
@[simp] theorem answer_group (r : Req) (kind : Nat) (st : KS) (body : List Byte) (c : Ctl) :
    (answer r kind st body c).group = c.group := Ctl.group_of_uncached (answer_uncached r kind st body c)
@[simp] theorem answer_sec (r : Req) (kind : Nat) (st : KS) (body : List Byte) (c : Ctl) :
    (answer r kind st body c).sec = c.sec := Ctl.sec_of_uncached (answer_uncached r kind st body c)
@[simp] theorem answer_power (r : Req) (kind : Nat) (st : KS) (body : List Byte) (c : Ctl) :
    (answer r kind st body c).power = c.power := Ctl.power_of_uncached (answer_uncached r kind st body c)
@[simp] theorem answer_service (r : Req) (kind : Nat) (st : KS) (body : List Byte) (c : Ctl) :
    (answer r kind st body c).service = c.service := Ctl.service_of_uncached (answer_uncached r kind st body c)
@[simp] theorem answer_pins (r : Req) (kind : Nat) (st : KS) (body : List Byte) (c : Ctl) :
    (answer r kind st body c).pins = c.pins := Ctl.pins_of_uncached (answer_uncached r kind st body c)
@[simp] theorem answer_wq (r : Req) (kind : Nat) (st : KS) (body : List Byte) (c : Ctl) :
    (answer r kind st body c).wq = c.wq := Ctl.wq_of_uncached (answer_uncached r kind st body c)
@[simp] theorem answer_proto_epoch (r : Req) (kind : Nat) (st : KS) (body : List Byte) (c : Ctl) :
    (answer r kind st body c).proto.epoch = c.proto.epoch := Ctl.proto_epoch_of_uncached (answer_uncached r kind st body c)
@[simp] theorem answer_proto_staged (r : Req) (kind : Nat) (st : KS) (body : List Byte) (c : Ctl) :
    (answer r kind st body c).proto.staged = c.proto.staged := Ctl.proto_staged_of_uncached (answer_uncached r kind st body c)
@[simp] theorem answer_proto_xfers (r : Req) (kind : Nat) (st : KS) (body : List Byte) (c : Ctl) :
    (answer r kind st body c).proto.xfers = c.proto.xfers := Ctl.proto_xfers_of_uncached (answer_uncached r kind st body c)
@[simp] theorem answer_proto_replies (r : Req) (kind : Nat) (st : KS) (body : List Byte) (c : Ctl) :
    (answer r kind st body c).proto.replies = c.proto.replies := Ctl.proto_replies_of_uncached (answer_uncached r kind st body c)
@[simp] theorem answer_proto_linkUp (r : Req) (kind : Nat) (st : KS) (body : List Byte) (c : Ctl) :
    (answer r kind st body c).proto.linkUp = c.proto.linkUp := Ctl.proto_linkUp_of_uncached (answer_uncached r kind st body c)
@[simp] theorem answer_proto_sa (r : Req) (kind : Nat) (st : KS) (body : List Byte) (c : Ctl) :
    (answer r kind st body c).proto.sa = c.proto.sa := Ctl.proto_sa_of_uncached (answer_uncached r kind st body c)
@[simp] theorem answer_proto_active (r : Req) (kind : Nat) (st : KS) (body : List Byte) (c : Ctl) :
    (answer r kind st body c).proto.active = c.proto.active := Ctl.proto_active_of_uncached (answer_uncached r kind st body c)
@[simp] theorem answer_proto_sync (r : Req) (kind : Nat) (st : KS) (body : List Byte) (c : Ctl) :
    (answer r kind st body c).proto.sync = c.proto.sync := Ctl.proto_sync_of_uncached (answer_uncached r kind st body c)
@[simp] theorem answer_proto_unsync (r : Req) (kind : Nat) (st : KS) (body : List Byte) (c : Ctl) :
    (answer r kind st body c).proto.unsync = c.proto.unsync := Ctl.proto_unsync_of_uncached (answer_uncached r kind st body c)
@[simp] theorem answer_proto_slavePort (r : Req) (kind : Nat) (st : KS) (body : List Byte) (c : Ctl) :
    (answer r kind st body c).proto.slavePort = c.proto.slavePort := Ctl.proto_slavePort_of_uncached (answer_uncached r kind st body c)
@[simp] theorem answer_proto_peerDelay (r : Req) (kind : Nat) (st : KS) (body : List Byte) (c : Ctl) :
    (answer r kind st body c).proto.peerDelay = c.proto.peerDelay := Ctl.proto_peerDelay_of_uncached (answer_uncached r kind st body c)
@[simp] theorem answer_proto_galeStarts (r : Req) (kind : Nat) (st : KS) (body : List Byte) (c : Ctl) :
    (answer r kind st body c).proto.galeStarts = c.proto.galeStarts := Ctl.proto_galeStarts_of_uncached (answer_uncached r kind st body c)
@[simp] theorem answer_proto_wearSent (r : Req) (kind : Nat) (st : KS) (body : List Byte) (c : Ctl) :
    (answer r kind st body c).proto.wearSent = c.proto.wearSent := Ctl.proto_wearSent_of_uncached (answer_uncached r kind st body c)

/-- The packets that a list of sends on one port adds. -/
theorem foldl_send_sent (ps : List Packet) (c : Ctl) (h : ∀ p ∈ ps, c.proto.sa.getD p.dst.port false = true) :
    (ps.foldl (fun c p => send p c) c).proto.sent = c.proto.sent ++ ps := by
  induction ps generalizing c with
  | nil => simp
  | cons p ps ih =>
    have h0 := h p (by simp)
    rw [List.foldl_cons, ih _ fun q hq => by simpa using h q (List.mem_cons_of_mem _ hq), send_sent, if_pos h0]
    simp

theorem foldl_send_more (ps : List Packet) (g : Packet → Packet) (c : Ctl) :
    ∃ l, (ps.foldl (fun c p => send (g p) c) c).proto.sent = c.proto.sent ++ l := by
  induction ps generalizing c with
  | nil => exact ⟨[], by simp⟩
  | cons p ps ih =>
    obtain ⟨l, hl⟩ := ih (send (g p) c)
    refine ⟨(if c.proto.sa.getD (g p).dst.port false then [g p] else []) ++ l, ?_⟩
    rw [List.foldl_cons, hl, send_sent, List.append_assoc]

/-- A reply sends its packets to the requester first, and then a held copy of them if there is one (R401). -/
theorem answerAll_sent (r : Req) (kind : Nat) (st : KS) (bodies : List (List Byte)) (c : Ctl)
    (h : c.proto.sa.getD r.port false = true) :
    ∃ l, (answerAll r kind st bodies c).proto.sent
      = c.proto.sent ++ (replyPackets r kind st bodies c.proto.epoch r.port ++ l) := by
  have hp : ∀ p ∈ replyPackets r kind st bodies c.proto.epoch r.port, c.proto.sa.getD p.dst.port false = true := by
    intro p hp
    simp only [replyPackets, List.mem_map] at hp
    obtain ⟨i, -, rfl⟩ := hp
    exact h
  have h1 := foldl_send_sent _ c hp
  unfold answerAll
  dsimp only
  split
  · rename_i q _
    obtain ⟨l, hl⟩ := foldl_send_more (replyPackets r kind st bodies c.proto.epoch r.port)
      (fun p => { p with dst := { p.dst with port := q.1 }, src := q.2.1, srcUdp := q.2.2 })
      ((replyPackets r kind st bodies c.proto.epoch r.port).foldl (fun c p => send p c) c)
    refine ⟨l, ?_⟩
    simp only [Ctl.withProto_proto]
    rw [hl, h1, List.append_assoc]
  · exact ⟨[], by simp only [Ctl.withProto_proto]; rw [h1, List.append_nil]⟩

/-! ### Acceptance -/

/-- A request that passes is accepted and served. -/
theorem gateWith_of_passes {g : Gate} {t : KS} {r : Req} {c : Ctl} (serve : Ctl → Ctl) (h : passes g t r c = true) :
    gateWith g t r serve c = serve (accept g r c) := by
  simp only [passes, Ctl.hears, Bool.and_eq_true, beq_iff_eq, Bool.or_eq_true, Bool.not_eq_true', decide_eq_true_eq] at h
  obtain ⟨⟨⟨⟨⟨⟨⟨⟨⟨⟨⟨⟨h0, h1⟩, h2⟩, hl⟩, hf⟩, h3⟩, h4⟩, h5⟩, h6⟩, h7⟩, h8⟩, h9⟩, h10⟩ := h
  have hm : (if g.fragment then none else c.cached r) = none := by
    rcases h6 with h6 | h6
    · simp [h6]
    · simp only [Option.isNone_iff_eq_none] at h6
      simp [h6]
  have h9' : ¬ (bit r.flags 3 = true ∧ r.epoch ≠ c.proto.epoch) := by
    rcases h9 with h9 | h9
    · simp [h9]
    · simp [h9]
  unfold gateWith gateRest
  rw [hm]
  simp only [h0, h1, h2, hl, hf, h3, h4, h5, h7, h8, Bool.and_self, Bool.not_true, Bool.false_eq_true, if_false, ne_eq,
    not_true_eq_false, reduceCtorEq]
  rw [if_neg h9']
  rcases h10 with ⟨h10, h11⟩ | h10
  · simp [h11, Nat.not_le.mpr h10]
  · simp [h10]

/-- A request of the queue has passed: it is served if the state of the device still lets it (R402). -/
theorem gateWith_of_serving {g : Gate} {t : KS} {r : Req} {c : Ctl} (serve : Ctl → Ctl) (h : c.proto.serving = true)
    (hm : modeCheck c g r = .ok) : gateWith g t r serve c = serve c := by
  simp [gateWith, h, hm]

theorem gate_of_passes {g : Gate} {r : Req} {c : Ctl} (serve : Ctl → Ctl) (h : passes g (trustCheck c g r) r c = true) :
    gate g r serve c = serve (accept g r c) := gateWith_of_passes serve h

/-! Acceptance changes the cache, the counters kept for the signing key and what packets touch, nothing else. -/

@[simp] theorem accept_clk (g : Gate) (r : Req) (c : Ctl) : (accept g r c).clk = c.clk := by
  unfold accept
  dsimp only
  split <;> split <;> (try split) <;> simp [storeCounters]
@[simp] theorem accept_params (g : Gate) (r : Req) (c : Ctl) : (accept g r c).params = c.params := by
  unfold accept
  dsimp only
  split <;> split <;> (try split) <;> simp [storeCounters]
@[simp] theorem accept_slotTags (g : Gate) (r : Req) (c : Ctl) : (accept g r c).slotTags = c.slotTags := by
  unfold accept
  dsimp only
  split <;> split <;> (try split) <;> simp [storeCounters]
@[simp] theorem accept_tagTimes (g : Gate) (r : Req) (c : Ctl) : (accept g r c).tagTimes = c.tagTimes := by
  unfold accept
  dsimp only
  split <;> split <;> (try split) <;> simp [storeCounters]
@[simp] theorem accept_plane (g : Gate) (r : Req) (c : Ctl) : (accept g r c).plane = c.plane := by
  unfold accept
  dsimp only
  split <;> split <;> (try split) <;> simp [storeCounters]
@[simp] theorem accept_tiles (g : Gate) (r : Req) (c : Ctl) : (accept g r c).tiles = c.tiles := by
  unfold accept
  dsimp only
  split <;> split <;> (try split) <;> simp [storeCounters]
@[simp] theorem accept_jobs (g : Gate) (r : Req) (c : Ctl) : (accept g r c).jobs = c.jobs := by
  unfold accept
  dsimp only
  split <;> split <;> (try split) <;> simp [storeCounters]
@[simp] theorem accept_ctxs (g : Gate) (r : Req) (c : Ctl) : (accept g r c).ctxs = c.ctxs := by
  unfold accept
  dsimp only
  split <;> split <;> (try split) <;> simp [storeCounters]
@[simp] theorem accept_xfers (g : Gate) (r : Req) (c : Ctl) : (accept g r c).xfers = c.xfers := by
  unfold accept
  dsimp only
  split <;> split <;> (try split) <;> simp [storeCounters]
@[simp] theorem accept_charges (g : Gate) (r : Req) (c : Ctl) : (accept g r c).charges = c.charges := by
  unfold accept
  dsimp only
  split <;> split <;> (try split) <;> simp [storeCounters]
@[simp] theorem accept_store (g : Gate) (r : Req) (c : Ctl) : (accept g r c).store = c.store := by
  unfold accept
  dsimp only
  split <;> split <;> (try split) <;> simp [storeCounters]
@[simp] theorem accept_intakes (g : Gate) (r : Req) (c : Ctl) : (accept g r c).intakes = c.intakes := by
  unfold accept
  dsimp only
  split <;> split <;> (try split) <;> simp [storeCounters]
@[simp] theorem accept_group (g : Gate) (r : Req) (c : Ctl) : (accept g r c).group = c.group := by
  unfold accept
  dsimp only
  split <;> split <;> (try split) <;> simp [storeCounters]
@[simp] theorem accept_power (g : Gate) (r : Req) (c : Ctl) : (accept g r c).power = c.power := by
  unfold accept
  dsimp only
  split <;> split <;> (try split) <;> simp [storeCounters]
@[simp] theorem accept_service (g : Gate) (r : Req) (c : Ctl) : (accept g r c).service = c.service := by
  unfold accept
  dsimp only
  split <;> split <;> (try split) <;> simp [storeCounters]
@[simp] theorem accept_pins (g : Gate) (r : Req) (c : Ctl) : (accept g r c).pins = c.pins := by
  unfold accept
  dsimp only
  split <;> split <;> (try split) <;> simp [storeCounters]
@[simp] theorem accept_wq (g : Gate) (r : Req) (c : Ctl) : (accept g r c).wq = c.wq := by
  unfold accept
  dsimp only
  split <;> split <;> (try split) <;> simp [storeCounters]
@[simp] theorem accept_proto_epoch (g : Gate) (r : Req) (c : Ctl) : (accept g r c).proto.epoch = c.proto.epoch := by
  unfold accept
  dsimp only
  split <;> split <;> (try split) <;> simp [storeCounters]
@[simp] theorem accept_proto_staged (g : Gate) (r : Req) (c : Ctl) : (accept g r c).proto.staged = c.proto.staged := by
  unfold accept
  dsimp only
  split <;> split <;> (try split) <;> simp [storeCounters]
@[simp] theorem accept_proto_xfers (g : Gate) (r : Req) (c : Ctl) : (accept g r c).proto.xfers = c.proto.xfers := by
  unfold accept
  dsimp only
  split <;> split <;> (try split) <;> simp [storeCounters]
@[simp] theorem accept_proto_replies (g : Gate) (r : Req) (c : Ctl) : (accept g r c).proto.replies = c.proto.replies := by
  unfold accept
  dsimp only
  split <;> split <;> (try split) <;> simp [storeCounters]
@[simp] theorem accept_proto_linkUp (g : Gate) (r : Req) (c : Ctl) : (accept g r c).proto.linkUp = c.proto.linkUp := by
  unfold accept
  dsimp only
  split <;> split <;> (try split) <;> simp [storeCounters]
@[simp] theorem accept_proto_sa (g : Gate) (r : Req) (c : Ctl) : (accept g r c).proto.sa = c.proto.sa := by
  unfold accept
  dsimp only
  split <;> split <;> (try split) <;> simp [storeCounters]
@[simp] theorem accept_proto_active (g : Gate) (r : Req) (c : Ctl) : (accept g r c).proto.active = c.proto.active := by
  unfold accept
  dsimp only
  split <;> split <;> (try split) <;> simp [storeCounters]
@[simp] theorem accept_proto_sync (g : Gate) (r : Req) (c : Ctl) : (accept g r c).proto.sync = c.proto.sync := by
  unfold accept
  dsimp only
  split <;> split <;> (try split) <;> simp [storeCounters]
@[simp] theorem accept_proto_unsync (g : Gate) (r : Req) (c : Ctl) : (accept g r c).proto.unsync = c.proto.unsync := by
  unfold accept
  dsimp only
  split <;> split <;> (try split) <;> simp [storeCounters]
@[simp] theorem accept_proto_slavePort (g : Gate) (r : Req) (c : Ctl) : (accept g r c).proto.slavePort = c.proto.slavePort := by
  unfold accept
  dsimp only
  split <;> split <;> (try split) <;> simp [storeCounters]
@[simp] theorem accept_proto_peerDelay (g : Gate) (r : Req) (c : Ctl) : (accept g r c).proto.peerDelay = c.proto.peerDelay := by
  unfold accept
  dsimp only
  split <;> split <;> (try split) <;> simp [storeCounters]
@[simp] theorem accept_proto_galeStarts (g : Gate) (r : Req) (c : Ctl) : (accept g r c).proto.galeStarts = c.proto.galeStarts := by
  unfold accept
  dsimp only
  split <;> split <;> (try split) <;> simp [storeCounters]
@[simp] theorem accept_proto_wearSent (g : Gate) (r : Req) (c : Ctl) : (accept g r c).proto.wearSent = c.proto.wearSent := by
  unfold accept
  dsimp only
  split <;> split <;> (try split) <;> simp [storeCounters]
@[simp] theorem accept_sec_claimed (g : Gate) (r : Req) (c : Ctl) : (accept g r c).sec.claimed = c.sec.claimed := by
  unfold accept
  dsimp only
  split <;> split <;> (try split) <;> simp [storeCounters]
@[simp] theorem accept_sec_rights (g : Gate) (r : Req) (c : Ctl) : (accept g r c).sec.rights = c.sec.rights := by
  unfold accept
  dsimp only
  split <;> split <;> (try split) <;> simp [storeCounters]
@[simp] theorem accept_sec_peers (g : Gate) (r : Req) (c : Ctl) : (accept g r c).sec.peers = c.sec.peers := by
  unfold accept
  dsimp only
  split <;> split <;> (try split) <;> simp [storeCounters]
@[simp] theorem accept_sec_policy (g : Gate) (r : Req) (c : Ctl) : (accept g r c).sec.policy = c.sec.policy := by
  unfold accept
  dsimp only
  split <;> split <;> (try split) <;> simp [storeCounters]
@[simp] theorem accept_sec_linkKeys (g : Gate) (r : Req) (c : Ctl) : (accept g r c).sec.linkKeys = c.sec.linkKeys := by
  unfold accept
  dsimp only
  split <;> split <;> (try split) <;> simp [storeCounters]
@[simp] theorem accept_sec_frozen (g : Gate) (r : Req) (c : Ctl) : (accept g r c).sec.frozen = c.sec.frozen := by
  unfold accept
  dsimp only
  split <;> split <;> (try split) <;> simp [storeCounters]
@[simp] theorem accept_sec_nextObject (g : Gate) (r : Req) (c : Ctl) : (accept g r c).sec.nextObject = c.sec.nextObject := by
  unfold accept
  dsimp only
  split <;> split <;> (try split) <;> simp [storeCounters]
@[simp] theorem accept_sec_journal (g : Gate) (r : Req) (c : Ctl) : (accept g r c).sec.journal = c.sec.journal := by
  unfold accept
  dsimp only
  split <;> split <;> (try split) <;> simp [storeCounters]
@[simp] theorem accept_sec_anchor (g : Gate) (r : Req) (c : Ctl) : (accept g r c).sec.anchor = c.sec.anchor := by
  unfold accept
  dsimp only
  split <;> split <;> (try split) <;> simp [storeCounters]
@[simp] theorem accept_sec_head (g : Gate) (r : Req) (c : Ctl) : (accept g r c).sec.head = c.sec.head := by
  unfold accept
  dsimp only
  split <;> split <;> (try split) <;> simp [storeCounters]
@[simp] theorem accept_sec_lost (g : Gate) (r : Req) (c : Ctl) : (accept g r c).sec.lost = c.sec.lost := by
  unfold accept
  dsimp only
  split <;> split <;> (try split) <;> simp [storeCounters]
@[simp] theorem accept_sec_fullSent (g : Gate) (r : Req) (c : Ctl) : (accept g r c).sec.fullSent = c.sec.fullSent := by
  unfold accept
  dsimp only
  split <;> split <;> (try split) <;> simp [storeCounters]
@[simp] theorem accept_sec_svn (g : Gate) (r : Req) (c : Ctl) : (accept g r c).sec.svn = c.sec.svn := by
  unfold accept
  dsimp only
  split <;> split <;> (try split) <;> simp [storeCounters]
@[simp] theorem accept_sec_slotSvn (g : Gate) (r : Req) (c : Ctl) : (accept g r c).sec.slotSvn = c.sec.slotSvn := by
  unfold accept
  dsimp only
  split <;> split <;> (try split) <;> simp [storeCounters]
@[simp] theorem accept_sec_slotDigest (g : Gate) (r : Req) (c : Ctl) : (accept g r c).sec.slotDigest = c.sec.slotDigest := by
  unfold accept
  dsimp only
  split <;> split <;> (try split) <;> simp [storeCounters]
@[simp] theorem accept_sec_bootSlot (g : Gate) (r : Req) (c : Ctl) : (accept g r c).sec.bootSlot = c.sec.bootSlot := by
  unfold accept
  dsimp only
  split <;> split <;> (try split) <;> simp [storeCounters]
@[simp] theorem accept_sec_fallback (g : Gate) (r : Req) (c : Ctl) : (accept g r c).sec.fallback = c.sec.fallback := by
  unfold accept
  dsimp only
  split <;> split <;> (try split) <;> simp [storeCounters]
@[simp] theorem accept_sec_nextSlot (g : Gate) (r : Req) (c : Ctl) : (accept g r c).sec.nextSlot = c.sec.nextSlot := by
  unfold accept
  dsimp only
  split <;> split <;> (try split) <;> simp [storeCounters]
@[simp] theorem accept_sec_trial (g : Gate) (r : Req) (c : Ctl) : (accept g r c).sec.trial = c.sec.trial := by
  unfold accept
  dsimp only
  split <;> split <;> (try split) <;> simp [storeCounters]
@[simp] theorem accept_sec_images (g : Gate) (r : Req) (c : Ctl) : (accept g r c).sec.images = c.sec.images := by
  unfold accept
  dsimp only
  split <;> split <;> (try split) <;> simp [storeCounters]

end Sys2Proof.Machine
end

