-- ==== Sys2Proof/Laws/Exec.lean ====
section
/-! SUPPORT. What every command has in common: it runs one effect over the memories and the control state. -/

namespace Sys2Proof.Machine

/-- Every command answers a next state: its effect, and then the writes that the effect issued. -/
theorem exec_runs (i : Instr) : ∃ f : Mem → Ctl → Ctl, ∀ s, exec i s = .next (s.run f) := by
  cases i <;> exact ⟨_, fun _ => rfl⟩

end Sys2Proof.Machine
end

