-- ==== Sys2Proof/WellFormed.lean ====
section
/-! DEFINITION. Which commands are well formed: every operand in the range that its field, port or unit has. What a value in
range means is the meanings' business: reserved bits, refused types and failed checks are well formed and are answered. -/

namespace Sys2Proof

/-- Fields of the trailer (Table 15.2): KEY_SLOT 8 bits, reserved 56 bits, COUNTER 64 bits, 64 bytes of signature. -/
def Trailer.wf (t : Trailer) : Bool :=
  t.keySlot < 2 ^ 8 && t.reserved < 2 ^ 56 && t.counter < 2 ^ 64 && t.signature.length == 64

/-- Fields of a request (Table 13.2, R393 to R399): two ports, 128-bit addresses, and a packet of at most 65,535 bytes. -/
def Req.wf (r : Req) : Bool :=
  r.port < 2 && r.addr < 2 ^ 128 && r.udp < 2 ^ 16 && r.reqId < 2 ^ 32 && r.role < 2 ^ 8 && r.flags < 2 ^ 16
    && r.status < 2 ^ 16 && r.reserved15 < 2 ^ 8 && r.epoch < 2 ^ 64 && r.deadline < 2 ^ 32 && r.reserved30 < 2 ^ 16
    && r.authLen < 2 ^ 16 && r.trailer.wf && 32 + r.payload.length + r.authLen < 2 ^ 16
    && r.dst < 2 ^ 128 && r.dstUdp < 2 ^ 16 && r.vlan.all (· < 4096) && r.pn < 2 ^ 32

/-- An upset changes one of the 36 symbols of an aligned word below 2^48 (R29, R233). -/
def Upset.wf (u : Upset) : Bool := u.word < 2 ^ 48 && u.word % 32 == 0 && u.symbol < 36 && u.flip != 0

/-- A blocked master names one of 16 tiles, 16 stream contexts, 64 intake contexts or 4 Crosswind ports. -/
def Waiter.wf : Waiter → Bool
  | .operand | .drain | .waitFull | .reply => true
  | .stream tile context => tile < 16 && context < 16
  | .intake context => context < 64
  | .crosswind port => port < 4

/-- Eight receivers, 16 virtual channels, 6-bit data types, three outcomes of the header check (R370, Table 12.7). -/
def CsiHeader.wf (h : CsiHeader) : Bool := h.receiver < 8 && h.vc < 16 && h.dt < 64 && h.check < 3
/-- Components of at most 16 bits (Table 12.5). -/
def CsiLine.wf (p : CsiLine) : Bool := p.components.all (· < 2 ^ 16)
/-- A frame on one of the two intake ports (R379, R380), whose length counts 14 header bytes and 4 check bytes at least. -/
def EthFrame.wf (f : EthFrame) : Bool :=
  f.port < 2 && f.destination < 2 ^ 48 && f.vlan.all (· < 4096) && f.etherType < 2 ^ 16 && f.udp.all (· < 2 ^ 16)
    && f.payload.length + 18 ≤ f.bytes

/-- A word on a link: 32 bytes (R430). -/
def XwWord.wf (w : XwWord) : Bool := w.data.length == 32
/-- Fields of a Crosswind packet (Table 14.3). -/
def XwPacket.wf (p : XwPacket) : Bool :=
  p.port < 4 && p.flags < 2 ^ 8 && p.src < 2 ^ 8 && p.dst < 2 ^ 8 && p.jobNo < 2 ^ 16 && p.link < 2 ^ 16 && p.slot < 2 ^ 32
    && p.tile < 2 ^ 8 && p.wordOffset < 2 ^ 24 && p.count < 2 ^ 16 && p.seq < 2 ^ 64 && p.groupEpoch < 2 ^ 32
    && p.words.all XwWord.wf && p.tag.length == 16 && p.symbols.length ≤ 5 && (p.badType == 0 || (6 ≤ p.badType && p.badType < 256))
/-- A report on one of four members (Table 14.4): four bytes of version and two digests of 64 bytes. -/
def MemberReport.wf (r : MemberReport) : Bool :=
  r.member < 4 && r.groupEpoch < 2 ^ 64 && r.firmware.length == 4 && r.bundles.length == 64 && r.config.length == 64
/-- A cell of a test: logical tile, active row and column (R105). -/
def cellWf (f : Nat × Nat × Nat) : Bool := f.1 < 16 && f.2.1 < 256 && f.2.2 < 256
/-- A packet of no request type carries one TYPE byte. -/
def BadPacket.wf : BadPacket → Bool
  | .macsec | .otherPort | .vlan | .ipFragment | .magicOrLength => true
  | .version k | .type k | .length k => k < 256
/-- A bank of an HBM pseudo-channel: 64 pseudo-channels of 48 banks (R335). -/
def hbmBankWf (pc bank : Nat) : Bool := pc < 64 && bank < 48
/-- A Crosswind port, the 32-byte link values of both ends, and the peer's member and port (R455). -/
def linkUpWf (port : Nat) (mine peer : List Byte) (member peerPort : Nat) : Bool :=
  port < 4 && mine.length == 32 && peer.length == 32 && member < 4 && peerPort < 4

/-- The well-formed commands. -/
def Instr.wf : Instr → Bool
  | .identify r | .paramRead r | .paramWrite r | .counterRead r | .counterClear r | .jobRun r | .jobAbort r
  | .jobEnd r | .jobStatus r | .slotWrite r | .slotRead r | .bundleBegin r | .bundleCommit r | .bundleRemove r
  | .bundleList r | .protectRead r | .protectWrite r | .protectClaim r | .protectRelease r | .thawList r | .thaw r
  | .attestReport r | .attestKeys r | .journalRead r | .journalTrim r | .powerRead r | .powerEnter r | .powerReset r
  | .leeRead r | .leeEnter r | .groupLeave r | .groupStatus r => r.wf
  | .jobSubmit r suspends dead => r.wf && suspends.1 < 2 ^ 16 && suspends.2 < 2 ^ 16 && dead.all (· < 2)
  | .bundleData r failing => r.wf && failing.all (· < 34 * 4096)
  | .groupForm r found | .leeLeave r found => r.wf && found.all MemberReport.wf
  | .streamEnable n | .streamDisable n | .streamForcedDisable n | .intakeFrameTimeout n | .relayCopy n
  | .disableTimeout n => n < 64
  | .operatingPointChange | .epochCommit | .commitDeadline | .ptpHoldover | .ptpUnsynchronised | .resultSend | .runDispatch
  | .quantumExpiry | .preemptionStop | .classSwitchComplete | .savedSumsLoaded | .abortEffect | .opEnd | .opNop
  | .opWaitFull | .opSignal | .opReply | .opMatmul | .opConv2d | .opConv1d | .opConvGrouped | .opConvDw | .opPoolMax
  | .opPoolAvg | .opUpsampleNearest | .opUpsampleBilinear | .opCropResize | .opArgmaxChan | .opSpaceToChan | .opGather
  | .opScatter | .opElementwise | .opAdaptUpdate | .stepBoundary | .correctionWindow | .globalHoldEnd
  | .holdAlarmInterval | .holdAlarmWindow | .packingFault | .governorWindow | .xwHeartbeatSend
  | .idleEntry | .entryDrainTimeout | .powerStateReached | .wakeTimer | .aonPwrGoodRise | .aonPwrGoodFall
  | .padHoldRelease | .powerOn | .sysResetN | .watchdogReset | .safetyCoreReset | .bootAcceptanceTimeout | .referenceLoss
  | .coolantLoss | .safetyMonitorLee | .sysResetNRelease | .refClkReturn | .vddAonLoss => true
  | .mkaSaReplace p | .mkaSecureAssociation p | .portFailover p _ | .energyDetect p => p < 2
  | .ptpSync p time domain => p < 2 && time < 2 ^ 64 && domain < 256
  | .ptpPeerDelay p _ => p < 2
  | .hostXferTimeout jobNo handle tile slot => jobNo < 2 ^ 16 && handle < 256 && tile < 16 && slot < 2 ^ 16
  | .bundleIdleTimeout no => no < 2 ^ 32
  | .groupBoundary us parity => us.all Upset.wf && parity.all (· < 16)
  | .passEnd parity | .drainComplete parity => parity.all (· < 16)
  | .drainSlotFull slot _ parity => slot < 8192 && parity.all (· < 16)
  | .storeCopyComplete lost => lost.all (· < 2 ^ 43)
  | .commandComplete index => index < 16384
  | .blockedAccessGranted w | .stallLimitExceeded w => w.wf
  | .correctionWriteBack w | .hbmCorrectionWriteBack w => w < 2 ^ 43
  | .storeScrubAccess store us => store < 17 && us.all Upset.wf
  | .blockListFetch tile context => tile < 16 && context < 16
  | .transferIssue tile | .tileFreeze tile => tile < 16
  | .transferDelivered tile tag us => tile < 16 && tag < 256 && us.all Upset.wf
  | .pageInStart stack | .hbmStackNotResponding stack => stack < 2
  | .pageInComplete stack us _ suspends others => stack < 2 && us.all Upset.wf && suspends < 2 ^ 16 && others < 2 ^ 16
  | .hbmPatrolScrub us => us.all Upset.wf
  | .perBankRefresh pc bank | .refreshDeadline pc bank | .rowCloseTimeout pc bank => hbmBankWf pc bank
  | .caParityAlert pc _ _ | .hbmRetraining pc _ | .forcedRetraining pc _ => pc < 64
  | .rowRepair pc bank row => hbmBankWf pc bank && row < 16384
  | .flashPatrol unit us suspends => unit < 2 ^ 22 && us.all Upset.wf && suspends < 2 ^ 16
  | .flashBlockRefresh channel block suspends => channel < 34 && block < 4096 && suspends < 2 ^ 16
  | .flashBlockErase channel block _ => channel < 34 && block < 4096
  | .bankSubstitution store bank => store < 17 && bank < (if store = 16 then 32 else 64)
  | .tileSubstitution p => p < 18
  | .tileSelfTestComplete p _ found => p < 18 && found.all MemberReport.wf
  | .planeTest failing => failing.all cellWf
  | .csi2FrameStart h | .csi2FrameEnd h => h.wf
  | .csi2LongPacket h p => h.wf && p.wf
  | .ethIntakeFrame f => f.wf
  | .tdmFrame port _ _ => port < 4
  | .xwWordsPacket p | .xwZeroMaskPacket p | .xwReducePacket p | .xwRunStart p | .xwRunEnd p | .xwConfigRelay p => p.wf
  | .xwAcknowledge port seq | .xwReplayRequest port seq => port < 4 && seq < 2 ^ 64
  | .xwCredit port job link slot tile => port < 4 && job < 2 ^ 16 && link < 2 ^ 16 && slot < 2 ^ 32 && tile < 16
  | .xwRefusal port seq status => port < 4 && seq < 2 ^ 64 && status < 2 ^ 16
  | .xwTimeProbe port _ sent pr rx => port < 4 && sent < 2 ^ 64 && pr < 2 ^ 64 && rx < 2 ^ 64
  | .xwHeartbeat port member groupEpoch st reaches =>
    port < 4 && member < 2 ^ 8 && groupEpoch < 2 ^ 64 && st < 2 ^ 8 && reaches.all (· < 4)
  | .xwAlignment port lane _ named => port < 4 && lane < 5 && named < 256
  | .xwLaneSwap port lane _ _ => port < 4 && lane < 5
  | .xwReservedBlock port kind => port < 4 && 8 ≤ kind && kind < 2 ^ 8
  | .xwPacketSend p | .xwTimeProbeSend p | .xwPortSwap p => p < 4
  | .xwMemberLost member => member < 4
  | .xwLinkUp port mine peer member peerPort | .xwRekey port mine peer member peerPort => linkUpWf port mine peer member peerPort
  | .aonWake _ _ | .bootVerification _ _ => true
  | .hbmTrainingComplete failed => failed.all (· < 64)
  | .commandsAccepted _ found cells => found.all MemberReport.wf && cells.all cellWf
  | .operatingPointSwitch _ | .throttleStepDown _ | .throttleStepUp _ | .thermAlert _ | .overTemperatureLee _ _ => true
  | .leeCauseClear b found => b < 3 && found.all MemberReport.wf
  | .addressResolutionRequest port v6 target sender =>
    port < 2 && target < (if v6 then 2 ^ 128 else 2 ^ 32) && sender < (if v6 then 2 ^ 128 else 2 ^ 32)
  | .icmpEchoRequest port target sender _ => port < 2 && target < 2 ^ 128 && sender < 2 ^ 128
  | .unrecognisedPacket port why r => port < 2 && why.wf && r.wf

end Sys2Proof
end

