-- ==== Sys2Proof/Tests/Slice0.lean ====
section
/-! SUPPORT. Tests: an ill-formed command for every check of WellFormed, values of the spec's own tables, and for every
statement with hypotheses the states and operands that meet them, clause by clause. Each test is about one step or one
operation. Where a hypothesis is that a request is served and its right needs a signature, the witness takes the verification
of Config.edVerify as its only premise: it is a free value (log entry 5). -/

namespace Sys2Proof.Tests

open Sys2Proof.Machine

set_option Elab.async false

/-! ### Ill-formed commands -/

/-- A request of a role, with a payload, on port 0. -/
def req (role : Nat) (payload : List Byte) : Req :=
  { port := 0, addr := 7, udp := 9, reqId := 1, role := role, flags := 0, status := 0, reserved15 := 0, epoch := 0, deadline := 0,
    reserved30 := 0, authLen := if role = 0 then 0 else 80,
    trailer := { keySlot := 0, reserved := 0, counter := 1, signature := List.replicate 64 0 }, payload := payload,
    dst := 0xFFFF0A000001 }
/-- A CSI-2 header, an Ethernet frame, a Crosswind word and a packet. -/
def hdr : CsiHeader := { receiver := 0, vc := 0, dt := 0x2B, check := 0 }
def eth : EthFrame :=
  { port := 0, destination := 0x112233445566, multicast := false, vlan := none, etherType := 0x88B5, udp := none, fragment := false,
    goodChecks := true, overflow := false, bytes := 82, payload := List.replicate 64 5 }
def word : XwWord := { tag := 0, data := List.replicate 32 1 }
def packet : XwPacket :=
  { port := 0, flags := 0, src := 0, dst := 1, jobNo := 1, link := 0, slot := 0, tile := 0, wordOffset := 0, count := 1, reserved := 0,
    seq := 0, groupEpoch := 1, words := [word], corrected := 0, uncorrectable := 0, tag := List.replicate 16 0 }
def link32 : List Byte := List.replicate 32 3

theorem test_wf_good :
    (Instr.identify (req 0 [])).wf = true ∧ (Instr.csi2FrameStart hdr).wf = true ∧ (Instr.ethIntakeFrame eth).wf = true ∧
    (Instr.xwWordsPacket packet).wf = true ∧ (Instr.xwLinkUp 3 link32 link32 3 3).wf = true := by decide

/-- Every field of a request has its width. -/
theorem test_wf_request :
    let r := req 0 []
    ∀ x ∈ [{ r with port := 2 }, { r with addr := 2 ^ 128 }, { r with udp := 2 ^ 16 }, { r with reqId := 2 ^ 32 }, { r with role := 2 ^ 8 },
      { r with flags := 2 ^ 16 }, { r with status := 2 ^ 16 }, { r with reserved15 := 2 ^ 8 }, { r with epoch := 2 ^ 64 },
      { r with deadline := 2 ^ 32 }, { r with reserved30 := 2 ^ 16 }, { r with authLen := 2 ^ 16 },
      { r with trailer := { r.trailer with keySlot := 2 ^ 8 } }, { r with trailer := { r.trailer with reserved := 2 ^ 56 } },
      { r with trailer := { r.trailer with counter := 2 ^ 64 } }, { r with trailer := { r.trailer with signature := [] } },
      { r with authLen := 2 ^ 16 - 32 }, { r with dst := 2 ^ 128 }, { r with dstUdp := 2 ^ 16 }, { r with vlan := some 4096 },
      { r with pn := 2 ^ 32 }], (Instr.identify x).wf = false := by decide

theorem test_wf_bundleData : (Instr.bundleData (req 0 []) [34 * 4096]).wf = false ∧ (Instr.bundleData { req 0 [] with port := 2 } []).wf = false := by decide
theorem test_wf_groupForm :
    let m : MemberReport := { member := 3, reachable := true, firmware := [1, 2, 3, 4], bundles := List.replicate 64 0, groupEpoch := 0,
                              config := List.replicate 64 0, offset := 0 }
    (Instr.groupForm (req 0 []) [{ m with member := 4 }]).wf = false ∧ (Instr.groupForm (req 0 []) [{ m with groupEpoch := 2 ^ 64 }]).wf = false ∧
    (Instr.groupForm (req 0 []) [{ m with firmware := [] }]).wf = false ∧ (Instr.groupForm (req 0 []) [{ m with bundles := [] }]).wf = false ∧
    (Instr.groupForm (req 0 []) [{ m with config := [] }]).wf = false ∧ (Instr.commandsAccepted true [] [(16, 0, 0)]).wf = false ∧
    (Instr.commandsAccepted true [{ m with member := 4 }]).wf = false ∧ (Instr.groupForm (req 0 []) [m]).wf = true := by decide
theorem test_wf_contexts :
    ∀ i ∈ [Instr.streamEnable 64, .streamDisable 64, .streamForcedDisable 64, .intakeFrameTimeout 64, .relayCopy 64, .disableTimeout 64],
      i.wf = false := by decide
theorem test_wf_ports :
    ∀ i ∈ [Instr.mkaSaReplace 2, .mkaSecureAssociation 2, .portFailover 2 true, .energyDetect 2, .ptpSync 2 0, .ptpSync 0 (2 ^ 64),
      .ptpPeerDelay 2 0, .addressResolutionRequest 2 false 0 0, .addressResolutionRequest 0 false (2 ^ 32) 0,
      .addressResolutionRequest 0 false 0 (2 ^ 32), .addressResolutionRequest 0 true (2 ^ 128) 0, .addressResolutionRequest 0 true 0 (2 ^ 128),
      .icmpEchoRequest 2 0 0 [], .icmpEchoRequest 0 (2 ^ 128) 0 [], .icmpEchoRequest 0 0 (2 ^ 128) [],
      .unrecognisedPacket 2 .macsec (req 0 []), .unrecognisedPacket 0 (.type 256) (req 0 []), .unrecognisedPacket 0 (.version 256) (req 0 []),
      .unrecognisedPacket 0 (.length 256) (req 0 []), .unrecognisedPacket 0 .macsec { req 0 [] with port := 2 }], i.wf = false := by decide
theorem test_wf_transfers :
    ∀ i ∈ [Instr.hostXferTimeout (2 ^ 16) 0 0 0, .hostXferTimeout 0 256 0 0, .hostXferTimeout 0 0 16 0, .hostXferTimeout 0 0 0 (2 ^ 16),
      .jobSubmit (req 0 []) (2 ^ 16, 0) [], .jobSubmit (req 0 []) (0, 2 ^ 16) [], .jobSubmit (req 0 []) (0, 0) [2],
      .bundleIdleTimeout (2 ^ 32), .blockListFetch 16 0, .blockListFetch 0 16, .transferIssue 16, .transferDelivered 16 0 [],
      .transferDelivered 0 256 [], .tileFreeze 16], i.wf = false := by decide
theorem test_wf_upsets :
    let u : Upset := { word := 0, symbol := 35, flip := 1 }
    ∀ x ∈ [{ u with word := 2 ^ 48 }, { u with word := 16 }, { u with symbol := 36 }, { u with flip := 0 }],
      ∀ i ∈ [Instr.groupBoundary [x] none, .storeScrubAccess 0 [x], .transferDelivered 0 0 [x], .pageInComplete 0 [x] false 0,
        .hbmPatrolScrub [x], .flashPatrol 0 [x] 0], i.wf = false := by decide
theorem test_wf_plane :
    ∀ i ∈ [Instr.groupBoundary [] (some 16), .passEnd (some 16), .drainSlotFull 8192 false none, .drainSlotFull 0 false (some 16),
      .drainComplete (some 16), .storeCopyComplete [2 ^ 43], .commandComplete 16384,
      .blockedAccessGranted (.stream 16 0), .blockedAccessGranted (.stream 0 16), .stallLimitExceeded (.intake 64),
      .stallLimitExceeded (.crosswind 4), .planeTest [(16, 0, 0)], .planeTest [(0, 256, 0)], .planeTest [(0, 0, 256)],
      .tileSubstitution 18, .tileSelfTestComplete 18 true [], .bankSubstitution 17 0, .bankSubstitution 16 32, .bankSubstitution 0 64],
      i.wf = false := by decide
theorem test_wf_memory :
    ∀ i ∈ [Instr.correctionWriteBack (2 ^ 43), .hbmCorrectionWriteBack (2 ^ 43), .storeScrubAccess 17 [], .pageInStart 2,
      .hbmStackNotResponding 2, .pageInComplete 2 [] true 0, .pageInComplete 0 [] true (2 ^ 16), .pageInComplete 0 [] true 0 (2 ^ 16), .perBankRefresh 64 0, .perBankRefresh 0 48, .refreshDeadline 0 48,
      .rowCloseTimeout 64 0, .caParityAlert 64 true true, .hbmRetraining 64 true, .forcedRetraining 64 true, .rowRepair 0 48 0,
      .rowRepair 0 0 16384, .flashPatrol (2 ^ 22) [] 0, .flashPatrol 0 [] (2 ^ 16), .flashBlockRefresh 34 0 0, .flashBlockRefresh 0 4096 0,
      .flashBlockRefresh 0 0 (2 ^ 16), .flashBlockErase 34 0 true,
      .flashBlockErase 0 4096 true, .hbmTrainingComplete [64]], i.wf = false := by decide
theorem test_wf_intake :
    ∀ i ∈ [Instr.csi2FrameStart { hdr with receiver := 8 }, .csi2FrameEnd { hdr with vc := 16 }, .csi2FrameStart { hdr with dt := 64 },
      .csi2LongPacket { hdr with check := 3 } { components := [], crcGood := true, overflow := false },
      .csi2LongPacket hdr { components := [2 ^ 16], crcGood := true, overflow := false }, .ethIntakeFrame { eth with port := 2 },
      .ethIntakeFrame { eth with destination := 2 ^ 48 }, .ethIntakeFrame { eth with vlan := some 4096 },
      .ethIntakeFrame { eth with etherType := 2 ^ 16 }, .ethIntakeFrame { eth with udp := some (2 ^ 16) }, .ethIntakeFrame { eth with bytes := 81 }, .tdmFrame 4 0 []], i.wf = false := by
  decide
theorem test_wf_xwPacket :
    ∀ x ∈ [{ packet with port := 4 }, { packet with flags := 2 ^ 8 }, { packet with src := 2 ^ 8 }, { packet with dst := 2 ^ 8 },
      { packet with jobNo := 2 ^ 16 }, { packet with link := 2 ^ 16 }, { packet with slot := 2 ^ 32 }, { packet with tile := 2 ^ 8 },
      { packet with wordOffset := 2 ^ 24 }, { packet with count := 2 ^ 16 }, { packet with seq := 2 ^ 64 },
      { packet with groupEpoch := 2 ^ 32 }, { packet with words := [{ word with data := [] }] }, { packet with tag := [] }, { packet with symbols := [0, 0, 0, 0, 0, 0] },
      { packet with badType := 5 }, { packet with badType := 256 }],
      ∀ i ∈ [Instr.xwWordsPacket x, .xwZeroMaskPacket x, .xwReducePacket x, .xwRunStart x, .xwRunEnd x, .xwConfigRelay x], i.wf = false := by
  decide
theorem test_wf_xwControl :
    ∀ i ∈ [Instr.xwAcknowledge 4 0, .xwReplayRequest 0 (2 ^ 64), .xwCredit 4 0 0 0 0, .xwCredit 0 (2 ^ 16) 0 0 0, .xwCredit 0 0 (2 ^ 16) 0 0,
      .xwCredit 0 0 0 (2 ^ 32) 0, .xwCredit 0 0 0 0 16, .xwRefusal 0 (2 ^ 64) 0, .xwRefusal 0 0 (2 ^ 16), .xwTimeProbe 0 0 (2 ^ 64) 0 0,
      .xwTimeProbe 0 0 0 (2 ^ 64) 0, .xwTimeProbe 0 0 0 0 (2 ^ 64), .xwHeartbeat 0 (2 ^ 8) 0 0, .xwHeartbeat 0 0 (2 ^ 64) 0,
      .xwHeartbeat 0 0 0 (2 ^ 8), .xwHeartbeat 0 0 0 0 [4], .xwAlignment 0 5 0, .xwAlignment 0 0 0 256, .xwLaneSwap 4 0 0 true, .xwLaneSwap 0 5 0 true, .xwReservedBlock 0 7, .xwReservedBlock 0 (2 ^ 8), .xwPacketSend 4,
      .xwTimeProbeSend 4, .xwPortSwap 4, .xwMemberLost 4, .leeCauseClear 3 []], i.wf = false := by decide
theorem test_wf_linkUp :
    ∀ i ∈ [Instr.xwLinkUp 4 link32 link32 0 0, .xwLinkUp 0 [] link32 0 0, .xwLinkUp 0 link32 [] 0 0, .xwRekey 0 link32 link32 4 0,
      .xwRekey 0 link32 link32 0 4], i.wf = false := by decide

/-! ### Values of the spec's tables, and witnesses for the numbers, the packing and the stored words -/

/-- The SP4 code 0b1101 widens to the SP8 byte 0xF0 (02, the example after R48). -/
theorem test_sp4_example : sp4Widen 0b1101 = 0xF0#8 := by decide
/-- The tile store of logical tile 5 begins at 0x00F0_0500_0000 and ends at 0x00F0_05BF_FFFF (00, the example after R13). -/
theorem test_tile5 : tileBase 5 = 0x00F005000000 ∧ tileBase 5 + tileBytes - 1 = 0x00F005BFFFFF := by decide
/-- The RAW10 value 1023 with SHIFT 2 clamps to 127 and counts (12, after R375). -/
theorem test_raw10 : csiElement 0 10 2 1023 = ([127#8], 1) := by decide

/-- Control state of a reset device (small name). -/
def r0 : Ctl := State.reset.ctl
def dead0 : State := { State.reset with ctl := { r0 with power := { r0.power with stage := .dead } } }

theorem witness_IdleStepIsOneNs :
    (State.reset.pending = [] ∧ State.reset.ctl.power.stage ≠ .dead ∧ State.reset.ctl.clk.slew = 0 ∧ State.reset.ctl.proto.queue = []) ∧
    (dead0.pending = [] ∧ dead0.ctl.power.stage = .dead) ∧
    (let i := Instr.slotRead (req 0 [])
     let queued (c : Ctl) (i : Instr) : Ctl := c.withProto fun p => { p with queue := [i] }
     let on : Ctl := { r0 with power := { r0.power with stage := .on } }
     (queued on i).serves i = true ∧ (queued on (.identify (req 0 []))).serves (.identify (req 0 [])) = true ∧
       r0.accepting = false ∧ (on.withPlane fun p => { p with copying := some 3 }).plane.copying.isSome = true) := by decide
theorem witness_StepKeepsReady : ∃ t, State.reset.ready ∧ step State.reset = .next t := ⟨_, ⟨by decide, rfl⟩, rfl⟩
theorem witness_Sp4WidensExactly : (0 < 16 ∧ 0 % 8 = 0) ∧ (8 < 16 ∧ 8 % 8 = 0) ∧ (1 < 16 ∧ 1 % 8 ≠ 0) ∧ (15 < 16 ∧ 15 % 8 ≠ 0) := by decide
theorem witness_InnerSumExactInAnyOrder :
    [((1 : Byte), (2 : Byte)), (3, 4)].Perm [(3, 4), (1, 2)] ∧
    ((List.replicate 128 ((0x7F : Byte), (0x7F : Byte))).length ≤ 128 ∧
      innerSum (List.replicate 128 (0x7F, 0x7F)) = some (128 * (861 * 2 ^ 31))) := by
  exact ⟨List.Perm.swap _ _ _, by decide +kernel, by decide +kernel⟩
theorem witness_InnerSumVoid :
    (∃ p ∈ [((0x80 : Byte), (0 : Byte))], mappedProduct p.1 p.2 = none) ∧ (-128 : Int) = voidScale ∧ f32IsVoid f32Void = true ∧
    f32IsVoid 0x3F800000 = false := by decide
theorem witness_ResultsSaturate :
    (0x7F7FFFFF < roundMag 24 (-149) (Q.mk (2 ^ 128) 1).num.natAbs 1 ∧ (Q.mk (2 ^ 128) 1).num ≠ 0) ∧
    (f32IsVoid 0x7F800000 = false ∧ (0 : Int) ≠ voidScale ∧ (0x7F800000 : F32).toNat % 0x80000000 ≠ 0 ∧ f32IsInf 0x7F800000 = true) ∧
    (f32IsVoid 0xC0000000 = false ∧ (0xC0000000 : F32).toNat % 0x80000000 ≠ 0 ∧ (0 : Int) + 1 ≤ (normalise 0xC0000000).1) := by decide
theorem witness_NanConvertsToVoid : f32IsVoid 0x7F800001 = true ∧ (-128 : Int) = voidScale := by decide

/-- 128 elements of turn 15, of two turns, and with a void one. -/
def elems : List Byte := List.replicate 127 0x78 ++ [0x01]
theorem witness_P6DecodesWhatWasEncoded :
    (elems.length = 128 ∧ (encodeExp false elems).blockVoid = 0 ∧ (encodeExp false elems).flushed = 0) ∧
    ((List.replicate 128 (0x80 : Byte)).length = 128 ∧ (encodeExp false (List.replicate 128 0x80)).blockVoid = 0) ∧
    (let xs := elems.map fun b => (p4Round b).1
     xs.length = 128 ∧ (encodeExp true xs).blockVoid = 0 ∧ (encodeExp true xs).flushed = 0) ∧
    (∀ l ∈ [[0x81, 0x07], [0xC7, 0x0A]], (encodeExp true (List.replicate 126 (0x7F : Byte) ++ l)).blockVoid ≤ 1) := by decide +kernel
theorem witness_ZeroMaskIsLossless :
    ((List.replicate 128 (1 : Byte)).length = 128 ∧ (encodeZm (List.replicate 128 1)).2 = true) ∧
    ((List.replicate 112 (1 : Byte) ++ List.replicate 16 0).length = 128 ∧
      (encodeZm (List.replicate 112 1 ++ List.replicate 16 0)).2 = false) := by decide +kernel
/-- Words of 32 bytes that hold the bytes given, with a FORMAT. -/
def words (f : Nat) (bytes : List Byte) : List WordRead :=
  (List.range (cdiv bytes.length 32)).map fun i => { data := (bytes.drop (32 * i)).take 32, tag := f, found := .clean }
theorem witness_FaultClassesInOrder :
    (let codes (p4 : Bool) (ws : List WordRead) : Option (List (Option Byte) × List Bool) :=
       let blk := ws.flatMap (·.data)
       if bit (blk.headD 0).toNat 4 then none else decodeElems p4 ((blk.headD 0).toNat % 16) 128 ((blk.drop 1).flatMap byteBits)
     ∀ p4 : Bool,
       codes p4 (words 1 (0 :: List.replicate 31 0xFF)) = none ∧
       (codes p4 (words 1 (0 :: List.replicate 95 0 ++ [1]))).any (fun x => x.2.any id) = true ∧
       (codes p4 (words 1 (0x20 :: List.replicate 95 0))).any (fun x => !x.2.any id && !x.1.any Option.isNone) = true ∧
       (words 1 [0x20]).all (fun w => w.format == (if p4 = true then 2 else 1)) = !p4) ∧
    (let b : Byte := 0x10; bit b.toNat 4 = true ∧ b.toNat % 16 = 0 ∧ b.toNat / 32 = 0 ∧ (0x11 : Byte).toNat % 16 ≠ 0 ∧
      (0x30 : Byte).toNat / 32 ≠ 0) ∧
    (112 < maskCount ((words 3 (List.replicate 128 0xFF)).flatMap (·.data))) ∧
    (let bytes : List Byte := List.replicate 14 0xFF ++ [0, 0] ++ List.replicate 112 1
     let blk (f : List Byte) : List Byte := (words 3 (bytes ++ f)).flatMap (·.data)
     maskCount (blk []) ≤ 112 ∧ (blk [1]).length = 129 ∧ ((blk [1]).drop (16 + maskCount (blk []))).any (· ≠ 0) = true ∧
       ((blk []).drop (16 + maskCount (blk []))).any (· ≠ 0) = false ∧ (words 3 bytes).all (fun v => v.format == 3) = true ∧
       (words 3 bytes ++ words 1 [0]).all (fun v => v.format == 3) = false ∧ ∀ f < 8, (words f bytes).all (fun v => v.format == f) = true) := by
  decide +kernel

/-- A memory with a word of ones that has `k` symbols in error. -/
def flawed (k : Nat) : Mem :=
  { bytes := [], wtags := [(3, 9)], flaws := (List.range k).map fun i => (36 * 3 + i, (1 : Byte)) }
theorem witness_ReadCorrectsOneSymbol :
    ∀ k < 3, legalTag ((flawed k).tagAt 3).toNat ∧ (flawed k).errors 3 = k := by
  unfold legalTag; decide
theorem witness_WholeWordWriteIsReadBack :
    (List.replicate 32 (7 : Byte)).length = 32 ∧ legalTag 14 ∧ (flawed 2).wf = true ∧ (4 : Nat) ≠ 3 := by
  unfold legalTag; decide
theorem witness_PartWordWriteKeepsFormatAndPoison :
    ∀ k < 3, legalTag ((flawed k).tagAt 3).toNat ∧ (flawed k).errors 3 ≤ 2 ∧ 0 + [(1 : Byte)].length ≤ 32 ∧
      31 + [(1 : Byte)].length ≤ 32 ∧ 0 < [(1 : Byte)].length := by
  unfold legalTag; decide
theorem witness_BankMapsAreOneToOne :
    (15 ≤ 16 ∧ 393215 < storeBytes 15 / 32 ∧ 0 < storeBytes 15 / 32) ∧ (16 ≤ 16 ∧ 1048575 < storeBytes 16 / 32) ∧
    bankOf 15 (32 * 0) = bankOf 15 (32 * 0) := by decide
theorem witness_HbmMapIsOneToOne : 0 < hbmEnd ∧ 0x000C00000000 - 1 < hbmEnd ∧ 0x000600000000 < hbmEnd := by decide
theorem witness_SlotTagChanges :
    let c := { r0 with slotTags := [(5, 3)] }
    (c.slotVoided 5 = true → c.slotFull 5 = true) ∧ c.slotFull 5 = true ∧ c.slotFull 6 = false ∧
    setFull ∈ [setFull, setVoided, setEmpty] ∧ (6 : Nat) ≠ 5 ∧ (setFull 5 c).slotVoided 5 = true := by
  refine ⟨by decide, by decide, by decide, by simp, by decide, by decide⟩
theorem witness_CountersSaturate :
    let k : Cnt := .proBad
    let c (v : Nat) := { r0 with counters := [(k.key 0, v)] }
    k.info.2.2 = false ∧ (c 1).counter k 0 + 1 ≤ cntMax ∧ ((c cntMax).counter k 0 ≤ cntMax ∧ cntMax < (c cntMax).counter k 0 + 1) ∧
    2 ^ 63 ≤ (c (2 ^ 63 + 1)).counter k 0 ∧
    ∃ t : Cnt, t.info.2.2 = true ∧ (c 1).counter t 0 + 1 < 2 ^ 64 ∧ (t, 0) ≠ (k, 0) := by
  refine ⟨by decide, by decide, by decide, by decide, .pwrTimeRun, by decide⟩
theorem witness_ParameterCommitChangesItAlone : (0x0D01 : Nat) ≠ 0x0D02 := by decide

/-! ### Requests -/

/-- Both ports enabled, at the address that the requests of these tests go to. -/
def links : List (Nat × Nat) :=
  [(0x0D10, 2 ^ 48), (0x0D11, 2 ^ 48), (0x0D12, 2 ^ 38 + 0x0A000001), (0x0D13, 2 ^ 38 + 0x0A000001)]
/-- A device that accepts commands on both ports. -/
def on : Ctl :=
  { r0 with
    params := links
    power := { r0.power with stage := .on, hbmTrained := true }
    proto := { r0.proto with sa := [true, true], linkUp := [true, true] }
    pins := { r0.pins with aonPwrGood := true, padHold := false, faultN := true } }
def mem0 : Mem := State.reset.mem
/-- The control domain at `n` ns. -/
def after (n : Nat) (c : Ctl) : Ctl := { c with clk := { c.clk with ns := n } }
/-- A state with nothing in the memories. -/
def st (c : Ctl) : State := { mem := mem0, ctl := c, pending := [] }
theorem st_ready (c : Ctl) (h : c.wq = []) : (st c).ready := ⟨rfl, h⟩

/-- An admitted job, number 1, of the source that the requests of these tests have. -/
def who : Peer := { port := 0, addr := 7, udp := 9 }
def run1 : Run := { seq := 0, requester := who, startEpoch := 0, triggerTime := 0, readyAt := 0 }
def job1 : Job :=
  { no := 1, bundle := 1, index := 0, cls := 1, mode := 1, trigger := 0, submitter := who, cmds := [0], streams := [], pages := [],
    handles := [], windows := [], lists := [], running := none, waiting := none, runSeq := 0, lastStatus := 0, lastList := 4, lastIndex := 0,
    lastTag := 0, exec := Exec.start, saved := [], moved := 0, quantumUsed := 0, ended := false, endReq := none, abortReq := none,
    endAtRun := 0, links := [], linkScales := [] }
/-- A handle in every tile: two slots of 64 bytes, written by the host. -/
def hostH : Handle :=
  { place := 0, gale := false, producer := 2, write := true, home := 0, base := 0, slotBytes := 64, slotCount := 2, tagBase := 0 }
def withJobs (js : List Job) (c : Ctl) : Ctl := { c with jobs := js }

/-- Key slot 0 holds the maker's key, which signs requests and bundles; `pub` is the hash of its ML-DSA-65 key. -/
def signer (pub : List Byte) (c : Ctl) : Ctl :=
  { c with sec := { c.sec with keys := ([7, 2] ++ List.replicate 38 (0 : Byte) ++ pub ++ List.replicate 24 0) :: List.replicate 15 (List.replicate 128 0) } }
def signed0 : Ctl := signer (List.replicate 64 0) on

/-- All checks that a signed request passes but its signature. -/
def unsignedOk (g : Gate) (r : Req) (c : Ctl) : Bool :=
  (r.role == 1 || r.role == 2) && r.authLen == 80 && decide (r.trailer.keySlot < 16) && bit (keyUse (c.key r.trailer.keySlot)) 0
    && bit (keyUse (c.key r.trailer.keySlot)) 1 && keyRole (c.key r.trailer.keySlot) == r.role
    && decide (c.counterOf r.trailer.keySlot < r.trailer.counter) && c.holds g.row r.role && c.peerOk r
    && (match g.job.bind c.job? with
        | some j => (j.submitter.addr == r.addr && j.submitter.udp == r.udp) || c.anyJob r
        | none => true)
    && passes g .ok r c

/-- A signed request is served where its signature verifies and every other check passes. -/
theorem served_of_signature {g : Gate} {r : Req} {c : Ctl} (h : unsignedOk g r c = true)
    (hv : Config.edVerify (slice (c.key r.trailer.keySlot) 8 32) (r.signed g.code) r.trailer.signature = true) : served g r c := by
  simp only [unsignedOk, Bool.and_eq_true, Bool.or_eq_true, beq_iff_eq, decide_eq_true_eq] at h
  obtain ⟨⟨⟨⟨⟨⟨⟨⟨⟨⟨hr, ha⟩, hk⟩, h0⟩, h1⟩, hkr⟩, hc⟩, hh⟩, hp⟩, hj⟩, hpass⟩ := h
  have hs : signatureOk c g.code r = true := by
    simp [signatureOk, hk, h0, h1, hkr, hc, hv]
  have ht : trustCheck c g r = .ok := by
    unfold trustCheck
    have hr0 : r.role ≠ 0 := by omega
    have hr3 : ¬ 3 ≤ r.role := by omega
    simp only [hr3, hr0, ha, hs, hh, hp, if_false, ne_eq, not_true_eq_false, Bool.not_true, Bool.false_eq_true, or_self, and_false]
    cases hb : g.job.bind c.job? with
    | none => rfl
    | some j =>
      simp only [hb, Bool.or_eq_true, Bool.and_eq_true, beq_iff_eq] at hj
      simp only [hj, if_true]
  unfold served
  rw [ht]
  exact hpass

/-- One entry of a PARAM_WRITE: PRO_COMMIT_DEADLINE (0x0D01), two bytes, 50. -/
def paramPayload : List Byte := [0x0D, 0x01, 0, 2, 0, 50, 0, 0]

/-- Every signature verifies: what the witnesses of signed requests assume of the free value Config.edVerify. -/
def Verifies : Prop := ∀ k m s, Config.edVerify k m s = true
theorem Verifies.served {g : Gate} {r : Req} {c : Ctl} (hv : Verifies) (h : unsignedOk g r c = true) : served g r c :=
  served_of_signature h (hv _ _ _)

theorem witness_RequestsAreCheckedInOrder :
    let g := plainGate 0x01 0 true true
    let r := req 0 []
    let q : Cached := { code := 0x01, req := { r with payload := [1] }, reply := none, at' := 0, copyPort := none, more := [] }
    let cached (q : Cached) : Ctl := { on with proto := { on.proto with cache := [q] } }
    let entering : Ctl := { on with power := { on.power with stage := .entering } }
    (on.hears r = true ∧ on.proto.serving = false ∧ r0.accepting = false) ∧
    (let c := { on with proto := { on.proto with rxPn := [2 ^ 31, 0] } }
     c.frameLate r.port r.pn = true ∧ c.hears r = false) ∧ on.frameFor { r with dst := 5 } = false ∧
    on.frameFor { r with vlan := some 3 } = false ∧ on.frameFor { r with dstUdp := 5 } = false ∧
    modeCheck on g r = .ok ∧ modeCheck entering (plainGate 0x03 2 true true) r ≠ .ok ∧
    (plainGate 0x01 0 false true).lengthOk = false ∧
    ((plainGate 0x01 0 true false).lengthOk = true ∧ (plainGate 0x01 0 true false).reservedOk = false) ∧
    (g.lengthOk = true ∧ g.reservedOk = true ∧ headerCheck { r with flags := 32 } ≠ .ok ∧ headerCheck { r with deadline := 30001 } ≠ .ok) ∧
    (headerCheck r = .ok ∧ g.fragment = false ∧ (cached q).cached r = some q ∧ q.holds r = false) ∧
    (let q := { q with req := r, reply := some [] }
     (cached q).cached r = some q ∧ q.code = g.code ∧ q.holds r = true ∧ q.reply = some []) ∧
    (let q := { q with req := r }
     (cached q).cached r = some q ∧ q.holds r = true ∧ q.req.port = r.port ∧ q.holds { r with port := 1 } = true ∧
       q.req.port ≠ ({ r with port := 1 } : Req).port ∧ (cached q).hears { r with port := 1 } = true) ∧
    (on.cached r = none ∧ trustCheck on (plainGate 0x03 2 true true) r ≠ .ok ∧ trustCheck on g r = .ok) ∧
    (let r := { r with flags := 8, epoch := 5 }
     headerCheck r = .ok ∧ bit r.flags 3 = true ∧ r.epoch ≠ on.proto.epoch) ∧
    (bit r.flags 3 = false ∧ g.exempt = false ∧ on.proto.queue.length < 256 ∧ on.queues g.code { r with waits := true } = true ∧
      on.galeRun g.code r = false ∧ (List.replicate 256 (Instr.identify r)).length = 256 ∧
      ({ on with proto := { on.proto with queue := List.replicate 256 (Instr.identify r) } } : Ctl).hears r = true) ∧
    (let c : Ctl := { on with jobs := [{ job1 with cls := 0 }], proto := { on.proto with queue := [.identify r] } }
     c.galeRun 0x11 (req 0 [0, 1, 0, 0]) = true ∧ c.galeWaits (.identify r) = false ∧ c.queues 0x11 (req 0 [0, 1, 0, 0]) = false ∧
       c.queues 0x11 { req 0 [0, 1, 0, 0] with waits := true } = true) ∧
    passes g (trustCheck on g r) r on = true := by decide +kernel

theorem witness_ReadRequestsAreAnswered :
    let c := on
    let j := { job1 with no := 1 }
    let cj := withJobs [j] on
    (st c).ready ∧
    served (plainGate 0x01 0 ((req 0 []).len == 0) true) (req 0 []) c ∧
    (let r := req 0 [0x0D, 0x01, 0, 0]
     served (plainGate 0x02 1 (r.len % 4 == 0 && r.len ≤ 64) true) r c ∧ paramIds r = [0x0D01] ∧
       (readEntries (accept (plainGate 0x02 1 true true) r c) (paramIds r)).isSome = true) ∧
    (let r := req 0 [12, 0, 0, 0]
     r.u8 0 < 13 ∧ served (plainGate 0x04 0 (r.len == 4) (r.zeros 1 3)) r c) ∧
    (let r := req 0 [0, 1, 0, 0]
     cj.admitted (r.be 0 2) = some j ∧ j.ended = false ∧ served (jobGate 0x14 0 r) r cj ∧
       c.admitted (r.be 0 2) = none ∧ served (jobGate 0x14 0 r) r c) ∧
    served (plainGate 0x34 0 ((req 0 []).len == 0) true) (req 0 []) c ∧
    (let r := req 0 [0, 0, 0, 0, 0, 0, 0, 0]
     r.u8 0 = 0 ∧ served (plainGate 0x39 12 (r.len == 8) (r.zeros 1 7)) r c) ∧
    (let r := req 0 (List.replicate 36 0)
     r.u8 0 = 0 ∧ served (plainGate 0x3A 14 (r.len == 36) (r.zeros 1 3)) r c) ∧
    (let r := req 0 [1, 0, 0, 0]
     r.u8 0 = 1 ∧ served (plainGate 0x3A 14 (r.len == 4) (r.zeros 1 3)) r c) ∧
    (let r := req 0 [0, 0, 0, 0]
     r.u8 0 = 0 ∧ r.u8 1 = 0 ∧ served (plainGate 0x40 17 (r.len == 4) (r.zeros 2 2)) r c) ∧
    (let r := req 0 [2, 0, 0, 0]
     r.u8 0 = 2 ∧ served (plainGate 0x48 20 (r.len == 4) (r.zeros 1 3)) r c) := by
  unfold served; refine ⟨st_ready _ rfl, ?_⟩; decide +kernel

theorem witness_ReadRequestsAreAnswered_signed (hv : Verifies) :
    (let r := req 2 [0, 4, 0, 2, 0, 0, 0, 0]
     r.u8 0 = 0 ∧ r.be 2 2 < entryCount (r.u8 1) ∧ served (protectGate 9 (r.len == 8 && r.u8 1 ≤ 4) r) r signed0) ∧
    (let r := req 2 (List.replicate 16 0)
     r.u8 0 = 0 ∧ served (plainGate 0x3B 15 (r.len == 16) (r.zeros 1 7)) r signed0) ∧
    (let r := req 2 [0, 0, 0, 0]
     r.u8 0 = 0 ∧ r.zeros 1 3 = true ∧ served (leeGate r) r signed0) :=
  ⟨⟨by decide +kernel, by decide +kernel, hv.served (by decide +kernel)⟩, ⟨by decide +kernel, hv.served (by decide +kernel)⟩,
   by decide +kernel, by decide +kernel, hv.served (by decide +kernel)⟩

/-- An installed bundle in the weight flash. -/
def bundle1 : Bundle := { no := 1, kind := 0, size := 0x10000, digest := [], base := flashBase, signer := 0, damaged := false }
def withBundle (c : Ctl) : Ctl := { c with store := { c.store with bundles := [bundle1] } }
/-- A table 3 entry that names bundle 5, flags VALID and RUN. -/
def policyEntry (flags : Byte) : List Byte := [0, 0, 0, 5, flags] ++ List.replicate 11 0

theorem witness_ChangesAreStaged (hv : Verifies) :
    ((st signed0).ready ∧ signed0.journalFull = false) ∧
    (let r := req 2 paramPayload
     let g := plainGate 0x03 2 true true
     parseEntries 32 r.payload = some ([(0x0D01, 2, 50)], true) ∧ served g r signed0 ∧
       firstBad (valueAfter (accept g r signed0) [(0x0D01, 50)]) 0 [(0x0D01, 2, 50)] = none) ∧
    (let r := req 2 [0, 0, 0, 1]
     let c := withBundle signed0
     (∃ b ∈ c.store.bundles, b.no = r.be 0 4) ∧
       served (plainGate 0x33 (bundleRow (((c.store.bundles.find? fun b => b.no = r.be 0 4).map (·.kind)).getD 0)) (r.len == 4) true) r c) ∧
    (let r := req 2 ([1, 2, 0, 1, 0, 0, 0, 0] ++ Sec.peer0)
     r.u8 0 = 1 ∧ r.be 2 2 < entryCount (r.u8 1) ∧ entryOk signed0 (r.u8 1) (r.be 2 2) (r.payload.drop 8) = true ∧
       tightens signed0 (r.u8 1) (r.be 2 2) (r.payload.drop 8) = false ∧
       served (protectGate 11 (r.u8 1 ≤ 4 && r.len == 8 + entrySize (r.u8 1)) r) r signed0) :=
  ⟨⟨st_ready _ rfl, by decide +kernel⟩, ⟨by decide +kernel, hv.served (by decide +kernel), by decide +kernel⟩,
   ⟨by decide +kernel, hv.served (by decide +kernel)⟩,
   by decide +kernel, by decide +kernel, by decide +kernel, by decide +kernel, hv.served (by decide +kernel)⟩

/-- The memories with a bundle of 5,600 bytes at the start of the flash aperture: header, no sections, signature block. -/
def bundleMem : Mem :=
  { mem0 with bytes := [(0, 0x4B), (1, 0x42), (2, 0x4E), (3, 0x44), (4, 1), (8, 0xE0), (9, 0x15), (17, 1)].map fun p => (flashBase + p.1, p.2) }
def image : List Byte := bundleMem.flashBytes flashBase 5600
def transfer1 : BundleXfer :=
  { no := 1, kind := 0, size := 5600, digest := Machine.hash (image.take 256), base := flashBase, received := 5600, data := [], staged := false,
    signer := 0, svn := 0, at' := 0 }

theorem witness_ChangesAreStaged_commit (hv : Verifies) (hm : ∀ k m s, Config.mldsaVerify k m s = true)
    (hp : Machine.hash (slice (slice image 256 5344) 72 1952) = List.replicate 64 0) :
    let c := { signed0 with store := { signed0.store with transfers := [transfer1] } }
    let s : State := { mem := bundleMem, ctl := c, pending := [] }
    let r := req 2 [0, 0, 0, 1]
    let x := transfer1
    let g := { plainGate 0x32 (bundleRow (xferKind c (r.be 0 4))) (r.len == 4) true with mode := leeBars c }
    s.ready ∧ c.journalFull = false ∧ c.store.transfers.find? (fun t => t.no = r.be 0 4 && !t.staged) = some x ∧ x.size ≤ x.received ∧
      served g r c ∧
      verifyBundle (accept g r c) x.kind x.size x.digest (if x.kind = 1 then x.data else s.mem.flashBytes x.base x.size) = some 0 := by
  refine ⟨⟨by decide +kernel, rfl⟩, by decide +kernel, by rfl, by decide, hv.served (by decide +kernel), ?_⟩
  rw [if_neg (by decide)]
  change verifyBundle _ 0 5600 (Machine.hash (image.take 256)) image = some 0
  have hs : leNat (slice (slice image (5600 - 5344) 5344) 0 2) = 0 := by decide +kernel
  unfold verifyBundle
  simp only [hs]
  rw [if_pos]
  simp only [Bool.and_eq_true]
  refine ⟨⟨⟨⟨⟨by decide +kernel, by decide +kernel⟩, beq_self_eq_true _⟩, ?_⟩, hv _ _ _⟩, hm _ _ _⟩
  rw [if_neg (by decide)]
  simp only [Bool.and_eq_true]
  refine ⟨⟨⟨by decide, by decide +kernel⟩, by decide +kernel⟩, ?_⟩
  rw [show (5600 - 5344 : Nat) = 256 from rfl, hp]
  decide +kernel

/-! ### Jobs, slots and bundles -/

/-- Bytes at offsets of the flash aperture. -/
def inFlash (l : List (Nat × Byte)) : List (Nat × Byte) := l.map fun p => (flashBase + p.1, p.2)
/-- The memories with a bundle that has one job description: a page of the bundle itself, and a list of OP_END alone, all of whose
handles are unused. -/
def jobMem : Mem :=
  { mem0 with bytes := inFlash ([(24, 64), (32, 1), (64, 7), (67, 2), (81, 1), (84, 1), (0x100, 5), (0x10C, 0x40)] ++
    (List.range 13).map fun i => (0x210 + i, 0xFF)) }
def submitReq : Req := req 0 ([0, 0, 0, 1, 0, 0, 1] ++ [0] ++ List.replicate 8 0)

theorem built_of {m : Mem} {s : Submit} {c : Ctl} {grouped : Bool} {peers : List Nat}
    (h : (match buildJob m s c with
      | .ok p => (p.2.job? p.1.no).isNone && p.2.proto.sa.getD 0 false && p.1.mode == s.mode && p.1.running.isNone &&
          p.1.grouped == grouped && p.2.peersUp == peers
      | .error _ => false) = true) :
    ∃ j c', buildJob m s c = .ok (j, c') ∧ c'.job? j.no = none ∧ c'.proto.sa.getD 0 false = true ∧ j.mode = s.mode ∧ j.running = none ∧
      j.grouped = grouped ∧ c'.peersUp = peers := by
  split at h
  · rename_i p hp
    simp only [Bool.and_eq_true, Option.isNone_iff_eq_none, beq_iff_eq] at h
    exact ⟨p.1, p.2, hp, h.1.1.1.1.1, h.1.1.1.1.2, h.1.1.1.2, h.1.1.2, h.1.2, h.2⟩
  · cases h

theorem witness_JobRequestsTakeEffect_submit :
    let c := withBundle signed0
    let r := submitReq
    let gs := { plainGate 0x10 4 (r.len == 16) (r.zeros 9 7) with mode := KS.ok }
    let s : State := { mem := jobMem, ctl := c, pending := [] }
    s.ready ∧ c.service.lee = false ∧ served gs r c ∧
    ∃ j c', buildJob s.mem (submitOf r (0, 0) []) (accept gs r c) = .ok (j, c') ∧ c'.job? j.no = none ∧
      c'.proto.sa.getD r.port false = true ∧ j.mode = 0 ∧ j.running = none ∧ j.grouped = false ∧ c'.peersUp = [] := by
  refine ⟨⟨by decide +kernel, rfl⟩, rfl, ?_, built_of (by decide +kernel)⟩
  unfold served; decide +kernel

/-- A device that leads a group of itself and member 1. -/
def leads (c : Ctl) : Ctl :=
  { c with params := links ++ [(0x0E00, 0), (0x0E01, 3)], group := { c.group with formed := true, lead := 0, state := [0, 0, 0xFF, 0xFF], epoch := 1 } }
/-- The memories with a bundle that has one group job too, without links, whose part for every member is that job. -/
def groupMem : Mem := { jobMem with bytes := inFlash ([(24, 64), (32, 1), (41, 3), (48, 1), (64, 7), (67, 2), (81, 1), (84, 1), (0x100, 5),
  (0x10C, 0x40)] ++ (List.range 13).map fun i => (0x210 + i, 0xFF)) }
theorem witness_JobRequestsTakeEffect_submitGroup :
    let c := leads (withBundle signed0)
    let r := req 0 ([0, 0, 0, 1, 0x80, 0, 1] ++ [0] ++ List.replicate 8 0)
    let gs := { plainGate 0x10 4 (r.len == 16) (r.zeros 9 7) with mode := KS.ok }
    let s : State := { mem := groupMem, ctl := c, pending := [] }
    s.ready ∧ c.service.lee = false ∧ served gs r c ∧
    ∃ j c', buildJob s.mem (submitOf r (0, 0) []) (accept gs r c) = .ok (j, c') ∧ c'.job? j.no = none ∧
      c'.proto.sa.getD 0 false = true ∧ j.mode = 0 ∧ j.running = none ∧ j.grouped = true ∧ c'.peersUp = [1] := by
  refine ⟨⟨by decide +kernel, rfl⟩, rfl, ?_, built_of (by decide +kernel)⟩
  unfold served; decide +kernel

theorem witness_JobRequestsTakeEffect :
    let r := req 0 [0, 1, 0, 0]
    let j := job1
    let running := { job1 with cls := 0, running := some run1 }
    let c := withJobs [j] on
    let cr := withJobs [running] on
    let held := { c with plane := { c.plane with holder := some 1 } }
    let grouped := { job1 with index := 0x8000 }
    ((st c).ready ∧ c.job? (r.be 0 2) = some j ∧ c.frozenIn 1 = false ∧ j.ended = false ∧ j.admitReq = none ∧ j.grouped = false ∧
      grouped.grouped = true ∧ (leads (withJobs [grouped] on)).isLead = true ∧ served (jobGate 0x11 4 r) r (leads (withJobs [grouped] on))) ∧
    (served (jobGate 0x11 4 r) r c ∧ j.mode = 1 ∧ j.waiting = none ∧ j.running = none ∧ served (jobGate 0x11 4 r) r cr ∧
      cr.job? (r.be 0 2) = some running ∧ galeRoom cr = true) ∧
    (served (jobGate 0x12 5 r) r c ∧ j.abortReq = none ∧ c.plane.holder ≠ some 1) ∧
    (served (jobGate 0x12 5 r) r held ∧ held.plane.holder = some 1) ∧
    (served (jobGate 0x13 5 r) r c ∧ j.endReq = none ∧ served (jobGate 0x13 5 r) r cr ∧ running.running.isSome = true) := by
  unfold served; refine ⟨⟨st_ready _ rfl, ?_⟩, ?_⟩ <;> decide +kernel

/-- A SLOT_WRITE of one word to slot 1 of handle 0 in tile 15, and a SLOT_READ of it. -/
def slotReq (offset w : List Byte) (data : List Byte) : Req := req 0 ([0, 1, 0, 15, 0, 0, 0, 1] ++ offset ++ w ++ data)
def withHost (c : Ctl) : Ctl := withJobs [{ job1 with handles := [(0, hostH)] }] c

theorem target_of {c : Ctl} {r : Req} {j : Job} {h : Handle} {t n : Nat}
    (h' : (match slotTarget c r with | .ok x => decide (x = (j, h, t, n)) | .error _ => false) = true) : slotTarget c r = .ok (j, h, t, n) := by
  split at h'
  · rename_i x hx; rw [hx, of_decide_eq_true h']
  · cases h'

theorem witness_SlotTransfersMoveBytes_write :
    let c := withHost on
    let r := slotReq [0, 0, 0, 32] [0, 0, 0, 1] (List.replicate 32 6)
    let last := { r with flags := 4 }
    let g := { plainGate 0x18 6 (16 ≤ r.len && r.len ≤ 16 + 1376) (r.be 12 4 / 2 == 0) with job := some (r.be 0 2) }
    (st c).ready ∧ slotTarget c r = .ok ({ job1 with handles := [(0, hostH)] }, hostH, 15, 1) ∧ r.be 8 4 % 32 = 0 ∧ xferOf c r = none ∧
      c.fragmentWaits r = false ∧ r.be 8 4 + (r.len - 16) ≤ hostH.slotBytes ∧ c.slotFull (hostH.slotKey 15 1) = false ∧
      served g r c ∧ bit r.flags 2 = false ∧ served g last c ∧ bit last.flags 2 = true := by
  unfold served
  exact ⟨st_ready _ rfl, target_of (by decide +kernel), by decide +kernel⟩

/-- The fragments after the first: in order, the last of them, and one out of order. -/
theorem witness_SlotTransfersMoveBytes_later :
    let r := slotReq [0, 0, 0, 32] [0, 0, 0, 1] (List.replicate 32 6)
    let last := { r with flags := 4 }
    let x : HostXfer := { jobNo := 1, handle := 0, tile := 15, slot := 1, source := who, reqId := 1, nextOffset := 32, at' := 0 }
    let c := (withHost on).withProto fun p => { p with xfers := [x] }
    let late := (withHost on).withProto fun p => { p with xfers := [{ x with nextOffset := 0 }] }
    let g := { plainGate 0x18 6 (16 ≤ r.len && r.len ≤ 16 + 1376) (r.be 12 4 / 2 == 0) with job := some (r.be 0 2), fragment := true }
    (st c).ready ∧ slotTarget c r = .ok ({ job1 with handles := [(0, hostH)] }, hostH, 15, 1) ∧ xferOf c r = some x ∧ c.cached r = none ∧
      served g r c ∧ served g last c ∧ r.be 8 4 = x.nextOffset ∧ r.be 8 4 + (r.len - 16) ≤ hostH.slotBytes ∧
      c.slotFull (hostH.slotKey 15 1) = false ∧ bit r.flags 2 = false ∧ bit last.flags 2 = true ∧
      slotTarget late r = .ok ({ job1 with handles := [(0, hostH)] }, hostH, 15, 1) ∧
      xferOf late r = some { x with nextOffset := 0 } ∧ served g r late ∧ r.be 8 4 ≠ 0 := by
  unfold served
  exact ⟨st_ready _ rfl, target_of (by decide +kernel), by decide +kernel, by decide +kernel, by decide +kernel, by decide +kernel,
    by decide +kernel, by decide +kernel, by decide +kernel, by decide +kernel, by decide +kernel, target_of (by decide +kernel),
    by decide +kernel⟩

theorem witness_SlotTransfersMoveBytes_read :
    let c := setAll setFull (hostH.slotKeys 1) (withHost on)
    let r := slotReq [0, 0, 0, 32] [1, 0, 0, 32] []
    (st c).ready ∧ slotTarget c r = .ok ({ job1 with handles := [(0, hostH)] }, hostH, 15, 1) ∧ r.be 8 4 % 32 = 0 ∧
      c.resultOut 1 = true ∧ r.be 8 4 + r.be 12 4 % 2 ^ 24 ≤ hostH.slotBytes ∧ c.handleFull hostH 1 = true ∧
      served { plainGate 0x19 6 (r.len == 16) (r.be 12 4 / 2 ^ 25 == 0) with job := some (r.be 0 2) } r c ∧ bit (r.be 12 4) 24 = true := by
  unfold served
  exact ⟨st_ready _ rfl, target_of (by decide +kernel), by decide +kernel⟩

theorem witness_SlotTransfersMoveBytes_timeout :
    let x : HostXfer := { jobNo := 1, handle := 0, tile := 15, slot := 1, source := who, reqId := 1, nextOffset := 32, at' := 0 }
    let c := (withHost on).withProto fun p => { p with xfers := [x] }
    let late := after (1000000 * c.param 0x0D02 + 1) c
    (c.clk.ns ≤ x.at' + 1000000 * c.param 0x0D02 ∧ x.at' + 1000000 * late.param 0x0D02 < late.clk.ns ∧
      late.slotFull (hostH.slotKey 15 1) = false ∧ (setFull (hostH.slotKey 15 1) late).slotFull (hostH.slotKey 15 1) = true) ∧
    c.proto.xfers.find? (fun y => y.jobNo = x.jobNo && y.handle = x.handle && y.tile = x.tile && y.slot = x.slot) = some x ∧
    c.job? x.jobNo = some { job1 with handles := [(0, hostH)] } ∧ ({ job1 with handles := [(0, hostH)] } : Job).handle? x.handle = some hostH := by
  decide +kernel

theorem witness_BundleTransfersStepByStep (hv : Verifies) :
    (let r := req 2 ([0, 0, 0, 0, 0, 0, 0, 0, 0, 0, 0x15, 0xE0] ++ List.replicate 64 0)
     let c := signed0
     (st c).ready ∧ r.u8 0 = 0 ∧
       flashFits c (r.be 4 8) = true ∧ freeAperture c (r.be 4 8) = some flashBase ∧
       served { plainGate 0x30 (bundleRow (r.u8 0)) (r.len == 76) (r.zeros 1 3) with mode := leeBars c } r c) ∧
    (let r := req 2 ([1, 0, 0, 0, 0, 0, 0, 0, 0x08, 0, 0, 0] ++ List.replicate 64 0)
     r.u8 0 = 1 ∧ r.be 4 8 ≤ 0x8000000 ∧
       served { plainGate 0x30 (bundleRow (r.u8 0)) (r.len == 76) (r.zeros 1 3) with mode := leeBars signed0 } r signed0) ∧
    (let x := { transfer1 with digest := [], received := 32 }
     let c := { signed0 with store := { signed0.store with transfers := [x] } }
     let r := req 2 ([0, 0, 0, 1, 0, 0, 0, 0, 0, 0, 0, 32] ++ List.replicate 32 6)
     c.store.transfers.find? (fun t => t.no = r.be 0 4 && !t.staged) = some x ∧ r.be 4 8 = x.received ∧
       r.be 4 8 + (r.len - 12) ≤ x.size ∧ x.kind = 0 ∧
       served { plainGate 0x31 (bundleRow (xferKind c (r.be 0 4))) (12 < r.len && r.len ≤ 12 + 1376) true with mode := leeBars c } r c ∧
       c.clk.ns < x.at' + 60000000000 ∧ x.at' + 60000000000 ≤ (after 60000000000 c).clk.ns) :=
  ⟨⟨st_ready _ rfl, by decide +kernel, by decide +kernel, by decide +kernel, hv.served (by decide +kernel)⟩,
   ⟨by decide +kernel, by decide +kernel, hv.served (by decide +kernel)⟩,
   by decide +kernel, by decide +kernel, by decide +kernel, by decide +kernel, hv.served (by decide +kernel), by decide +kernel⟩

/-- A frozen object of each kind of its own, in job 1. -/
def frozen1 (kind : Nat) : Frozen :=
  { id := 1, kind := kind, role := 0, status := KS.stallLimit.code, job := 0, tile := 3, ctx := 2, idx := 0, tag := 0, time := 0 }
def entry1 : Entry :=
  { seq := 1, time := 0, epoch := 0, kind := 1, role := 0, keySlot := 0xFF, reqId := 0, detail := [], prevHash := [] }

theorem witness_ClearThawAndTrim (hv : Verifies) :
    (let r := req 2 [12, 0, 0, 0]
     (st signed0).ready ∧ r.u8 0 < 13 ∧ served (plainGate 0x05 3 (r.len == 4) (r.zeros 1 3)) r signed0 ∧ Cnt.svcAdmit.info.1 = r.u8 0) ∧
    (∀ kind ∈ [4, 5, 6],
      let f := frozen1 kind
      let c := { signed0 with sec := { signed0.sec with frozen := [f] } }
      let r := req 2 [1, 0, 0, 0, 0, 0, 0, 1]
      c.sec.frozen.find? (fun f => f.id = r.be 4 4) = some f ∧ r.u8 0 = 1 ∧ f.tile < c.tiles.length ∧
        unsignedOk (plainGate 0x39 (if f.kind ≤ 4 then 12 else 13) (r.len == 8) (r.zeros 1 3)) r c = true) ∧
    (let c := { signed0 with sec := { signed0.sec with head := 2, journal := [entry1, { entry1 with seq := 2 }] } }
     let r := req 2 ([1, 0, 0, 0, 0, 0, 0, 0] ++ [0, 0, 0, 0, 0, 0, 0, 1])
     r.u8 0 = 1 ∧ r.be 8 8 < c.sec.head ∧ c.sec.journal.length < journalSize ∧
       served (plainGate 0x3B 16 (r.len == 16) (r.zeros 1 7)) r c) :=
  ⟨⟨st_ready _ rfl, by decide +kernel, hv.served (by decide +kernel), by decide⟩, by decide +kernel,
   by decide +kernel, by decide +kernel, by decide +kernel, hv.served (by decide +kernel)⟩

/-- The entry that a claim installs: a key of the maker that is valid and signs requests. -/
def claimEntry : List Byte := [3, 2] ++ List.replicate 126 0
theorem witness_ProtectionTakesEffect (hv : Verifies) :
    (let r := req 2 ([1, 1, 0, 0, 0, 0, 0, 0] ++ [6, 0, 0, 0])
     let c := signed0
     let table := r.u8 1
     let e := r.payload.drop 8
     (st c).ready ∧ r.u8 0 = 1 ∧ table = 1 ∧ r.be 2 2 < entryCount table ∧ entryOk c table (r.be 2 2) e = true ∧
       tightens c table (r.be 2 2) e = true ∧ c.sec.keys.length = 16 ∧ c.sec.rights.length = 21 ∧ c.sec.peers.length = 16 ∧
       c.sec.policy.length = 32 ∧
       served (protectGate (if 1 ≤ table ∧ table ≤ 3 then 10 else 11) (table ≤ 4 && r.len == 8 + entrySize table) r) r c) ∧
    (let r := req 2 ([1, 0, 0, 0, 0, 0, 0, 0] ++ ([1, 2] ++ List.replicate 126 0))
     let e := r.payload.drop 8
     r.u8 1 = 0 ∧ entryOk signed0 0 0 e = true ∧ tightens signed0 0 0 e = true ∧
       served (protectGate 11 (r.u8 1 ≤ 4 && r.len == 8 + entrySize (r.u8 1)) r) r signed0) ∧
    (let r := req 2 ([2, 0, 0, 0, 0, 0, 0, 0] ++ claimEntry ++ List.replicate 128 1)
     r.u8 0 = 2 ∧ on.sec.keys.length = 16 ∧ on.sec.linkKeys.length = 3 ∧ on.journalFull = false ∧
       entryOk on 0 0 (slice r.payload 8 128) = true ∧ keyRole (slice r.payload 8 128) = 2 ∧
       bit (keyUse (slice r.payload 8 128)) 0 = true ∧ bit (keyUse (slice r.payload 8 128)) 1 = true ∧
       passes (protectGate 11 (r.len == 8 + 128 + 64 + 64) r) (claimTrust on r) r on = true) ∧
    (let r := req 2 [3, 0, 0, 0, 0, 0, 0, 0]
     r.u8 0 = 3 ∧ served (protectGate 11 (r.len == 8) r) r signed0) := by
  refine ⟨⟨st_ready _ rfl, by decide +kernel, by decide +kernel, by decide +kernel, by decide +kernel, by decide +kernel, by decide +kernel,
    by decide +kernel, by decide +kernel, by decide +kernel, hv.served (by decide +kernel)⟩,
   ⟨by decide +kernel, by decide +kernel, by decide +kernel, hv.served (by decide +kernel)⟩,
   ⟨by decide +kernel, by decide +kernel, by decide +kernel, by decide +kernel, by decide +kernel, by decide +kernel, by decide +kernel,
    by decide +kernel, ?_⟩,
   by decide +kernel, hv.served (by decide +kernel)⟩
  have ht : claimTrust on (req 2 ([2, 0, 0, 0, 0, 0, 0, 0] ++ claimEntry ++ List.replicate 128 1)) = .ok := by
    unfold claimTrust
    rw [hv _ _ _, if_neg (by decide +kernel), if_neg (by decide +kernel), if_neg (by decide +kernel)]
  rw [ht]; decide +kernel

/-! ### Power, groups and commits -/

def running1 : Job := { job1 with running := some run1 }

theorem witness_PowerAndLeeRequests :
    (let r := req 0 [1, 2, 0, 0]
     let c := withJobs [running1] on
     let ge := { plainGate 0x40 17 (r.len == 4) (r.zeros 2 2) with mode := KS.ok }
     (st c).ready ∧ r.u8 0 = 1 ∧ 2 ≤ r.u8 1 ∧ r.u8 1 ≤ 4 ∧ c.power.stage = .on ∧ c.service.lee = false ∧ served ge r c ∧
       (∃ j ∈ c.jobs, j.running.isSome = true ∧ j.ended = false)) ∧
    (let r := req 0 [1, 4, 0, 0]
     let c := withJobs [job1] on
     let ge := { plainGate 0x40 17 (r.len == 4) (r.zeros 2 2) with mode := KS.ok }
     r.u8 1 = 4 ∧ served ge r c ∧ (∀ j ∈ c.jobs, j.running = none) ∧ (∀ n < 64, (c.intake n).busy = false ∧ (c.intake n).dropping = false)) ∧
    (let r := req 0 [2, 0, 0, 0]
     r.u8 0 = 2 ∧ r.u8 1 = 0 ∧ served (plainGate 0x40 17 (r.len == 4) (r.zeros 2 2)) r on) := by
  unfold served; refine ⟨⟨st_ready _ rfl, ?_⟩, ?_⟩ <;> decide +kernel

theorem witness_PowerAndLeeRequests_lee (hv : Verifies) :
    (let r := req 2 [1, 0, 0, 0]
     r.zeros 1 3 = true ∧ r.u8 0 = 1 ∧ served (leeGate r) r signed0 ∧ signed0.service.lee = false ∧ signed0.power.stage = .on) ∧
    (let r := req 2 [2, 0, 0, 0]
     let c := { signed0 with service := { signed0.service with lee := true, leeCause := 16 } }
     r.zeros 1 3 = true ∧ r.u8 0 = 2 ∧ served (leeGate r) r c ∧ c.service.lee = true ∧ c.service.leeCause = 16) ∧
    (let r := req 2 [2, 0, 0, 0]
     let c := { signed0 with service := { signed0.service with lee := true, leeCause := 17 } }
     served (leeGate r) r c ∧ bit c.service.leeCause 4 = true ∧ c.service.leeCause ≠ 16) :=
  ⟨⟨by decide +kernel, by decide +kernel, hv.served (by decide +kernel), by decide, by decide⟩,
   ⟨by decide +kernel, by decide +kernel, hv.served (by decide +kernel), by decide, by decide⟩,
   hv.served (by decide +kernel), by decide, by decide⟩

/-- A device that is member 0 of a group of members 0 to 3, with reports of the others. -/
def inGroup (c : Ctl) : Ctl := { c with params := links ++ [(0x0E00, 0), (0x0E01, 0x0F)] }
def report1 (c : Ctl) (k : Nat) : MemberReport := { ownReport c with member := k }

theorem reports_states :
    let c := inGroup signed0
    let alone : Ctl := { c with params := links ++ [(0x0E00, 0), (0x0E01, 1)] }
    let states (l : List MemberReport) : List Nat := (formStates c l).1
    let report1 := report1 c
    states ([1, 2, 3].map report1) = [0, 0, 0, 0] ∧ states [] = [0, 4, 4, 4] ∧
      states [{ report1 1 with reachable := false }] = [0, 4, 4, 4] ∧
      states [{ report1 1 with firmware := 0 :: (report1 1).firmware }, report1 2] = [1, 1, 1, 4] ∧
      states [{ report1 1 with offset := -1001 }, report1 2] = [0, 2, 0, 4] ∧
      states [{ report1 1 with groupEpoch := 7 }, report1 2] = [3, 0, 3, 4] ∧
      topEpoch c [{ report1 1 with groupEpoch := 7 }] = 7 ∧ (formStates alone []).1 = [0, 0xFF, 0xFF, 0xFF] := by
  have hp : (inGroup signed0).param 0x0E01 = 15 := rfl
  have hm : (inGroup signed0).member = 0 := rfl
  have he : (inGroup signed0).group.epoch = 0 := rfl
  have hr : List.range 4 = [0, 1, 2, 3] := rfl
  have hb : bit 15 0 = true ∧ bit 15 1 = true ∧ bit 15 2 = true ∧ bit 15 3 = true := by decide
  refine ⟨?_, ?_, ?_, ?_, ?_, ?_, ?_, ?_⟩
  case refine_8 =>
    have hb : bit 1 0 = true ∧ bit 1 1 = false ∧ bit 1 2 = false ∧ bit 1 3 = false := by decide
    let a : Ctl := { inGroup signed0 with params := links ++ [(0x0E00, 0), (0x0E01, 1)] }
    have hp : a.param 0x0E01 = 1 := rfl
    have hm : a.member = 0 := rfl
    have he : a.group.epoch = 0 := rfl
    change (formStates a []).1 = _
    simp [formStates, topEpoch, memberOutcome, ownReport, hp, hm, he, hr, hb]
  all_goals simp [formStates, topEpoch, memberOutcome, report1, ownReport, hp, hm, he, hr, hb, Option.filter]

theorem witness_GroupsFormAndDissolve (hv : Verifies) :
    (let c := inGroup signed0
     let r := req 2 [0, 0, 0, 0]
     let found := [1, 2, 3].map (report1 c)
     (st c).ready ∧ r.u8 0 = 0 ∧ c.member < 4 ∧ bit (c.param 0x0E01) c.member = true ∧
       served { plainGate 0x48 19 (r.len == 4) (r.zeros 1 3) with mode := leeBars c } r c ∧
       (∃ sts, (formStates c found).1 = sts ∧ sts = [0, 0, 0, 0] ∧ c.member ∈ (List.range 4).filter fun k => sts.getD k 0xFF = 0)) ∧
    (let r := req 2 [0, 0, 0, 0]
     4 ≤ signed0.member ∧ served { plainGate 0x48 19 (r.len == 4) (r.zeros 1 3) with mode := leeBars signed0 } r signed0) ∧
    (let c := inGroup signed0
     let alone : Ctl := { c with params := links ++ [(0x0E00, 0), (0x0E01, 1)] }
     let states (l : List MemberReport) : List Nat := (formStates c l).1
     let report1 := report1 c
     -- only this member; one that does not answer; one with other firmware; one behind and one late; this one behind
     states [] = [0, 4, 4, 4] ∧ states [{ report1 1 with reachable := false }] = [0, 4, 4, 4] ∧
       states [{ report1 1 with firmware := 0 :: (report1 1).firmware }, report1 2] = [1, 1, 1, 4] ∧
       states [{ report1 1 with offset := -1001 }, report1 2] = [0, 2, 0, 4] ∧
       states [{ report1 1 with groupEpoch := 7 }, report1 2] = [3, 0, 3, 4] ∧
       topEpoch c [{ report1 1 with groupEpoch := 7 }] = 7 ∧ (formStates alone []).1 = [0, 0xFF, 0xFF, 0xFF]) ∧
    (let r := req 2 [1, 0, 0, 0]
     let c := withJobs [{ running1 with index := 0x8000 }] signed0
     r.u8 0 = 1 ∧ served (plainGate 0x48 19 (r.len == 4) (r.zeros 1 3)) r c ∧ ∃ j ∈ c.jobs, j.grouped = true ∧ j.ended = false) :=
  ⟨⟨st_ready _ rfl, by decide +kernel, by decide +kernel, by decide +kernel, hv.served (by decide +kernel), _, reports_states.1, rfl, by decide⟩,
   ⟨by decide +kernel, hv.served (by decide +kernel)⟩, reports_states.2, by decide +kernel, hv.served (by decide +kernel), by decide +kernel⟩

/-- A change that waits at the front of the queue. -/
def staged1 (ch : Change) : Staged := { change := ch, grouped := false, req := some (req 0 []), at' := 0, deadline := 100 }
def journalFilled (c : Ctl) : Ctl := { c with sec := { c.sec with journal := List.replicate journalSize entry1 } }
/-- `commitsNow` decides. -/
def commitsDec (c : Ctl) (x : Staged) : Decidable (commitsNow c x) := by unfold commitsNow; exact inferInstance
def commitsB (c : Ctl) (x : Staged) : Bool := @decide _ (commitsDec c x)
theorem commitsNow_iff (c : Ctl) (x : Staged) : commitsNow c x ↔ commitsB c x = true :=
  ⟨fun h => @decide_eq_true _ (commitsDec c x) h, fun h => @of_decide_eq_true _ (commitsDec c x) h⟩
def withStaged (ch : Change) (c : Ctl) : Ctl := c.withProto fun p => { p with staged := [staged1 ch] }

theorem witness_CommitsInStagingOrder :
    (∀ ch ∈ [Change.params [(0x0D01, 50)], .protect 2 1 Sec.peer0],
      let c := withStaged ch on
      c.wq = [] ∧ c.proto.staged = [staged1 ch] ∧ commitsNow c (staged1 ch) ∧ c.timed (staged1 ch) = true ∧
        (staged1 ch).due < (after 100000001 c).clk.ns ∧ r0.accepting = false ∧
        journalSize ≤ (journalFilled on).sec.journal.length) ∧
    -- a change of the group, at the lead: the other member has said that it can commit it, or not yet; and at that member
    (let x := { staged1 (.params [(0x0D01, 50)]) with grouped := true, number := 4 }
     let c := leads (on.withProto fun p => { p with staged := [x] })
     let cm := { c with params := links ++ [(0x0E00, 1), (0x0E01, 3)] }
     commitsNow (c.withGroup fun g => { g with agreed := [(1, 4)] }) x ∧ ¬commitsNow c x ∧ c.isLead = true ∧ c.peersUp = [1] ∧
       cm.follows = true ∧ ¬commitsNow cm x ∧ commitsNow (cm.withGroup fun g => { g with go := 4 }) x) ∧
    (let ch := Change.bundleCommit 1
     let c := withStaged ch { on with store := { on.store with transfers := [{ transfer1 with digest := [], staged := true }] } }
     commitsNow c (staged1 ch) ∧ c.store.transfers.find? (fun y => y.no = 1) = some { transfer1 with digest := [], staged := true }) ∧
    (let ch := Change.bundleRemove 1
     commitsNow (withStaged ch (withBundle on)) (staged1 ch) ∧ changeReady (withStaged ch (withJobs [running1] (withBundle on))) ch = false) ∧
    (req 0 []).port = 0 ∧ on.proto.sa.getD 0 false = true := by simp only [commitsNow_iff]; decide +kernel

/-- A frame of context 0 that ended and waits to write slot 1, with a word parked. -/
def frame1 : Frame :=
  { slot := 1, tStart := 3, tEnd := 5, seq := 0, length := 1, dropped := 0, short := false, long := false, err := false, since := 0,
    parked := [(cstBase, List.replicate 32 7, 0, false)] }

/-- A CSI-2 layout, and an audio one; parameters that enable context 0. -/
def camLayout : Nat := 2 ^ 16 + 2 ^ 64 + 4 * 2 ^ 96 + (0x2B * 2 ^ 4 + 2 * 2 ^ 10 + 16 * 2 ^ 16 + 2 * 2 ^ 32) * 2 ^ 192
def tdmLayout : Nat := 3 * 2 ^ 6 + 2 ^ 16 + 2 ^ 64 + 4 * 2 ^ 96 + (3 * 2 ^ 4 + 4 * 2 ^ 20) * 2 ^ 192
def enabled (c : Ctl) : Ctl := { c with params := (0x0C00, camLayout + 1) :: links }
theorem witness_StreamPointAndDeadline :
    (let c := withStaged (.params [(0x0C00 + 63, tdmLayout + 1)]) on
     63 < 64 ∧ commitsNow c (staged1 (.params [(0x0C00 + 63, tdmLayout + 1)])) ∧ bit (tdmLayout + 1) 0 = true ∧ bit (c.param (0x0C00 + 63)) 0 = false) ∧
    (∀ v ∈ [0, camLayout, camLayout + 2],
      let c := withStaged (.params [(0x0C00, v)]) (enabled on)
      let cb := c.setIntake 0 { Intake.off with on := true, busy := true }
      commitsNow c (staged1 (.params [(0x0C00, v)])) ∧ bit v 0 = false ∧ bit (c.param 0x0C00) 0 = true ∧
        commitsNow cb (staged1 (.params [(0x0C00, v)])) ∧ (cb.intake 0).busy = true) ∧
    (bit 0 1 = false ∧ bit (camLayout + 2) 1 = true) ∧
    (let c := withStaged (.params [(0x0C00, camLayout + 2)]) (enabled on)
     let cf := c.setIntake 0 { Intake.off with on := true, ended := [frame1] }
     commitsNow cf (staged1 (.params [(0x0C00, camLayout + 2)])) ∧ (cf.intake 0).ended.map (·.slot) = [1] ∧ forcible cf 0 = true) ∧
    (let c := withStaged (.params [(0x0C00, camLayout + 2)]) on
     let cs := c.setIntake 0 { Intake.off with on := true, busy := true, stopping := true }
     commitsNow cs (staged1 (.params [(0x0C00, camLayout + 2)])) ∧ bit (cs.param 0x0C00) 0 = false ∧ forcible cs 0 = true) ∧
    (∀ v < 3, let c := withStaged (.params [(0x1001, v)]) on
      c.service.lee = false ∧ commitsNow c (staged1 (.params [(0x1001, v)]))) ∧
    (let x := staged1 (.params [(0x1001, 1)])
     r0.accepting = false ∧ on.accepting = true ∧ on.timed x = true ∧ ∀ y ∈ x :: [{ x with at' := 1 }], x.due ≤ y.due ∧ on.clk.ns < y.due ∧ x.due ≤ (after 100000000 on).clk.ns) := by
  simp only [commitsNow_iff]; decide +kernel

/-! ### Command ports, time and results -/

theorem witness_LinkEventsAndAnswers :
    let off := { on with proto := { on.proto with sa := [false, false], linkUp := [false, false] } }
    let addressed := { on with params := [(0x0D14, 0xC0A80001), (0x0D15, 0xFE80)] }
    (on.wq = [] ∧ 0 < 2 ∧ 1 < 2) ∧
    (on.portsRun = true ∧ on.proto.sa.getD 1 false = true) ∧
    (off.portsRun = true ∧ off.proto.sa.getD 1 false = false) ∧
    (on.proto.linkUp.getD 0 false ≠ false ∧ off.proto.linkUp.getD 0 false ≠ true) ∧
    on.accepting = true ∧ addressed.portsRun = true ∧
    -- an association on port 0 takes the traffic from port 1, or there was none to take
    (let c := { on with proto := { on.proto with sa := [false, true], linkUp := [false, true], active := 1 } }
     c.portsRun = true ∧ c.proto.sa.getD 0 false = false ∧ c.proto.linkUp.getD c.proto.active false = true ∧ c.proto.active ≠ 0 ∧
       c.proto.linkUp.length = 2) ∧ off.proto.linkUp.getD off.proto.active false = false := by decide +kernel

theorem witness_LinkEventsAndAnswers_addresses :
    let c := { on with params := [(0x0D13, 2 ^ 38 + 0xC0A80001), (0x0D14, 2 ^ 136 + 0xFE80)] }
    c.portsRun = true ∧ c.proto.sa.getD 0 false = true ∧ ownV4 c 1 = some 0xC0A80001 ∧ ownV6 c 0 = some 0xFE80 := by decide +kernel

theorem witness_DeviceTimeFollowsSync :
    let sync (n : Nat) (u : Bool) : Ctl := { on with proto := { on.proto with sync := n, unsync := u } }
    (on.wq = [] ∧ on.portOpen 0 = true ∧ on.param 0x0D05 ≠ 7 ∧ 0 = on.proto.slavePort ∧ on.proto.linkUp.getD 0 false = true ∧ on.proto.sync = 0) ∧
    ((sync 2 false).proto.sync ≠ 0 ∧ (sync 2 false).portOpen 0 = true ∧ (sync 2 false).proto.sync = 2) ∧ (1 ≠ on.proto.slavePort ∧ 1 < 2) ∧
    ((sync 3 false).proto.sync = 3 ∧ (sync 3 false).proto.unsync = false ∧ on.clk.ns < (sync 3 false).proto.holdAt + 1000000000 ∧
      (after 1000000000 (sync 3 false)).proto.holdAt + 1000000000 ≤ (after 1000000000 (sync 3 false)).clk.ns) := by decide +kernel

/-- A result that waits: handle 0, whose slots are released. -/
def reply1 : Reply :=
  { job := 1, code := 5, handles := [0], release := true, run := run1, writers := [], waitSince := 0, frozen := false }
theorem witness_ResultsAreSent :
    let c := setAll setFull (hostH.slotKeys 0) ((withHost on).withProto fun p => { p with replies := [reply1] })
    let j := { job1 with handles := [(0, hostH)] }
    let ok (q : Reply) : Bool := !q.frozen && match c.job? q.job with | some k => !k.ended && replyReady c k q | none => false
    let barred := { c with sec := { c.sec with policy := [policyEntry 3, [0, 0, 0, 1, 3]] } }
    c.wq = [] ∧ c.job? reply1.job = some j ∧ c.proto.replies.find? ok = some reply1 ∧ reply1.release = true ∧ 0 ∈ reply1.handles ∧
      j.handle? 0 = some hostH ∧ c.resultOut j.bundle = true ∧ c.proto.sa.getD c.proto.active false = true ∧
      barred.resultOut j.bundle = false := by decide +kernel

/-! ### The Plane -/

/-- Records with every handle of the header unused: OP_END, OP_NOP, and OP_WAIT_FULL, OP_SIGNAL and OP_REPLY of handle 0. -/
def unused : Nat := (2 ^ 104 - 1) * 2 ^ 128
def replyRecord : Nat := unused + 4 + (0xFFFFFF00 + 5 * 2 ^ 32) * 2 ^ 256
/-- A run of a job on the Plane. -/
def onPlane (j : Job) (c : Ctl) : Ctl :=
  { c with jobs := [j], plane := { c.plane with holder := some j.no, last := some j.no } }
/-- A job that runs the command `r`, in a class. -/
def runs (cls r : Nat) : Job := { job1 with cls := cls, cmds := [r, unused], handles := [(0, hostH)], running := some run1 }
def rival (cls : Nat) : Job := { job1 with no := 2, cls := cls, running := some run1 }

/-- OP_MATMUL with K 32, N 1, M 1, handle 0 for every operand, 16 steps of one group. -/
def matmul : Nat := (2 ^ 104 - 2 ^ 72) * 2 ^ 128 + 31 * 2 ^ 48 + 0x10
def matmulJob (e : Exec) : Job := { runs 1 matmul with exec := e }
def inPass (s g : Nat) : Exec := { Exec.start with phase := 1, step := s, grp := g, incomplete := [0] }

theorem witness_DispatchAndPreemption :
    (let c := withJobs [runs 1 unused, rival 0] on
     let cp := onPlane (runs 1 unused) on
     let two (a b : Nat) := { onPlane (runs a unused) on with jobs := [runs a unused, rival b] }
     c.wq = [] ∧ c.plane.switch = none ∧ c.tilesServe = true ∧ c.bestReady none = some (rival 0) ∧ c.holding = none ∧ c.plane.last = none ∧
       (two 1 0).bestReady none = some (rival 0) ∧ (two 1 0).holding = some (runs 1 unused) ∧ (rival 0).cls < (runs 1 unused).cls ∧
       cp.holding = some (runs 1 unused) ∧ cp.bestReady none = some (runs 1 unused) ∧
       (let free := { two 1 0 with plane := { on.plane with last := some 1 } }
        free.holding = none ∧ free.plane.last = some 1 ∧ free.bestReady none = some (rival 0) ∧ 1 ≠ (rival 0).no)) ∧
    (let h := { runs 2 unused with quantumUsed := 10 ^ 12 }
     let c := { onPlane h on with jobs := [h, rival 2] }
     c.holding = some h ∧ h.cls ≠ 0 ∧ quantum c h.cls ≤ h.quantumUsed ∧ ∃ k ∈ c.readyJobs, k.cls = h.cls ∧ k.no ≠ h.no) ∧
    (let stop (j : Job) : Ctl := (onPlane j on).withPlane fun p => { p with stopReq := true }
     let a := runs 1 unused
     let b := matmulJob (inPass 1 0)
     (stop a).holding = some a ∧ (stop a).plane.stopReq = true ∧ a.cls ≠ 0 ∧ stopAt (stop a) a = .clean ∧
       (stop b).holding = some b ∧ stopAt (stop b) b = .inside) ∧
    (let j := runs 1 unused
     let c := (withJobs [j] on).withPlane fun p => { p with switch := some { job := 1 } }
     c.plane.switch = some { job := 1 } ∧ c.job? 1 = some j ∧ j.running.isSome = true ∧ j.ended = false) ∧
    (let j := matmulJob { inPass 1 0 with savedState := 1 }
     (onPlane j on).holding = some j ∧ j.exec.savedState = 1 ∧ j.exec.phase = 1 ∧ (onPlane j on).plane.drain = none ∧
       (onPlane j on).plane.copying = none) ∧
    (let j := { runs 1 unused with abortReq := some (req 0 []) }
     (onPlane j on).holding = some j ∧ j.abortReq = some (req 0 []) ∧ j.exec.phase = 0 ∧ j.exec.incomplete = [] ∧
       (onPlane j on).plane.waitFull = none) := by decide +kernel

theorem witness_ControlCommandsTakeEffect :
    let rs := [unused + 1, unused + 2, unused + 3, replyRecord, unused]
    let at' (n m : Nat) : Job := { runs 1 unused with cmds := rs, exec := { Exec.start with pc := n }, mode := m }
    let c (j : Job) : Ctl := onPlane j on
    let full := setAll setFull (hostH.slotKeys 0) (c (at' 1 1))
    (∀ n < 5, (c (at' n 1)).wq = [] ∧ (c (at' n 1)).holding = some (at' n 1) ∧ (at' n 1).exec.incomplete = [] ∧
      rRelA ((at' n 1).cmd n) = false ∧ rRelAux ((at' n 1).cmd n) = false ∧ rSignalDone ((at' n 1).cmd n) = false) ∧
    mayBegin (c (at' 0 1)) (at' 0 1) 0x01 = true ∧
    (mayBegin (c (at' 1 1)) (at' 1 1) 0x02 = true ∧ (at' 1 1).handle? 0 = some hostH ∧ (c (at' 1 1)).handleFull hostH 0 = false ∧
      mayBegin full (at' 1 1) 0x02 = true ∧ full.handleFull hostH 0 = true) ∧
    mayBegin (c (at' 2 1)) (at' 2 1) 0x03 = true ∧
    (mayBegin (c (at' 3 1)) (at' 3 1) 0x04 = true ∧ (at' 3 1).running = some run1) ∧
    (mayBegin (c (at' 4 1)) (at' 4 1) 0x00 = true ∧ (at' 4 1).mode ≠ 0 ∧ (at' 4 1).endReq = none ∧ (at' 4 1).endAtRun = 0 ∧
      mayBegin (c (at' 4 0)) (at' 4 0) 0x00 = true ∧ (at' 4 0).mode = 0) := by decide +kernel

/-- Every command of the table may begin on an idle Plane. -/
theorem witness_ComputeCommandsBegin :
    ∀ p ∈ computeCommands, let j := runs 1 (unused + p.1)
      (onPlane j on).wq = [] ∧ (onPlane j on).holding = some j ∧ mayBegin (onPlane j on) j p.1 = true ∧ mayBegin (onPlane j on) j 0 = false := by
  decide +kernel

theorem witness_PassesGoOn :
    let full (c : Ctl) : Ctl := setAll setFull (hostH.slotKeys 0 ++ hostH.slotKeys 1) c
    let at' (s g : Nat) : Job := matmulJob (inPass s g)
    let c (s g : Nat) : Ctl := full (onPlane (at' s g) on)
    ((c 0 0).wq = [] ∧ (c 0 0).holding = some (at' 0 0) ∧ (at' 0 0).kind = .array ∧ (c 0 0).plane.holds = 0 ∧ (c 0 0).plane.heldFaults = [] ∧
      (at' 0 0).exec.cut = none ∧ (c 0 0).plane.copying = none ∧ 0 < rSteps (at' 0 0).now ∧ 0 < rStepGroups (at' 0 0).now 0 ∧
      (c 0 0).stopsHere (at' 0 0) = false ∧ (match loadTable mem0 (c 0 0) (at' 0 0) matmul with | .ready k _ => k == [] | _ => false) = true ∧
      (let q := (allGroups mem0 (c 0 0) (at' 0 0) matmul (inPass 0 0)).run Port.empty
       q.2.outside = none ∧ q.2.wait = false ∧ q.2.faults = [])) ∧
    ((c 15 1).holding = some (at' 15 1) ∧ 15 < rSteps (at' 15 1).now ∧ rStepGroups (at' 15 1).now 15 ≤ 1 ∧ (c 15 1).plane.holds = 0) ∧
    (let drain : Drain := { job := 1, idx := 0, pass := 0, vals := [], toSave := false, table := [], paid := [], filled := [], rows := 0, undo := [] }
     let busy := (c 16 0).withPlane fun p => { p with drain := some drain }
     (c 16 0).holding = some (at' 16 0) ∧ rSteps (at' 16 0).now ≤ 16 ∧ (c 16 0).plane.drain = none ∧ (at' 16 0).exec.savedState ≠ 1 ∧
       rPasses (at' 16 0).now ≤ 0 + 1 ∧ busy.holding = some (at' 16 0) ∧ busy.plane.drain.isSome = true) ∧
    (let f : HeldFault := { tile := 2, weight := false, handle := 0, offset := 0, status := KS.packFormat.code, pair := 1 }
     let g := { f with tile := 3 }
     let c := (c 0 0).withPlane fun p => { p with heldFaults := [f, g, { f with tile := 0, pair := 2 }] }
     c.holding = some (at' 0 0) ∧ f ∈ c.plane.heldFaults ∧ (∀ g ∈ c.plane.heldFaults, g ≠ f → f.pair < g.pair ∨ (f.pair = g.pair ∧ f.tile < g.tile)) ∧
       c.stopsHere (at' 0 0) = false ∧ f.status ∈ [KS.packOverrun.code, KS.packPadding.code, KS.packFormat.code] ∧
       c.proto.sa.getD c.proto.active false = true) := by decide +kernel


/-- OP_MATMUL with its outputs in binary32 through handle 1, which is in the same tiles behind handle 0. -/
def outH : Handle := { hostH with producer := 0, base := 128, tagBase := 2, slotCount := 1 }
def matmulOut : Nat := (2 ^ 104 - 2 ^ 56 + 2 ^ 48) * 2 ^ 128 + 31 * 2 ^ 48 + 5 * 2 ^ 32 + 0x10
def drain1 (idx : Nat) (filled : List Nat) : Drain :=
  { job := 1, idx := idx, pass := 0, vals := [(0, 0x3F800000)], toSave := false, table := [], paid := [], filled := filled, rows := 0, undo := [] }
def drainJob (e : Exec) : Job := { runs 1 matmulOut with exec := e, handles := [(0, hostH), (1, outH)] }
def draining (j : Job) (d : Drain) : Ctl := (onPlane j on).withPlane fun p => { p with drain := some d }
/-- OP_SCATTER of one binary32 row of handle 0, by the index that handle 0 holds, into handle 1; and OP_MATMUL with handle 1 as its
save area. -/
def scatter : Nat := (2 ^ 104 - 1 - 0xFF - 0xFE * 2 ^ 48) * 2 ^ 128 + 31 * 2 ^ 48 + 5 * 2 ^ 32 + 5 * 2 ^ 24 + 0x49 + 2 ^ 256
def matmulSave : Nat := matmulOut - 0xFE * 2 ^ 192
def vectorJob (r : Nat) : Job := { drainJob { Exec.start with phase := 2, incomplete := [0] } with cmds := [r, unused] }

/-- The write goes on; it waits; it goes on and another after it. -/
def goesOn {ε α : Type} : Except ε α → Bool | .ok _ => true | .error _ => false
def waitsOn {α : Type} : Except DrainStop α → Bool | .error (.drainWait _) => true | _ => false
def thenOn {ε α β : Type} (f : Mem → Ctl → Except ε β) : Except ε (Mem × Ctl × α) → Bool | .ok (m, c, _) => goesOn (f m c) | .error _ => false
theorem put_on {ε : Type} {x : Except ε (Mem × Ctl × List Wr)} (h : goesOn x = true) : ∃ m c w, x = .ok (m, c, w) := by
  cases x with
  | ok a => exact ⟨a.1, a.2.1, a.2.2, rfl⟩
  | error e => cases h
theorem waits_on {α : Type} {x : Except DrainStop α} (h : waitsOn x = true) : ∃ on, x = .error (.drainWait on) := by
  unfold waitsOn at h
  split at h
  · exact ⟨_, rfl⟩
  · cases h
theorem put_then {ε : Type} {x : Except ε (Mem × Ctl × List Wr)} {f : Mem → Ctl → Except ε (Mem × Ctl × List Wr)}
    (h : thenOn f x = true) : ∃ m c w, x = .ok (m, c, w) ∧ ∃ m' c' w', f m c = .ok (m', c', w') := by
  cases x with
  | ok a => exact ⟨a.1, a.2.1, a.2.2, rfl, put_on h⟩
  | error e => cases h
/-- A scatter goes on and is charged nothing. -/
def scatters : Attempt (Ctl × List (Nat × Nat × Nat) × List Wr) → Bool | .ok (_, n, _) => n.all fun x => x.2 == (0, 0) | .error _ => false
theorem scatters_on {x : Attempt (Ctl × List (Nat × Nat × Nat) × List Wr)} (h : scatters x = true) :
    ∃ c n w, x = .ok (c, n, w) ∧ ∀ y ∈ n, y.2 = (0, 0) := by
  cases x with
  | ok a => exact ⟨a.1, a.2.1, a.2.2, rfl, fun y hy => by simpa using List.all_eq_true.mp h y hy⟩
  | error e => cases h
theorem ok_of {ε α : Type} {x : Except ε α} {P : α → Prop} [DecidablePred P]
    (h : (match x with | .ok a => decide (P a) | .error _ => false) = true) : ∃ a, x = .ok a ∧ P a := by
  cases x with
  | ok a => exact ⟨a, rfl, of_decide_eq_true h⟩
  | error e => cases h
/-- The reads of the rows are granted and charge nothing. -/
def grantedNow (op : Nat) (rows : List (RowAt × RowOut × Port)) : Bool :=
  rows.all fun y => (y.2.2.stop op true).isNone && y.2.2.cost == (0, 0)
theorem granted_of {op : Nat} {rows : List (RowAt × RowOut × Port)} (h : grantedNow op rows = true) :
    ∀ y ∈ rows, y.2.2.stop op true = none ∧ y.2.2.cost = (0, 0) := by
  intro y hy
  have := List.all_eq_true.mp h y hy
  simpa [Option.isNone_iff_eq_none] using this

/-- The slot of handle 1, which is next to be filled, and what the drain writes to it. -/
theorem witness_DrainsAndCompletion_slot :
    let j := drainJob (inPass 0 0)
    let d := drain1 0 []
    let c := draining j d
    let full := setAll setFull (outH.slotKeys 0) c
    let q : DoneSlot := (nextSlot j matmulOut d 0 false).getD { handle := 0, scale := false, slot := 9, keys := [], last := 0 }
    let rows (c : Ctl) := computeRows mem0 c j matmulOut d ((rowsAt matmulOut d.pass).filter fun x => (rowKeys j matmulOut x).any q.keys.contains)
    let put (c : Ctl) := putRuns j (rOp matmulOut) (fun k => match k with | some k => q.keys.contains k | none => false)
      ((rows c).flatMap fun y => y.2.1.1) true mem0 c
    (c.wq = [] ∧ c.plane.drain = some d ∧ c.job? 1 = some j ∧ j.cmds.getD 0 0 = matmulOut ∧ c.plane.copying = none ∧ j.ended = false ∧
      full.job? 1 = some j ∧ opKind (rOp matmulOut) ≠ .vector) ∧
    nextSlot j matmulOut d 5 false = none ∧ nextSlot j matmulOut d 0 false = some q ∧
    (∀ y ∈ rows c, y.2.2.stop (rOp matmulOut) true = none ∧ y.2.2.cost = (0, 0)) ∧ (∃ m c' w, put c = .ok (m, c', w)) ∧
    (∀ y ∈ rows full, y.2.2.stop (rOp matmulOut) true = none ∧ y.2.2.cost = (0, 0)) ∧ ∃ on, put full = .error (.drainWait on) := by
  refine ⟨by decide +kernel, by decide +kernel, by decide +kernel, granted_of (by decide +kernel), put_on (by decide +kernel),
    granted_of (by decide +kernel), waits_on (by decide +kernel)⟩

theorem witness_DrainsAndCompletion_ends :
    let j := drainJob (inPass 0 0)
    let d := drain1 0 []
    let c := draining j d
    let js := vectorJob matmulSave
    let ds := { d with toSave := true }
    let cs := draining js ds
    let jv := vectorJob scatter
    let cv := setAll setFull (hostH.slotKeys 0) (draining jv d)
    let rows := computeRows mem0 c j matmulOut d
      ((rowsAt matmulOut d.pass).filter fun x => spansOf matmulOut x = [] || !(rowKeys j matmulOut x).all d.filled.contains)
    let qs := splitTagged matmulOut (rows.flatMap fun y => y.2.1.1)
    (∀ h, c.holding = some h → h.exec.cut = none) ∧ d.toSave = false ∧ rOp matmulOut ≠ 0x49 ∧
    (∀ y ∈ rows, y.2.2.stop (rOp matmulOut) true = none ∧ y.2.2.cost = (0, 0)) ∧
    (∃ m c' w, putRuns j (rOp matmulOut) (fun k => match k with | some k => !d.filled.contains k | none => true) qs.1 true mem0 c
      = .ok (m, c', w) ∧ ∃ m' c'' w', putRuns j (rOp matmulOut) (fun _ => true) qs.2 false m c' = .ok (m', c'', w')) ∧
    (cs.plane.drain = some ds ∧ cs.job? 1 = some js ∧ ds.toSave = true ∧
      ∃ m c' w, putRuns js (rOp matmulSave) (fun _ => true) (saveRuns matmulSave ds.pass ds.vals) false mem0 cs = .ok (m, c', w)) ∧
    (cv.plane.drain = some d ∧ cv.job? 1 = some jv ∧ rOp scatter = 0x49 ∧
      (match loadTable mem0 cv jv scatter with | .ready k _ => k == [] | _ => false) = true ∧
      (∃ c' need w, scatterRows jv scatter d ((rowsAt scatter 0).drop d.rows) [] [] mem0 cv cv = .ok (c', need, w) ∧
        ∀ x ∈ need, x.2 = (0, 0))) ∧
    (∃ l, scatterTouch mem0 cv jv scatter d = .ok l ∧ scatterSlots jv scatter d.filled l ≠ []) := by
  refine ⟨?_, by decide +kernel, by decide +kernel, granted_of (by decide +kernel), put_then (by decide +kernel),
    ⟨by decide +kernel, by decide +kernel, rfl, put_on (by decide +kernel)⟩,
    ⟨by decide +kernel, by decide +kernel, by decide +kernel, by decide +kernel, scatters_on (by decide +kernel)⟩,
    ok_of (by decide +kernel)⟩
  intro h hh
  have : (draining (drainJob (inPass 0 0)) (drain1 0 [])).holding = some (drainJob (inPass 0 0)) := by decide +kernel
  rw [this] at hh; cases hh; rfl

/-- A slot of OP_SCATTER: the one that is next, and one that is not. -/
theorem witness_DrainsAndCompletion_scatter :
    let jv := vectorJob scatter
    let d := drain1 0 []
    let c := setAll setFull (hostH.slotKeys 0) (draining jv d)
    let next (l : List (List (Nat × Nat))) (slot : Nat) : Option DoneSlot :=
      pickSlot (scatterSlots jv scatter d.filled l) (scatterHeld l (scatterSlots jv scatter d.filled l)) (rHandle scatter 6) slot false
    d.toSave = false ∧ rOp scatter = 0x49 ∧
    (∃ l, scatterTouch mem0 c jv scatter d = .ok l ∧ ((next l 5 = none ∧ (next l 0).isSome = true) ∧
      ∀ q ∈ (next l 0).toList, scatters (scatterRows jv scatter d (((rowsAt scatter 0).take (max d.rows (q.last + 1))).drop d.rows)
        [] [] mem0 c c) = true)) := by
  exact ⟨rfl, by decide +kernel, ok_of (by decide +kernel)⟩

theorem witness_DrainsAndCompletion_done :
    (∀ p ∈ [(0, 2), (1, 0)],
      let j := drainJob { Exec.start with pc := p.1, phase := p.2, incomplete := [0] }
      let c := onPlane j on
      c.wq = [] ∧ (c.holding.toList ++ c.jobs).find? (mayComplete c 0) = some j ∧ c.job? 1 = some j ∧
        (c.holding.toList ++ c.jobs).find? (mayComplete c 1) = none) ∧
    (let r := matmulOut + 2 ^ 12 - 0xFF * 2 ^ 224
     let j := vectorJob r
     let c := onPlane j on
     (c.holding.toList ++ c.jobs).find? (mayComplete c 0) = some j ∧ c.job? 1 = some j ∧ rSignalDone (j.cmd 0) = true ∧
       j.handle? (rHandle (j.cmd 0) 12) = some hostH) ∧
    (let r := matmulOut + 2 ^ 10
     let j := { vectorJob r with exec := { Exec.start with phase := 2, incomplete := [0], readSlots := [(0, 0, 1)] } }
     let c := onPlane j on
     (c.holding.toList ++ c.jobs).find? (mayComplete c 0) = some j ∧ rSignalDone (j.cmd 0) = false ∧ rRelA (j.cmd 0) = true ∧
       rHandle (j.cmd 0) 0 = 0 ∧ j.handle? 0 = some hostH ∧ (0, 0, 1) ∈ j.exec.readSlots) := by
  decide +kernel

/-! ### Waits, holds and write-backs -/

/-- A link of slots of handle 0 from member 0 to member 1, whose port is up. -/
def linked (h : Handle) (c : Ctl) : Ctl :=
  let c := inGroup c
  let j := { job1 with cls := 1, index := 0x8000, running := some run1, handles := [(0, h)], links := [2 ^ 8] }
  let c := setAll setFull (h.slotKeys 0) { c with jobs := [j], params := c.params ++ [(0x0E04, 5)] }
  c.setPort 0 { c.port 0 with up := true, idle := false }
def streamRec : Nat := 2 ^ 96 + 0xFF * 2 ^ 40
def page1 : Page := { va := 0, big := false, flash := false, resident := true, write := true, pin := false, frame := 0x10000, flashAddr := 0 }
def streamJob (r : Nat) : Job := { runs 1 (unused + 1) with streams := [r], pages := [page1], handles := [(0, hostH), (1, outH)] }
def ctx1 (r fetched : Nat) (b : Option Nat) : Ctx :=
  { tile := 15, ctx := 15, job := 1, pos := StreamPos.start 0 r, refetch := [], fetched := fetched, blocked := b, kept := [] }
def streaming (r fetched : Nat) (b : Option Nat) : Ctl := { onPlane (streamJob r) on with ctxs := [ctx1 r fetched b] }

theorem witness_BlockedAccessesAreGranted :
    (let j := matmulJob (inPass 0 0)
     let c := (setAll setFull (hostH.slotKeys 0) (onPlane j on)).withPlane fun p => { p with operandWait := some 0 }
     c.wq = [] ∧ c.holding = some j ∧ operandWait mem0 c j = some ([], false) ∧ c.plane.copying = none) ∧
    (let j := drainJob (inPass 0 0)
     let c := (draining j (drain1 0 [])).withPlane fun p => { p with drainWait := some 0 }
     drainWait mem0 c = some (j, drain1 0 [], []) ∧ c.plane.copying = none) ∧
    (let j := { runs 1 (unused + 2) with exec := { Exec.start with phase := 1, incomplete := [0] } }
     let c := (setAll setFull (hostH.slotKeys 0) (onPlane j on)).withPlane fun p => { p with waitFull := some 0 }
     c.holding = some j ∧ c.plane.waitFull.isSome = true ∧ j.exec.incomplete = [j.exec.pc] ∧
       j.handle? (bits (rWord1 j.now) 7 0) = some hostH ∧ c.handleFull hostH (bits (rWord1 j.now) 47 16) = true) ∧
    (let x := ctx1 streamRec 1 (some 0)
     let c := streaming streamRec 1 (some 0)
     c.ctxs.find? (fun y => y.tile = 15 && y.ctx = 15 && y.blocked.isSome) = some x ∧ c.job? x.job = some (streamJob streamRec) ∧
       streamWait mem0 c (streamJob streamRec) x = []) ∧
    (let c := on.setIntake 0 { Intake.off with on := true, ended := [frame1] }
     (c.intake 0).ended = [frame1] ∧ (landKeys (c.cfg 0) 1).any c.slotFull = false) ∧
    (let c := on.setIntake 0 { Intake.off with on := true, busy := true, blocked := some 0 }
     (c.intake 0).ended = [] ∧ (c.intake 0).blocked.isSome = true ∧ (landKeys (c.cfg 0) (c.intake 0).next).any c.slotFull = false) ∧
    (let c := ({ on with params := (0x0C00, camLayout + 1) :: links }).setIntake 0
       { Intake.off with on := true, busy := true, blocked := some 0, parked := [(tileBase 3, [7], 0, false)] }
     let cf := setAll setFull (landKeys (c.cfg 0) 0) c
     (cf.intake 0).ended = [] ∧ (cf.intake 0).blocked.isSome = true ∧
       writeHeld (cf.cfg 0) (cf.intake 0).next (tileBase 3) cf = true) ∧
    (let c := linked hostH on
     let c := c.setPort 0 { c.port 0 with waits := [((1, 0, 0, 0), 0), ((1, 0, 1, 0), 0)] }
     0 < 4 ∧ ((c.port 0).waits.filter fun w => (sendable c 0).any fun k => !k.2 && k.1 == w.1) = [((1, 0, 0, 0), 0)]) := by
  refine ⟨?_, ?_, ?_, ?_, ?_, ?_, ?_, ?_⟩ <;> decide +kernel

/-- OP_GATHER of binary32 rows through handle 2, whose one page is in flash, by the indices of handle 0 into handle 1. -/
def gather : Nat := (2 ^ 104 - 1 - 0xFF + 2 - 0xFE * 2 ^ 48) * 2 ^ 128 + 31 * 2 ^ 48 + 5 * 2 ^ 32 + 5 * 2 ^ 24 + 0x48 + 2 ^ 256
def tableH : Handle := { hostH with place := 2, producer := 0, slotBytes := 0x10000, slotCount := 1 }
def flashPage : Page := { page1 with flash := true, resident := false, write := false, flashAddr := flashBase }
def gatherJob : Job :=
  { runs 1 gather with
    pages := [flashPage], handles := [(0, hostH), (1, outH), (2, tableH)], exec := { Exec.start with phase := 1, incomplete := [0] } }
/-- What a stream halted on a page has: its slots are those of handle 0. -/
def haltedCtx (x : Ctx) : Ctx := { x with pos := { x.pos with halted := true } }


/-- A wait that one stream of the job, halted on a page, would end. -/
def halted1 (c : Ctl) : Ctl :=
  { c with
    jobs := c.jobs.map fun j => { j with streams := [streamRec + 2 ^ 25] }
    ctxs := [haltedCtx { ctx1 (streamRec + 2 ^ 25) 1 none with pos := StreamPos.start 0 (streamRec + 2 ^ 25) }] }
def madeHere (h : Handle) : Handle := { h with producer := 0 }

/-- A second after the waits of a control domain began. -/
def late (c : Ctl) : Ctl := after 1000000000 c
theorem witness_StallLimitsFreeze_plane :
    (let j (h : Handle) : Job := { matmulJob (inPass 0 0) with handles := [(0, h)] }
     let c (h : Handle) : Ctl := (onPlane (j h) on).withPlane fun p => { p with operandWait := some 0 }
     let on (h : Handle) := (List.range 16).map fun t => (0, h.slotKey t 0)
     let due (c : Ctl) (h : Handle) := overdue c (stallUs c (j h) true (on h)) c.plane.operandWait
     (∀ h ∈ [hostH, madeHere hostH], (c h).wq = [] ∧ (c h).holding = some (j h) ∧ operandWait mem0 (c h) (j h) = some ((on h).take 1, false) ∧
       onHalted mem0 (c h) (j h) ((on h).take 1) = false ∧ due (c h) h = false ∧ due (late (c h)) h = true) ∧
     mutualWait mem0 (c hostH) (j hostH) = false ∧ mutualWait mem0 (c (madeHere hostH)) (j (madeHere hostH)) = true ∧
     (let j := { j hostH with streams := [streamRec + 2 ^ 25] }
      let c := halted1 (c hostH)
      c.holding = some j ∧ onHalted mem0 c j [(0, hostH.slotKey 15 0)] = true)) ∧
    (let c := (withBundle (setAll setFull (hostH.slotKeys 0) (draining gatherJob (drain1 0 [])))).withPlane fun p => { p with operandWait := some 0 }
     c.holding = some gatherJob ∧ operandWait mem0 c gatherJob = some ([], true)) ∧
    (let j (h : Handle) : Job := { drainJob { Exec.start with phase := 2, incomplete := [0] } with handles := [(0, hostH), (1, h)] }
     let c (h : Handle) : Ctl := (setAll setFull (outH.slotKeys 0) (draining (j h) (drain1 0 []))).withPlane fun p => { p with drainWait := some 0 }
     let on : List (Nat × Nat) := [(1, outH.slotKey 0 0)]
     (∀ h ∈ [outH, { outH with producer := 2 }], drainWait mem0 (c h) = some (j h, drain1 0 [], on) ∧ (j h).ended = false ∧
       onHalted mem0 (c h) (j h) on = false ∧ overdue (late (c h)) (stallUs (late (c h)) (j h) (on.all fun w => !(c h).slotFull w.2) on)
         (c h).plane.drainWait = true) ∧
     mutualWait mem0 (c outH) (j outH) = true ∧ mutualWait mem0 (c { outH with producer := 2 }) (j { outH with producer := 2 }) = false) ∧
    (let j (h : Handle) : Job := { runs 1 (unused + 2) with handles := [(0, h)], exec := { Exec.start with phase := 1, incomplete := [0] } }
     let c (h : Handle) : Ctl := (onPlane (j h) on).withPlane fun p => { p with waitFull := some 0 }
     (∀ h ∈ [hostH, madeHere hostH], (c h).holding = some (j h) ∧ (c h).plane.waitFull.isSome = true ∧ fullWait (c h) (j h) ≠ [] ∧
       onHalted mem0 (c h) (j h) (fullWait (c h) (j h)) = false ∧
       overdue (late (c h)) (stallUs (late (c h)) (j h) true (fullWait (c h) (j h))) (c h).plane.waitFull = true) ∧
     mutualWait mem0 (c hostH) (j hostH) = false ∧ mutualWait mem0 (c (madeHere hostH)) (j (madeHere hostH)) = true) := by
  refine ⟨⟨?_, ?_, ?_, ?_⟩, ?_, ⟨?_, ?_, ?_⟩, ⟨?_, ?_, ?_⟩⟩ <;> decide +kernel

theorem witness_StallLimitsFreeze_copy :
    let c := on.withPlane fun p => { p with copying := some 3 }
    copySuspends c .operand = true ∧ copySuspends c (.stream 3 0) = true ∧ copySuspends c (.stream 4 0) = false ∧
      on.plane.copying = none := by decide

theorem witness_StallLimitsFreeze_others :
    (let x := ctx1 streamRec 1 (some 0)
     let c := setFull (hostH.slotKey 15 0) (streaming streamRec 1 (some 0))
     let on := streamWait mem0 c (streamJob streamRec) x
     c.wq = [] ∧ c.ctxs.find? (fun y => y.tile = 15 && y.ctx = 15 && y.blocked.isSome && c.plane.holder == some y.job) = some x ∧
       c.job? x.job = some (streamJob streamRec) ∧ (streamJob streamRec).ended = false ∧ on ≠ [] ∧
       onHalted mem0 c (streamJob streamRec) on = false ∧ mutualWait mem0 c (streamJob streamRec) = false ∧
       overdue (late c) (stallUs (late c) (streamJob streamRec) (on.all fun w => !c.slotFull w.2) on) x.blocked = true) ∧
    (let c := (withHost on).withProto fun p => { p with replies := [reply1] }
     c.proto.replies.find? (fun rp => !rp.frozen && replyLate c rp) = none ∧
       (late c).proto.replies.find? (fun rp => !rp.frozen && replyLate (late c) rp) = some reply1) ∧
    (let c := on.setIntake 0 { Intake.off with on := true, busy := true, blocked := some 0, ended := [frame1] }
     overdue c (c.param 0x0800) (c.intake 0).waitSince = false ∧ overdue (late c) ((late c).param 0x0800) (c.intake 0).waitSince = true ∧
       (c.intake 0).busy = true ∧ (c.intake 0).ended = [frame1]) ∧
    (let c := linked hostH on
     let c := late (c.setPort 0 { c.port 0 with waits := [((1, 0, 0, 0), 0)] })
     let j := { job1 with cls := 1, index := 0x8000, running := some run1, handles := [(0, hostH)], links := [2 ^ 8] }
     0 < 4 ∧ (c.port 0).waits.find? (fun w => (sendable c 0).any (fun k => !k.2 && k.1 == w.1) && overdue c (c.param 0x0800) (some w.2))
       = some ((1, 0, 0, 0), 0) ∧ c.job? 1 = some j ∧ j.running.isSome = true ∧ j.ended = false ∧ 0 < c.group.ports.length) := by
  refine ⟨?_, ?_, ?_, ?_⟩ <;> decide +kernel

theorem witness_HoldsAndAlarmWindows :
    let held := on.withPlane fun p => { p with holds := 1, windowSignals := 100 }
    on.wq = [] ∧ on.plane.holds = 0 ∧ 0 < held.plane.holds ∧ on.plane.windowSignals < 100 ∧ 100 ≤ held.plane.windowSignals := by decide

def flagged : Ctl := on.withStore fun p => { p with writeBacks := [cstBase / 32, 0] }
theorem witness_WriteBacksAndScrubbers :
    let w := cstBase / 32
    flagged.wq = [] ∧ (w ∈ flagged.store.writeBacks ∧ (mem0.readWord w).data.length = 32 ∧ legalTag (mem0.readWord w).tag ∧
      (storeOf (32 * w)).isSome = true) ∧
    (0 ∈ flagged.store.writeBacks ∧ (mem0.readWord 0).data.length = 32 ∧ legalTag (mem0.readWord 0).tag ∧
      flagged.hbmOn = true ∧ regionOf (32 * 0) = .hbm) ∧
    (let queued (c : Ctl) : Bool :=
       (c.withStore fun x => { x with writeBacks := [] }).requestQueued fun p => p.1 == (hbmPlace (32 * 0)).1
     let page : PageIn := { flashAddr := flashBase, big := false, cls := 1, order := 0, asked := 0, frame := some 0 }
     queued flagged = false ∧ queued (flagged.withStore fun p => { p with pageIns := [page] }) = true) ∧
    (let c := on.withPlane fun p => { p with copying := some 3 }
     c.plane.copying = some 3 ∧ c.plane.copying ≠ some 4) ∧
    (16 < 17 ∧ 15 < 16 ∧ on.storesRun = true ∧ (on.physical 15).isSome = true) ∧ on.hbmOn = true := by
  intro w; refine ⟨?_, ⟨?_, ?_, ⟨?_, ?_⟩, ?_⟩, ⟨?_, ?_, ⟨?_, ?_⟩, ?_⟩, ?_, ?_, ?_⟩ <;> revert w <;> decide +kernel

/-! ### Stream engines -/

/-- Block-list streams of slots of handle 0 in tile 15 from and to page 0: the one entry of the list is one word. -/
def storeRec : Nat := streamRec + 2 ^ 23
def xfer1 : Xfer :=
  { tile := 15, tag := 64, ctx := 15, job := 1, record := 0, src := 0x10000, dst := tileBase 15, words := 2, slot := 0, visit := 0,
    hbm := true, listRead := false, issued := 0 }
def engaged (r : Nat) : Ctl := setAll (if tStore r then setFull else setEmpty) (hostH.slotKeys 0) (streaming r 1 none)
def oneWord : Piece := { mem := 0, words := 1, slotWord := 0, halo := false, endSlot := false, bad := false }

theorem witness_StreamEnginesMoveWords :
    ∀ r ∈ [streamRec, storeRec],
      let j := streamJob r
      let x := ctx1 r 1 none
      let c := engaged r
      (c.wq = [] ∧ c.plane.holder.bind c.job? = some j ∧ j.cls < 3) ∧
      (let x := ctx1 r 0 none
       let c := { c with ctxs := [x] }
       let failed := c.withStore fun p => { p with failed := List.range 64 }
       c.plane.holder.bind c.job? = some j ∧ (c.engine 15).find? (fun y => y.ctx = 15) = some x ∧ c.job? x.job = some j ∧
         tStrided (j.stream x.pos.record) = false ∧ x.pos.halted = false ∧ x.fetched < tBlocks (j.stream x.pos.record) ∧
         c.xfers.any (fun y => y.tile = 15 && y.ctx = 15 && y.listRead) = false ∧ freeTag c j.cls x = some 64 ∧
         j.page? (tDesc (j.stream x.pos.record) + 16 * x.fetched) = some page1 ∧
         hbmRoom c 15 j.cls (max (16 * min 128 (tBlocks (j.stream x.pos.record) - x.fetched)) 512) = true ∧
         c.hbmFailed 0x10000 1 = false ∧ failed.hbmFailed 0x10000 1 = true ∧ j.ended = false) ∧
      (let c₁ := openWaiting 15 mem0 (unhalt mem0 c)
       c₁.plane.holder.bind c₁.job? = some j ∧ c₁.engine 15 = [x] ∧ ready mem0 c₁ j x = .yes oneWord 64 ∧
         j.handle? (tSlotHandle (j.stream x.pos.record)) = some hostH ∧
         memSide c₁ j x oneWord = .ok (some 0x10000) ∧ hostH.write = true ∧ tSpace (j.stream x.pos.record) = false ∧
         c₁.hbmFailed 0x10000 1 = false ∧ regionOf (hostH.addr 15 (x.pos.slot * 64)) = .tile 15 ∧ regionOf 0x10000 = .hbm ∧ x.refetch = []) := by
  decide +kernel

/-- A halo block that is issued again. -/
theorem witness_StreamEnginesMoveWords_refetch :
    let x := { ctx1 streamRec 1 none with refetch := [0] }
    let c := { engaged streamRec with ctxs := [x] }
    let c₁ := openWaiting 15 mem0 (unhalt mem0 c)
    c₁.engine 15 = [x] ∧ (match ready mem0 c₁ (streamJob streamRec) x with | .yes _ _ => true | _ => false) = true := by decide +kernel

/-- A transfer that reads an entry of the block list. -/
def listXfer : Xfer := { xfer1 with listRead := true, words := 1, slot := 1, dst := 0 }
theorem witness_StreamEnginesMoveWords_delivered :
    let c := { engaged streamRec with xfers := [xfer1] }
    let cl := { engaged streamRec with xfers := [listXfer] }
    let two := { engaged streamRec with xfers := [xfer1, { xfer1 with tag := 65 }] }
    c.xfers.find? (fun y => y.tile = 15 && y.tag = 64) = some xfer1 ∧ c.job? xfer1.job = some (streamJob streamRec) ∧
      xfer1.listRead = false ∧ c.deliverable xfer1 = true ∧ servedLater c xfer1 = false ∧
      (cl.xfers.find? (fun y => y.tile = 15 && y.tag = 64) = some listXfer ∧ cl.deliverable listXfer = true ∧ servedLater cl listXfer = false) ∧
      two.xfers.find? (fun y => y.tile = 15 && y.tag = 65) = some { xfer1 with tag := 65 } ∧ two.deliverable { xfer1 with tag := 65 } = false := by
  decide +kernel

theorem witness_WriteToFlashPageFaults :
    ∀ p ∈ [flashPage, { page1 with write := false }],
      let j := { streamJob storeRec with pages := [p] }
      let x := ctx1 storeRec 1 none
      let s : State := st { engaged storeRec with jobs := [j] }
      let c := openWaiting x.tile s.mem (unhalt s.mem s.ctl)
      s.ctl.wq = [] ∧ c.plane.holder.bind c.job? = some j ∧ j.ended = false ∧ c.engine x.tile = [x] ∧ x.job = j.no ∧
        ready mem0 c j x = .yes oneWord 64 ∧ j.handle? (tSlotHandle (j.stream x.pos.record)) = some hostH ∧
        tStore (j.stream x.pos.record) = true ∧ tSpace (j.stream x.pos.record) = false ∧ j.page? oneWord.mem = some p ∧
        (p.flash = true ∨ p.write = false) := by decide +kernel

/-! ### HBM, weight flash and spares -/

def pageIn1 (f : Option Nat) : PageIn := { flashAddr := flashBase, big := false, cls := 1, order := 0, asked := 0, frame := f }
def withPageIn (f : Option Nat) (c : Ctl) : Ctl := c.withStore fun p => { p with pageIns := [pageIn1 f] }
/-- Five words of the first piece of the aperture that read corrected. -/
def wornMem : Mem := { mem0 with flaws := (List.range 5).map fun i => (36 * (flashBase / 32 + i), (1 : Byte)) }

theorem witness_PageInsAndFlashUpkeep_pages :
    (let c := withPageIn none on
     c.wq = [] ∧ c.hbmOn = true ∧ nextPageIn 0 c = some (pageIn1 none) ∧ nextPageIn 0 on = none ∧
       (makeFrame mem0 (pageIn1 none).bytes [] (c.store.residents.length + 1) c).isSome = true) ∧
    (let c := withPageIn (some 0) on
     c.store.pageIns.find? (fun q => q.uses 0 && q.frame.isSome) = some (pageIn1 (some 0)) ∧ (pageIn1 (some 0)).frame = some 0 ∧
       c.ctxs = [] ∧ c.holding = none ∧ pieceLost mem0 flashBase (pageIn1 (some 0)).bytes = false ∧ c.service.lee = false ∧
       ∀ j ∈ c.jobs, j.saved = []) ∧
    -- a stream halted on the page, and one that was saved while halted on it; in Lee mode a page that a job names, and one that none does
    (let j := { streamJob streamRec with pages := [flashPage] }
     let x := haltedCtx (ctx1 streamRec 1 none)
     let c := withPageIn (some 0) { onPlane j on with ctxs := [x] }
     let js := { j with saved := [x.pos] }
     let cs := withPageIn (some 0) (withJobs [js] on)
     let lee (c : Ctl) : Ctl := { c with service := { c.service with lee := true } }
     let named (c : Ctl) := c.jobs.any fun j => !j.ended && j.pages.any fun p => p.flash && p.flashAddr == flashBase && p.big == false
     x ∈ c.ctxs ∧ c.job? x.job = some j ∧ j.ended = false ∧ x.pos.halted = true ∧ posIn mem0 j x.pos flashBase false = true ∧
       js ∈ cs.jobs ∧ cs.job? js.no = some js ∧ js.ended = false ∧ (∃ p ∈ js.saved, p.halted = true ∧ posIn mem0 js p flashBase false = true) ∧
       (lee c).service.lee = true ∧ named (lee c) = true ∧ named (lee (withPageIn (some 0) on)) = false) := by decide +kernel

set_option maxRecDepth 40000 in
theorem witness_PageInsAndFlashUpkeep_blocks :
    (let c := withBundle on
     c.accepting = true ∧ flashBase + 0x10000 * 0 < flashEnd ∧ c.installed (flashBase + 0x10000 * 0) = true ∧
       readsWait 0 wornMem c = false ∧ readsWait 0 wornMem (withPageIn none c) = true ∧
       4 < (wornMem.listedWords flashBase (flashBase + 4096)).countP (fun w => (wornMem.readWord w).found = .corrected)) ∧
    (let c := (withBundle on).withStore fun p => { p with refreshDue := [0] }
     c.accepting = true ∧ 0 * 4096 + 0 ∈ c.store.refreshDue ∧ readsWait 0 mem0 c = false ∧
       (match placeOf c 0, sparePool c 0 with | some p, some _ => (heldPlaces c).contains p | _, _ => false) = true) ∧
    (let c := on.withStore fun p => { p with toErase := [0] }
     c.accepting = true ∧ 0 ∈ c.store.toErase ∧ c.store.removed = [] ∧ c.store.pageIns = []) := by decide +kernel

theorem witness_HbmBanksAndChannels :
    let c := on.withStore fun p => { p with repairDue := [63 * 48 * 16384 + 5] }
    let b (x : Bank) : Ctl := on.setBank (63 * 48 + 47) x
    let open' : Bank := { on.bank 0 with openRow := some 3, keptOpen := true, postponed := true }
    let busy := { b open' with xfers := [{ xfer1 with src := (rowChunks 63 47 3).headD 0, words := 1 }], jobs := [streamJob streamRec] }
    c.wq = [] ∧ c.hbmOn = true ∧ 63 < 64 ∧ 47 < 48 ∧ 63 ∉ c.store.failed ∧ 0 = SMap.get 0 c.store.refreshNext 63 ∧
      ((b open').bank (63 * 48 + 47)).postponed = true ∧ ((b open').bank (63 * 48 + 47)).keptOpen = true ∧
      (b open').rowQueued 63 47 3 = false ∧ (busy.bank (63 * 48 + 47)).openRow = some 3 ∧ busy.rowQueued 63 47 3 = true ∧
      (∀ n < 8, SMap.get 0 (on.withStore fun p => { p with alerts := [(63, n)] }).store.alerts 63 = n) ∧ c.galeIdle = true ∧
      63 * 48 * 16384 + 5 ∈ c.store.repairDue ∧ c.atPoint = true ∧ c.service.lee = false ∧
      ({ c with service := { c.service with lee := true } } : Ctl).service.lee = true := by decide +kernel

theorem witness_SparesTakeOver :
    let tiles (p : Nat) (x : Tile) : Ctl := { on with tiles := on.tiles.set p x }
    (let c := on.withPlane fun p => { p with retireDue := [3] }
     c.wq = [] ∧ 3 ∈ c.plane.retireDue ∧ c.mayRetire = true ∧ c.plane.copying = none ∧ (c.tile 3).logical = some 3 ∧
       c.spares.head? = some 16 ∧ 3 < c.tiles.length ∧ 16 < c.tiles.length ∧
       ((tiles 3 { on.tile 3 with passed := true }).tile 3).passed = true) ∧
    (on.withPlane fun p => { p with copying := some 15 }).plane.copying = some 15 ∧ on.plane.copying = none ∧
    ([tileBase 15 / 32].filter fun w => tileBase 15 ≤ 32 * w && 32 * w < tileBase 15 + tileBytes) = [tileBase 15 / 32] ∧
    (let c := on.withStore fun p => { p with bankDue := [16 * 128 + 31, 15 * 128 + 63] }
     16 * 128 + 31 ∈ c.store.bankDue ∧ 15 * 128 + 63 ∈ c.store.bankDue ∧ c.atPoint = true ∧ c.galeIdle = true ∧ c.service.lee = false ∧
       c.store.cstRetBank = none ∧ c.physical 15 = some 15 ∧ (c.tile 15).retBanks.length < 2 ∧
       ((tiles 15 { on.tile 15 with retBanks := [0, 1] }).tile 15).retBanks.length = 2 ∧ (on.tile 15).retired = false ∧
       (on.tile 15).logical = some 15 ∧ on.spares ≠ []) ∧
    (on.physical 15 = some 15 ∧ (on.tile 15).frozen = false ∧
      (let j := matmulJob (inPass 1 0)
       (onPlane j on).job? 1 = some j ∧ (tileHit (onPlane j on) j).isSome = true)) ∧
    (on.mayRetire = true ∧ on.galeIdle = true ∧ on.tilesServe = true ∧ on.plane.copying = none ∧ on.plane.holder = none ∧
      (let c := onPlane { job1 with running := some run1 } on
       c.plane.holder.bind c.job? = some { job1 with running := some run1 } ∧ c.mayRetire = true ∧ c.galeIdle = true) ∧ (on.tile 15).retRows.length < 2 ∧
      ((tiles 15 { on.tile 15 with retRows := [0, 1] }).tile 15).retRows.length = 2 ∧ (on.tile 15).retCols.length < 2) ∧
    (let c := { on with tiles := (on.tiles.set 15 { on.tile 15 with logical := none, retired := true }).set 16 { on.tile 16 with testing := true } }
     16 < 18 ∧ 16 < c.tiles.length ∧ (c.tile 16).testing = true ∧ (List.range 16).find? (fun t => (c.physical t).isNone) = some 15 ∧
       (c.tile 16).logical = none ∧ (tiles 3 { on.tile 3 with testing := true }).physical 3 = some 3 ∧
       ((tiles 3 { on.tile 3 with testing := true }).tile 3).logical.isSome = true) := by decide +kernel

/-! ### Intake -/

/-- Context n of a configuration, and what it is doing. -/
def sensing (n cfg : Nat) (x : Intake) (c : Ctl) : Ctl := ({ c with params := (0x0C00 + n, cfg) :: c.params }).setIntake n x
def idleIn : Intake := { Intake.off with on := true }
/-- Two lines of 16 RAW10 pixels as INT8, one slot of 4 words in every tile. -/
def camera : Nat := 1 + 1 * 2 ^ 64 + 4 * 2 ^ 96 + (0x2B * 2 ^ 4 + 2 * 2 ^ 10 + 16 * 2 ^ 16 + 2 * 2 ^ 32) * 2 ^ 192
def line1 (good : Bool) : CsiLine := { components := List.replicate 16 700, overflow := false, crcGood := good }
def withFull (n : Nat) (c : Ctl) : Ctl := setAll setFull (landKeys (c.cfg n) (c.intake n).next) c

theorem witness_Csi2FramesFillSlots :
    (on.wq = [] ∧ hdr.check = 0 ∧ on.pins.padHold = false ∧ on.pins.portsOff = false ∧ on.plane.copying = none ∧ csiContexts on hdr = []) ∧
    (let c := sensing 0 camera idleIn on
     let held := sensing 0 camera { idleIn with ended := [{ frame1 with slot := 0 }] } on
     csiContexts c hdr = [0] ∧ (c.intake 0).busy = false ∧ (c.intake 0).dropping = false ∧ (c.intake 0).ended = [] ∧
       (c.intake 0).frozen = false ∧ (landKeys (c.cfg 0) (c.intake 0).next).any c.slotFull = false ∧
       csiContexts (withFull 0 c) hdr = [0] ∧ (landKeys (c.cfg 0) ((withFull 0 c).intake 0).next).any (withFull 0 c).slotFull = true ∧
       csiContexts held hdr = [0] ∧ ((held.intake 0).ended.any fun f => f.slot == (held.intake 0).next) = true ∧
       (sensing 0 camera { idleIn with frozen := true } on).pins.padHold = false ∧
       ((sensing 0 camera { idleIn with frozen := true } on).intake 0).frozen = true) ∧
    (∀ good len, len < 2 →
      let c := sensing 0 camera { idleIn with busy := true, length := len } on
      (csiContexts c hdr).find? (fun n => bits (c.cfg n).src 9 4 = hdr.dt) = some 0 ∧ (c.intake 0).busy = true ∧
        (c.intake 0).dropping = false ∧ (c.intake 0).blocked = none ∧
        (landKeys (c.cfg 0) (c.intake 0).next).any c.slotFull = false ∧ (c.intake 0).length < bits (c.cfg 0).src 47 32 ∧
        (line1 good).components.length = bits (c.cfg 0).src 31 16 * ((csiType (bits (c.cfg 0).src 9 4)).getD (1, 8)).1 ∧
        0 < cdiv (bits (c.cfg 0).src 31 16 * ((csiType (bits (c.cfg 0).src 9 4)).getD (1, 8)).1 * (c.cfg 0).elem) 32) ∧
    (let c := sensing 0 camera { idleIn with busy := true, length := 2 } on
     let w := sensing 0 camera { idleIn with busy := true, length := 2, blocked := some 4 } on
     csiContexts c hdr = [0] ∧ (c.intake 0).busy = true ∧ bits (c.cfg 0).src 47 32 ≤ (c.intake 0).length ∧
       (landKeys (c.cfg 0) (c.intake 0).next).any c.slotFull = false ∧ (c.intake 0).blocked = none ∧ (c.intake 0).short = false ∧
       csiContexts w hdr = [0] ∧ (w.intake 0).blocked.isSome = true) ∧
    (let c := { sensing 31 camera { idleIn with busy := true } on with params := [(0x0C90, 50), (0x0C00 + 31, camera)] }
     31 < 32 ∧ (c.intake 31).busy = true ∧ (landKeys (c.cfg 31) (c.intake 31).next).any c.slotFull = false ∧
       (c.intake 31).blocked = none ∧ c.clk.ns < (c.intake 31).heard + 1000000 * c.param 0x0C90 ∧
       (c.intake 31).heard + 1000000 * c.param 0x0C90 ≤ (after 50000000 c).clk.ns) := by decide +kernel

/-- EtherType 0x88B5 on port 0; slots of TDM port 0; a relayed context with two words in the common store, relayed to tile 15. -/
def etherCfg : Nat := 1 + 1 * 2 ^ 64 + 4 * 2 ^ 96 + (2 + 0x88B5 * 2 ^ 16) * 2 ^ 192
def audio : Nat := 1 + 3 * 2 ^ 6 + 1 * 2 ^ 64 + 4 * 2 ^ 96 + (3 * 2 ^ 4 + 4 * 2 ^ 20) * 2 ^ 192
def relayed : Nat := 1 + 2 * 2 ^ 4 + 1 * 2 ^ 64 + 2 * 2 ^ 96
def relay1 (x : Intake) : Ctl := sensing 63 relayed x { on with params := [(0x0C40 + 63, 3 + 15 * 4 + 7 * 2 ^ 32)] }

theorem witness_BlocksAndRelaysMove :
    (on.wq = [] ∧ on.pins.padHold = false ∧ on.pins.portsOff = false ∧ on.plane.copying = none) ∧
    (let off : Ctl := { on with pins := { on.pins with portsOff := true } }
     off.pins.portsOff = true ∧ off.pins.padHold = false ∧ ∀ n < 64, 48 ≤ n → (off.intake n).on = false) ∧
    (let c := { on with params := [(0x0C88, 2 ^ 48 + eth.destination)] }
     let ce := sensing 32 etherCfg idleIn c
     let fresh (c : Ctl) (n : Nat) : Bool := !(c.intake n).busy && !(c.intake n).dropping && !(c.intake n).frozen && (c.intake n).ended == []
       && (c.intake n).blocked == none && !(landKeys (c.cfg n) (c.intake n).next).any c.slotFull
     eth.overflow = false ∧ bit (c.param (0x0C88 + eth.port % 2)) 48 = true ∧ ({ eth with goodChecks := false } : EthFrame).goodChecks = false ∧
       eth.goodChecks = true ∧ eth.fragment = false ∧ eth.bytes ≤ 9216 ∧
       eth.destination = bits (c.param (0x0C88 + eth.port % 2)) 47 0 ∧ ({ eth with multicast := true } : EthFrame).multicast = true ∧
       ((List.range 16).map (· + 32)).find? (ethMatches c eth) = none ∧
       ((List.range 16).map (· + 32)).find? (ethMatches ce eth) = some 32 ∧ bit (ce.cfg 32).src 3 = false ∧ fresh ce 32 = true ∧
       (eth.payload.drop (bits (ce.cfg 32).src 39 32)).length ≤ (ce.cfg 32).space) ∧
    (let c := { on with params := [(0x0C8C, 2 ^ 9)] }
     let ca := sensing 48 audio idleIn c
     let cfg := c.param (0x0C8C + 0 % 4)
     let ns (c : Ctl) := ((List.range 16).map (· + 48)).filter fun n => (c.intake n).on && bits (c.cfg n).src 1 0 = 0 % 4
     bit cfg 9 = true ∧ 31 ≠ 2 * 2 ^ bits cfg 1 0 * (16 + 8 * bits cfg 3 2) ∧ ns c = [] ∧
       32 = 2 * 2 ^ bits cfg 1 0 * (16 + 8 * bits cfg 3 2) ∧ ns ca = [48] ∧ (ca.intake 48).busy = false ∧ (ca.intake 48).dropping = false ∧
       (ca.intake 48).frozen = false ∧ (ca.intake 48).ended = [] ∧ (ca.intake 48).blocked = none ∧
       (landKeys (ca.cfg 48) (ca.intake 48).next).any ca.slotFull = false ∧
       1 < bits (ca.cfg 48).src 32 20 ∧
       (((List.range 16).filter fun i => bit (bits (ca.cfg 48).src 19 4) i).flatMap fun i =>
          sampleElement (ca.cfg 48).fmt 16 ([5, 6].getD i 0 % 2 ^ 16 / 2 ^ (16 - 16))).length ≤ (ca.cfg 48).space) ∧
    (∀ w, let c := withFull 63 (relay1 { idleIn with relayWait := w, landed := [0] })
     let full := setAll setFull (relayKeys (c.relay 63) 0) c
     63 < 64 ∧ (c.cfg 63).land = 2 ∧
       relayNext c 63 = some 0 ∧ relayNext full 63 = some 0 ∧
       (relayKeys (full.relay 63) 0).any full.slotFull = true ∧ (full.intake 63).relayWait = w ∧
       (relayKeys (c.relay 63) 0).any c.slotFull = false ∧ (∀ y ∈ relayKeys (c.relay 63) 0, y ∉ landKeys (c.cfg 63) 0) ∧
       relayBehind c 63 = false) ∧
    (let c := withFull 62 (withFull 63 (sensing 62 (relayed + 4) { idleIn with landed := [0] } (sensing 63 (relayed + 2 ^ 128)
       { idleIn with landed := [0] } { on with params := [(0x0C40 + 63, 3 + 15 * 4 + 7 * 2 ^ 32), (0x0C40 + 62, 3 + 14 * 4 + 9 * 2 ^ 32)] })))
     relayNext c 63 = some 0 ∧ relayBehind c 63 = true ∧ (relayKeys (c.relay 63) 0).any c.slotFull = false) ∧
    (let c := (withFull 63 (relay1 { idleIn with landed := [0] })).withPlane fun p => { p with copying := some 15 }
     relayNext c 63 = some 0 ∧ c.copyHolds (relayBase (c.cfg 63) (c.relay 63) 0 0) = true ∧ 0 < (c.cfg 63).parts (c.relay 63)) ∧
    (∀ b, let c := sensing 63 camera { idleIn with stopping := true, busy := b } on
     63 < 64 ∧ (c.intake 63).stopping = true ∧ (c.intake 63).busy = b ∧ c.clk.ns < (c.intake 63).stopAt + 100000000 ∧
       (c.intake 63).stopAt + 100000000 ≤ (after 100000000 c).clk.ns) := by
  refine ⟨?_, ?_, ?_, ?_, ?_, ?_, ?_, ?_⟩ <;> decide +kernel

/-! ### Crosswind -/

/-- Member 0 of a formed group of four that member `lead` leads; port 0 leads to member 1 and is up, port 1 stands by for it. -/
def formed (lead : Nat) (c : Ctl) : Ctl :=
  let c := { c with params := links ++ [(0x0E00, 0), (0x0E01, 0x0F), (0x0E04, 5), (0x0E05, 7)] }
  let c := c.withGroup fun g => { g with formed := true, lead := lead, epoch := 1 }
  c.setPort 0 { c.port 0 with up := true, idle := false, txSeq := 3 }
/-- Port 1 leads to member 2 and is up. -/
def bridged (c : Ctl) : Ctl :=
  let c := { c with params := links ++ [(0x0E00, 0), (0x0E01, 0x0F), (0x0E04, 5), (0x0E05, 9)] }
  c.setPort 1 { c.port 1 with up := true, idle := false }
def onPort (f : XwPort → XwPort) (c : Ctl) : Ctl := c.setPort 0 (f (c.port 0))
def pkt1 : XwPacket := { packet with src := 1, dst := 0 }
/-- A packet with the tag of its link's key, which is a free value. -/
def sealFor (c : Ctl) (type : Nat) (pk : XwPacket) : XwPacket := { pk with tag := packetTag (c.port pk.port).rxKey type pk }
theorem sealFor_good (c : Ctl) (type : Nat) (pk : XwPacket) : packetGood (c.port pk.port) type (sealFor c type pk) = true :=
  beq_self_eq_true (packetTag (c.port pk.port).rxKey type pk)
theorem longTag_bad (x : XwPort) (type : Nat) (pk : XwPacket) : packetGood x type { pk with tag := 0 :: packetTag x.rxKey type pk } = false := by
  change ((0 : Byte) :: packetTag x.rxKey type pk == packetTag x.rxKey type pk) = false
  simp

theorem witness_CrosswindReceivesInOrder :
    let c := formed 1 on
    let late := onPort (fun x => { x with asked := 7 }) c
    let cRelay := bridged c
    (∀ type pk, packetGood (c.port pk.port) type (sealFor c type pk) = true) ∧
    (∀ type, packetGood (c.port 0) type { pkt1 with tag := 0 :: packetTag (c.port 0).rxKey type pkt1 } = false) ∧
    (∀ type < 6, let pk := sealFor c type pkt1
     (c.wq = [] ∧ (packetCommands pk).length = 6) ∧ on.linkUp pk.port = false ∧ c.linkUp pk.port = true ∧
       ({ pk with seq := 2 } : XwPacket).seq ≠ (c.port pk.port).rxSeq ∧ 0 < ({ pk with uncorrectable := 3 } : XwPacket).uncorrectable ∧
       (c.port 0).asked + 1 < 8 ∧ (late.linkUp 0 = true ∧ 7 ≤ (late.port 0).asked ∧ 0 < late.group.ports.length)) ∧
    (∀ type < 6, let pk := sealFor c type pkt1
       (pk.uncorrectable = 0 ∧ pk.seq = (c.port pk.port).rxSeq) ∧
       (let pk := { pk with dst := 2 }
        pk.dst ≠ cRelay.member ∧ portTo (acked cRelay pk) pk.dst pk.link = some 1 ∧ pk.dst < 4 ∧ 1 ≠ pk.port) ∧
       (let pk := { pk with dst := 9 }
        let alone := onPort (fun x => { x with up := true, idle := false }) on
        pk.dst ≠ c.member ∧ portTo (acked alone pk) 9 pk.link = none ∧ alone.linkUp 0 = true)) ∧
    (∀ type < 6, let pk := sealFor c type pkt1
       pk.dst = c.member ∧ 6 ≤ ({ pk with badType := 255 } : XwPacket).badType ∧ pk.badType < 6 ∧
       ({ pk with flags := 4 } : XwPacket).flags / 4 ≠ 0 ∧ ({ pk with reserved := 1 } : XwPacket).reserved ≠ 0 ∧
       pk.flags / 4 = 0 ∧ pk.reserved = 0 ∧ ({ pk with groupEpoch := 2 } : XwPacket).groupEpoch ≠ c.group.epoch % 2 ^ 32) := by
  exact ⟨sealFor_good _, fun _ => longTag_bad _ _ _, by decide +kernel, by decide +kernel, by decide +kernel⟩

/-- A group job with a link from member 1 into handle 0 and a reduce link from it into handle 1, both behind a window of port 0. -/
def xwJob : Job :=
  { job1 with cls := 1, index := 0x8000, handles := [(0, hostH), (1, { outH with place := 1 })], links := [1, 1 + 2 ^ 24 + 2 ^ 32],
              windows := [2 ^ 32, 1 + 2 ^ 32] }
def reducing (c : Ctl) : Ctl := c.withGroup fun g => g.setDone 1 1 0 []
def linkedIn (c : Ctl) : Ctl := reducing (withJobs [xwJob] (formed 1 c))
def sums1 : XwWord := { tag := 6, data := List.replicate 32 0 }

theorem witness_CrosswindPacketsTakeEffect :
    let c := linkedIn on
    let copied := c.withPlane fun p => { p with copying := some 0 }
    (∀ type, let pk := sealFor c type pkt1
     packetGood (c.port pk.port) type pk = true) ∧
    (∀ type < 6, let pk := sealFor c type pkt1
     c.wq = [] ∧ c.linkUp pk.port = true ∧ pk.uncorrectable = 0 ∧ pk.seq = (c.port pk.port).rxSeq ∧ pk.dst = c.member ∧ pk.badType < 6 ∧
      pk.flags / 4 = 0 ∧ pk.reserved = 0 ∧ pk.groupEpoch = c.group.epoch % 2 ^ 32) ∧
    (∀ fl < 4, let pk := sealFor c 0 { pkt1 with flags := fl }
     let pz := sealFor c 1 { pkt1 with flags := fl, words := List.replicate 4 word }
     (packetWords false pk).map (·.2) = some 1 ∧ (packetWords true pz).map (·.2) = some 4 ∧
       packetTarget pk false pk.wordOffset 1 c = some (xwJob, hostH, hostH.addr 0 0) ∧
       packetTarget { pk with tile := 15, slot := 1, wordOffset := 1 } false 1 1 c = some (xwJob, hostH, hostH.addr 15 64) ∧
       c.slotFull (hostH.slotKey pk.tile pk.slot) = false) ∧
    (let pk := sealFor c 0 pkt1
     (setFull (hostH.slotKey 0 0) c).slotFull (hostH.slotKey 0 0) = true ∧
       c.copyHolds (hostH.addr 0 0) = false ∧ copied.copyHolds (hostH.addr 0 0) = true ∧
       packetTarget pk false pk.wordOffset 1 copied = some (xwJob, hostH, hostH.addr 0 0) ∧ pk.port < c.group.ports.length) ∧
    (let pk := sealFor c 2 { pkt1 with link := 1, words := [sums1], flags := 2 }
     let e := { outH with place := 1 }
     0 < pk.count ∧ pk.count ≤ 128 ∧ pk.words.length = pk.count ∧
       packetTarget pk true 0 1 c = some (xwJob, e, e.addr 0 0) ∧ windowBit c (32 + pk.port) (e.addr 0 0) e.slotBytes = true ∧
       c.slotFull (e.slotKey 0 pk.slot) = false ∧ c.copyHolds (e.addr 0 0) = false ∧ nextReducer c xwJob 1 pk.slot = some 1 ∧
       lDstHandle (xwJob.link 1) = 1 ∧ xwJob.linkScales.getD 1 0 = 0 ∧
       (match contribution32 e.accs (c.group.scalesOf 1 1 0) 0 pk.words with | .ok p => p.2.length == 8 | .error _ => false) = true ∧
       (match contribution32 e.accs (c.group.scalesOf 1 1 0) 0 [word] with | .ok _ => false | .error _ => true) = true ∧
       c.group.done? 1 1 0 = some [] ∧ (∀ i ∈ xwJob.reducers 1, i = 1) ∧
       (setFull (e.slotKey 0 0) c).slotFull (e.slotKey 0 0) = true) := by
  refine ⟨fun _ => sealFor_good _ _ _, ?_, ?_, ?_, ?_⟩ <;> decide +kernel

theorem witness_CrosswindPacketsTakeEffect_runs :
    let c := linkedIn on
    let running := { xwJob with running := some run1 }
    let cr := withJobs [running] c
    let ends (st : KS) (job : Bool) (seq : Nat) : List Byte := (endWord st.code job seq).data
    (c.job? pkt1.jobNo = some xwJob ∧ xwJob.grouped = true ∧ xwJob.ended = false ∧ pkt1.src = c.group.lead ∧ c.isLead = false ∧
      xwJob.waiting = none ∧ c.jobFrozen xwJob.no = false ∧ xwJob.running = none ∧ c.power.stage = .on ∧
      (c.withPower fun p => { p with stage := .entering }).power.stage ≠ .on) ∧
    (cr.job? pkt1.jobNo = some running ∧ cr.linkUp 0 = true) ∧
    (KS.ofCode (beNat (slice (ends .aborted false 0) 0 2)) = some .aborted ∧ KS.aborted ≠ .ok) ∧
    (∀ seq ∈ [0, 5], KS.ofCode (beNat (slice (ends .ok false seq) 0 2)) = some .ok ∧ ((ends .ok false seq).getD 2 0).toNat = 0 ∧
      beNat (slice (ends .ok false seq) 3 4) = seq ∧ running.running = some run1 ∧ (seq = 0 ↔ run1.seq = seq)) ∧
    (running.abortReq = none ∧ running.endReq = none ∧ running.endAtRun = 0 ∧ cr.xfers = [] ∧ cr.ctxs = []) ∧
    ((ends .ok true 0).getD 2 0).toNat ≠ 0 := by decide +kernel

theorem witness_CrosswindPacketsTakeEffect_config :
    let c := linkedIn on
    let lead := withJobs [xwJob] (formed 0 on)
    let waits := withJobs [{ xwJob with admitReq := some (req 0 []), admitLeft := [1, 2] }] (formed 0 on)
    let told := c.withProto fun p => { p with staged := [{ staged1 (.params [(0x0D01, 50)]) with grouped := true, req := none, number := 0 }] }
    let body (code : Nat) (p : List Byte) : List Byte :=
      ({ pkt1 with words := xwWords (toBe 2 p.length ++ [byte code, 0] ++ p) } : XwPacket).words.flatMap fun w => slice w.data 0 32
    let d (w : List Byte) : List Byte := slice (w.drop 4) 0 (min (beNat (slice w 0 2)) 4096)
    let bad : List Byte := [0x0D, 0x01, 0, 2, 0, 0, 0, 0]
    (c.isLead = false ∧ pkt1.src = c.group.lead ∧ ({ pkt1 with src := 2 } : XwPacket).src ≠ c.group.lead ∧ c.journalFull = false ∧
      (journalFilled c).journalFull = true ∧
      ((body 0x12 []).getD 2 0).toNat ∉ [0x03, 0x10, 0x30, 0x31, 0x32, 0x33, 0x91, 0x93, 0x94] ∧
      (∀ n ∈ [0x03, 0x32, 0x33, 0x90, 0x92, 0x93, 0x94], ((body n []).getD 2 0).toNat = n) ∧ c.proto.staged = []) ∧
    (lead.isLead = true ∧ lead.linkUp 0 = true ∧ lead.proto.staged = [] ∧ ((body 0x91 []).getD 2 0).toNat ∉ [0x90, 0x92]) ∧
    (waits.isLead = true ∧ (waits.job? pkt1.jobNo).any (fun j => j.admitReq.isSome && j.admitLeft.any (· ≠ pkt1.src)) = true) ∧
    (told.proto.staged.find? fun x => x.grouped && x.number == pkt1.slot).any (fun x => x.req.isNone) = true ∧
    (((body 0x03 paramPayload).getD 2 0).toNat = 0x03 ∧
      parseEntries 32 (d (body 0x03 paramPayload)) = some ([(0x0D01, 2, 50)], true) ∧ memberSpecific 0x0D01 = false ∧
      firstBad (valueAfter c [(0x0D01, 50)]) 0 [(0x0D01, 2, 50)] = none ∧
      parseEntries 32 (d (body 0x03 bad)) = some ([(0x0D01, 2, 0)], true) ∧
      (firstBad (valueAfter c [(0x0D01, 0)]) 0 [(0x0D01, 2, 0)]).isSome = true) ∧
    ((withBundle c).store.bundles.any (fun b => b.no = beNat (d (body 0x33 [0, 0, 0, 1]))) ∧ ∀ b ∈ c.store.bundles, b.no ≠ 1) := by
  refine ⟨?_, ?_, ?_, ?_, ?_, ?_⟩ <;> decide +kernel

theorem witness_CrosswindControlBlocks :
    let c := linkedIn on
    let sender := { xwJob with running := some run1, links := [2 ^ 8] }
    let sent (ty slot : Nat) (j : Job) := onPort (fun x => { x with out := [(ty, { packet with seq := 2, slot := slot })] }) (withJobs [j] c)
    let across := bridged c
    let waits := { xwJob with admitReq := some (req 0 []), admitLeft := [1] }
    (c.wq = [] ∧ c.linkUp 0 = true ∧ 2 < (c.port 0).txSeq) ∧
    ((onPort (fun x => { x with replays := 7 }) c).port 0).replays + 1 = 8 ∧ 0 < c.group.ports.length ∧
    (c.job? 9 = none ∧ (9, 0, 0, 0) ∉ (c.port 0).credits ∧ (sent 0 0 sender).job? 1 = some sender ∧ 0 < sender.links.length ∧
      lSrc (sender.link 0) = c.member ∧ (1, 0, 0, 0) ∉ ((sent 0 0 sender).port 0).credits) ∧
    (across.linkUp 1 = true ∧ across.job? 1 = some xwJob ∧ 0 < xwJob.links.length ∧ lSrc (xwJob.link 0) ≠ across.member ∧
      portTo across (lSrc (xwJob.link 0)) 0 = some 0 ∧ (1, 0, 0, 0) ∉ (across.port 1).credits) ∧
    (∀ ty ∈ [0, 1, 2, 3, 4, 5], let j := if ty = 5 then xwJob else sender
     let c := sent ty 0 j
     c.linkUp 0 = true ∧ ((c.port 0).out.filter fun q => q.2.seq == 2).getLast? = some (ty, { packet with seq := 2 }) ∧
       c.job? 1 = some j ∧ j.grouped = true ∧ j.ended = false ∧ (ty ≠ 5 → j.running.isSome = true) ∧ (c.job? 1).bind (·.admitReq) = none ∧
       KS.ofCode KS.windowFault.code = some .windowFault) ∧
    (((sent 5 0 waits).job? 1).bind (·.admitReq) = some (req 0 []) ∧ (sent 5 0 waits).proto.sa.getD (req 0 []).port false = true) ∧
    (let c := (sent 5 4 xwJob).withProto fun p => { p with staged := [{ staged1 (.params [(0x0D01, 50)]) with grouped := true, number := 4 }] }
     (c.proto.staged.find? fun y => y.grouped && y.req.isSome && y.number == 4).isSome = true ∧ (c.job? 1).bind (·.admitReq) = none) := by
  refine ⟨?_, ?_, ?_, ?_, ?_, ?_, ?_, ?_⟩ <;> decide +kernel

theorem witness_CrosswindControlBlocks_members :
    let c := linkedIn on
    let probed (own : Nat) : Ctl := (onPort (fun x => { x with probe := (1, 500, 0) }) c).withGroup fun g => { g with state := g.state.set 0 own }
    let twice (received : Int) : Int := (received - 100) - ((1100 : Int) - 500)
    (∀ own ∈ [0, 2], ((probed own).port 0).probe.2.1 ≠ 0 ∧ (probed own).linkUp 0 = true ∧ portPeer (probed own) 0 = (probed own).group.lead ∧
      (probed own).isLead = false ∧ (probed own).group.state.getD (probed own).member 0xFF = own ∧ (probed own).group.formed = true ∧
      (probed own).member < 4) ∧
    (((twice 1699 + 1) / 2).natAbs ≤ 500 ∧ 0 ≤ twice 1699 ∧ (twice 1699 + 1) / 2 = 500 ∧ 1000 < ((twice 9700 + 1) / 2).natAbs ∧
      twice 699 < 0 ∧ -((1 - twice 699) / 2) = -1) ∧
    (∀ old ∈ [0, 1, 2, 3, 4, 0xFF], let c := c.withGroup fun g => { g with state := g.state.set 3 old }
     3 < 4 ∧ 3 ≠ c.member ∧ c.group.formed = true ∧ bit (c.param 0x0E01) 3 = true ∧ c.group.state.getD 3 0xFF = old ∧
       c.group.epoch % 2 ^ 64 = 1) ∧
    (let c := (formed 0 on).withGroup fun g => { g with state := g.state.set 3 3 }
     let known := c.withGroup fun g => { g with changes := [(1, .params [(0x0D01, 50)])] }
     (c.linkUp 0 = true ∧ c.group.state.getD 3 0xFF = 3 ∧ 0 < c.group.epoch % 2 ^ 64 ∧ c.isLead = true ∧ c.group.formed = true ∧
       SMap.get 0 c.group.sentTo 3 ≠ 0 + 1 ∧ c.group.changes.find? (fun x => x.1 = 0 + 1) = none) ∧
     (known.group.changes.find? fun x => x.1 = 0 + 1) = some (1, .params [(0x0D01, 50)]) ∧ (readEntries known [0x0D01]).isSome = true) ∧
    (let c := c.withGroup fun g => { g with formed := false, state := g.state.set 0 3 }
     c.group.formed = false ∧ c.member < 4 ∧ c.group.state.getD c.member 0xFF = 3 ∧ 1 = c.group.lead ∧ c.linkUp 0 = true) := by
  refine ⟨?_, ?_, ?_, ?_, ?_⟩ <;> decide +kernel

theorem witness_CrosswindSendsAndSpares_sends :
    let cl := linked hostH on
    let cr := cl.setPort 0 { cl.port 0 with credits := [(1, 0, 0, 0)] }
    let j := { job1 with cls := 1, index := 0x8000, running := some run1, handles := [(0, hostH)], links := [2 ^ 8] }
    let again := onPort (fun x => { x with resend := some 2, replay := [(0, { packet with seq := 2 })] }) cl
    let queued (fl : Nat) := onPort (fun x => { x with waiting := [(1, packet), (0, { packet with flags := fl })] }) cl
    let gale := withJobs [{ j with cls := 0 }] (onPort (fun x => { x with waiting := [(1, packet)] }) cr)
    -- a packet of another LINK waits too
    let both := onPort (fun x => { x with waiting := [(1, { packet with link := 1 })], lastLink := 255 }) cr
    let full (c : Ctl) := onPort (fun x => { x with replay := List.replicate 128 (0, { packet with words := List.replicate 128 word }) }) c
    let now (c : Ctl) : Ctl := noteWaits 0 (grantCredits c)
    (cl.wq = [] ∧ 0 < 4 ∧ 0 < cl.group.ports.length ∧ cl.linkUp 0 = true ∧ again.linkUp 0 = true ∧ (queued 0).linkUp 0 = true ∧
      portStands cl 0 = false ∧ portStands (formed 1 on) 1 = true) ∧
    (((now again).port 0).resend = some 2 ∧ ((now again).port 0).replay.find? (fun y => y.2.seq = 2) = some (0, { packet with seq := 2 })) ∧
    (((now cl).port 0).resend = none ∧ localReduce (now cl) = none ∧ ((now cl).port 0).waiting = [] ∧
      (sendable (now cl) 0).any (·.2) = false ∧ sendable (now cl) 0 ≠ []) ∧
    ((∀ fl ∈ [0, 1], let c := now (queued fl)
       let g : Bool := fl == 1
       (c.port 0).resend = none ∧ localReduce c = none ∧ nextWaiting (c.port 0) g = some (1 - fl, { packet with flags := fl }) ∧
         nextPart 0 g c = none ∧ (g = false → nextWaiting (c.port 0) true = none ∧ nextPart 0 true c = none) ∧
         replayRoom (c.port 0) 1 = true) ∧
     replayRoom ((now (full (queued 0))).port 0) 1 = false) ∧
    (∀ c ∈ [cr, gale, both], let c₁ := now c
     let g : Bool := (c₁.jobs.map (·.cls)) == [0]
     (c₁.port 0).resend = none ∧ localReduce c₁ = none ∧ nextPart 0 g c₁ = some (1, 0, 0, 0) ∧
       (g = false → nextWaiting (c₁.port 0) true = none ∧ nextPart 0 true c₁ = none) ∧
       ((nextWaiting (c₁.port 0) g).all fun q => decide ((c₁.port 0).turn 0 < (c₁.port 0).turn q.2.link)) = true ∧
       (c₁.job? 1).map (·.links) = some [2 ^ 8] ∧ (∀ k ∈ c₁.jobs, c₁.xwOut k.bundle = true ∧ k.handle? (lSrcHandle (k.link 0)) = some hostH) ∧
       replayRoom (c₁.port 0) 128 = true) := by
  refine ⟨?_, ?_, ?_, ⟨?_, ?_⟩, ?_⟩ <;> decide +kernel

theorem witness_CrosswindSendsAndSpares_spares :
    let c := formed 1 on
    let down := onPort (fun x => { x with up := false }) c
    let swapped := onPort (fun x => { x with swapped := some 2 }) c
    let cs := c.setPort 1 { c.port 1 with up := true, idle := false }
    (c.member ≠ 0xFF ∧ c.power.stage = .on ∧ c.service.lee = false) ∧
    (c.linkUp 0 = true ∧ portStands c 0 = false ∧ c.group.lead ≠ 0xFF ∧ portPeer c 0 = c.group.lead ∧ (formed 0 on).isLead = true) ∧
    (let here (errors : Nat) : Nat := (if (c.port 0).laneSecond = c.clk.ns / 1000000000 then SMap.get 0 (c.port 0).laneErrors 4 else 0) + errors
     (c.port 0).swapped = none ∧ swapped.linkUp 0 = true ∧ (swapped.port 0).swapped = some 2 ∧ 4 < 5 ∧
      some 2 ≠ some 4 ∧ c.param 0x0E03 < here 65537 ∧ ¬c.param 0x0E03 < here 0) ∧
    (let spare (c : Ctl) := (List.range 4).find? fun q =>
       portEnabled c q && portSpare c q && portPeer c q == portPeer c 0 && (c.port q).up && q ≠ 0
     portEnabled c 0 = true ∧ spare c = none ∧ spare cs = some 1 ∧ cs.group.spareFor = none ∧ 1 < cs.group.ports.length) ∧
    (c.group.formed = true ∧ 3 ∈ c.group.serving) ∧
    (portEnabled down 0 = true ∧ down.service.lee = false ∧ down.pins.padHold = false ∧ (down.port 0).up = false ∧ down.power.stage = .on) ∧
    ((onPort (fun x => { x with rxSeq := 2 ^ 47 }) c).linkUp 0 = true ∧ 2 ^ 47 ≤ ((onPort (fun x => { x with rxSeq := 2 ^ 47 }) c).port 0).rxSeq) ∧
    (c.port 0).txSeq < 2 ^ 47 ∧ (c.port 0).rxSeq < 2 ^ 47 := by
  refine ⟨?_, ?_, ?_, ?_, ?_, ?_, ?_, ?_, ?_⟩ <;> decide +kernel

/-! ### Wakes, resets, power and Lee mode -/

def staged (g : Stage) (c : Ctl) : Ctl := c.withPower fun p => { p with stage := g }
def inLee (causes : Nat) : Ctl := { on with service := { on.service with lee := true, leeCause := causes } }

/-- Devices that wait for commands to be accepted: plain, with a context held, with a trial image, and with a channel failed. -/
def linkStages : List Ctl :=
  let c := staged .link on
  [c, sensing 63 camera { Intake.off with held := true } c, { c with sec := { c.sec with trial := true, nextSlot := some 1 } },
   { c with service := { c.service with leeCause := 8 } }]

theorem witness_WakeGoesStepByStep :
    (r0.wq = [] ∧ r0.power.stage = .waitGood) ∧
    (let c (svn : List Nat) : Ctl := { (staged .boot r0) with sec := { r0.sec with slotSvn := svn } }
     let ok (c : Ctl) (n : Nat) : Bool := true && imageGood c n && c.sec.slotSvn.getD n 0 != 0 && decide (c.sec.svn ≤ c.sec.slotSvn.getD n 0)
     (∀ svn ∈ [[5, 5], [0, 5], [0, 0]], (c svn).power.stage = .boot ∧ (c svn).power.hbmTrained = false ∧
       (c svn).sec.nextSlot.getD (c svn).sec.bootSlot = 0) ∧
     ok (c [5, 5]) 0 = true ∧ (ok (c [0, 5]) 0 = false ∧ ok (c [0, 5]) (1 - 0) = true) ∧ (ok (c [0, 0]) 0 = false ∧ ok (c [0, 0]) (1 - 0) = false)) ∧
    ((staged .training r0).power.stage = .training ∧ (staged .training r0).pins.padHold = true) ∧ (staged .padHold r0).power.stage = .padHold ∧
    ((∀ c ∈ linkStages, c.power.stage = .link ∧ c.proto.sa.any id = true ∧ c.power.target ≠ 2 ∧ c.pins.coolantOk = true ∧
       c.inService = 16 ∧ c.service.lee = false) ∧
     (∀ c ∈ linkStages.take 3, c.service.leeCause = 0 ∧ bit (c.param 0x0E02) 0 = false) ∧
     (let c := linkStages.getD 1 on
      (c.intake 63).held = true ∧ (c.cfg 63).enable = true) ∧
     (let c := linkStages.getD 2 on
      c.sec.trial = true ∧ c.sec.nextSlot = some 1) ∧
     on.physical 15 = some 15 ∧ 15 < on.tiles.length ∧ (on.tile 15).retRows.length < 2 ∧
     bit (linkStages.getD 3 on).service.leeCause 3 = true) ∧
    on.power.stage ≠ .link ∧
    (let c : Ctl := (staged .bootFailed on).withPower fun p => { p with wakeCfg := 5 }
     c.power.stage = .bootFailed ∧ c.inEntry = false ∧ bit c.power.wakeCfg 0 = true ∧ c.pins.sysResetN = true ∧ c.pins.refClk = true) ∧
    ((staged .link on).withPower fun p => { p with target := 2 }).power.target = 2 := by
  refine ⟨?_, ?_, ?_, ?_, ?_, ?_, ?_, ?_⟩ <;> decide +kernel

theorem witness_ResetsKeepWhatFlashKeeps :
    (on.wq = [] ∧ on.pins.aonPwrGood = true ∧ on.pins.aonPwrReq = true ∧ on.power.stage ≠ .dead) ∧ on.firmwareRuns = true ∧ on.safetyRuns = true ∧
    (∀ g ∈ [Stage.training, .padHold, .link],
      let c : Ctl := staged g { on with sec := { on.sec with trial := true, nextSlot := some 1 } }
      c.sec.trial = true ∧ c.power.stage = g ∧ c.clk.ns < c.power.wakeAt + 5000000000 ∧
        (after 5000000000 c).power.wakeAt + 5000000000 ≤ (after 5000000000 c).clk.ns) ∧
    ((staged .held on).power.stage = .held ∧ on.pins.refClk = true ∧ on.pins.sysResetN = true) := by
  refine ⟨?_, ?_, ?_, ?_, ?_⟩ <;> decide +kernel

theorem witness_PowerStatesAndPoints :
    (on.wq = [] ∧ on.power.stage = .on ∧ on.power.idle = false ∧ on.power.opNext = none ∧ ∀ j ∈ on.jobs, ¬(j.running.isSome = true ∧ j.ended = false)) ∧
    (let c := withJobs [running1] (staged .entering on)
     c.power.stage = .entering ∧ running1 ∈ c.jobs ∧ running1.running.isSome = true ∧ running1.ended = false ∧ (c.jobs.map (·.no)).Nodup ∧
       (∀ n < 64, (c.intake n).busy = false ∧ (c.intake n).dropping = false ∧ (c.intake n).ended = []) ∧
       0 < 1000000 * c.param 0x1006 ∧ c.clk.ns < c.power.enterAt + 1000000 * c.param 0x1006 ∧
       c.power.enterAt + 1000000 * c.param 0x1006 ≤ (after (1000000 * c.param 0x1006) c).clk.ns) ∧
    (let quiet (n : Nat) := on.withPower fun p => { p with quiet := n }
     (quiet 0).power.quiet < 1000 * on.param 0x1003 ∧ 1000 * on.param 0x1003 ≤ (quiet (1000 * on.param 0x1003)).power.quiet) ∧
    (∀ tg ∈ [2, 3, 4], let c := (staged .powerDown on).withPower fun p => { p with target := tg }
     c.power.stage = .powerDown ∧ c.power.wakeHeld = none ∧ c.power.target = tg) ∧
    (∀ tg ∈ [2, 3, 4], let c := (staged .low on).withPower fun p => { p with target := tg, wakeCfg := 0x3B, wakeTimer := 7 }
     c.power.stage = .low ∧ c.power.target = tg ∧ c.pins.sysResetN = true ∧ c.pins.refClk = true ∧
       (∀ k ∈ [0, 3, 4, 5], bit c.power.wakeCfg k = true) ∧ c.power.wakeTimer ≠ 0 ∧
       c.clk.ns < c.power.reachedAt + 1000000000 * c.power.wakeTimer ∧
       c.power.reachedAt + 1000000000 * c.power.wakeTimer ≤ (after 7000000000 c).clk.ns) ∧
    (let c := (staged .entering { on with params := [(0x1004, 0x19)] }).withPower fun p => { p with target := 2 }
     c.inEntry = true ∧ c.power.wakeHeld = none ∧ c.power.target ≠ 4 ∧ bit (c.param 0x1004) 1 = false ∧
       bit (c.param 0x1004) 2 = false ∧ on.inEntry = false ∧
       ∀ k ∈ [0, 3, 4], bit (c.param 0x1004) k = true) ∧
    (let c := on.withPower fun p => { p with opNext := some 1 }
     c.power.opNext = some 1 ∧ c.power.stage = .on ∧ c.mayRetire = true ∧ c.galeIdle = true ∧ r0.galeIdle = true ∧
       (onPlane (matmulJob (inPass 1 0)) c).mayRetire = false ∧ 1 ≠ c.power.opNow ∧ 3 ≤ 3) ∧
    (on.service.lee = false ∧ (on.param 0x1007 : Int) < 106 ∧ on.power.opNow < 2 ∧ on.power.opNow ≤ on.param 0x1001 ∧
      (50 : Int) < (on.param 0x1007 : Int) - 5 ∧
      (let c := on.withPower fun p => { p with opNow := 2, throttle := 2 }
       c.param 0x1001 < c.power.opNow ∧ c.power.stage = .on ∧ c.service.lee = false)) := by
  refine ⟨?_, ?_, ?_, ?_, ?_, ?_, ?_, ?_⟩ <;> decide +kernel

theorem witness_LeeCausesComeAndGo :
    (on.wq = [] ∧ on.accepting = true ∧ on.service.lee = false ∧ on.pins.padHold = false ∧ 0 < on.group.ports.length) ∧
    (let c := on.withPower fun p => { p with opNow := 2 }
     c.power.opNow = 2 ∧ (110 : Int) ≤ 110 ∧ c.power.stage = .on) ∧
    (let c := withJobs [job1] on
     job1 ∈ c.jobs ∧ leeKeeps c job1.bundle job1.index job1.cls = false) ∧
    ((inLee 2).service.lee = true ∧ bit (inLee 2).service.leeCause 0 = false) ∧
    (∀ b < 3, (inLee (2 ^ b)).inService = 16 ∧ (inLee (2 ^ b)).service.leeCause = 2 ^ b ∧ (inLee (2 ^ b)).accepting = true ∧
      bit (inLee (2 ^ b + 8)).service.leeCause b = true ∧ (inLee (2 ^ b + 8)).service.leeCause ≠ 2 ^ b) ∧
    (let c := sensing 63 camera { Intake.off with held := true } (inLee 1)
     63 < 64 ∧ c.service.leeCause = 1 ∧ (c.intake 63).held = true ∧ (c.config 63).enable = true) ∧
    (let c := { inLee 1 with params := links ++ [(0x0E00, 0), (0x0E01, 0x0F), (0x0E02, 1)] }
     bit ((inLee 1).param 0x0E02) 0 = false ∧ c.service.leeCause = 2 ^ 0 ∧ bit (c.param 0x0E02) 0 = true ∧ c.member < 4 ∧
       bit (c.param 0x0E01) c.member = true) := by
  refine ⟨?_, ?_, ?_, ?_, ?_, ?_, ?_⟩ <;> decide +kernel

end Sys2Proof.Tests
end

section
/-! SUPPORT. The state after reset, read through the accessors of the state: its counters, memories, tiles and slot tags
(00_scope.md R14; 03 R107; 16 R486, R498). -/

namespace Sys2Proof.Machine

/-! ### Keys of counters -/

/-- A counter's place among the counters tells it from every other. -/
theorem Cnt.ctorIdx_inj {k k' : Cnt} : k.ctorIdx = k'.ctorIdx ↔ k = k' := by
  refine ⟨fun h => ?_, congrArg Cnt.ctorIdx⟩
  rw [← Cnt.ofNat_ctorIdx k, h, Cnt.ofNat_ctorIdx]

/-- Every counter fits the 256 places that a key leaves an instance. -/
theorem Cnt.ctorIdx_lt (k : Cnt) : k.ctorIdx < 256 := by
  cases k <;> decide

/-- A key names one counter and one instance of it. -/
theorem Cnt.key_inj {k k' : Cnt} {i i' : Nat} : k.key i = k'.key i' ↔ k = k' ∧ i = i' := by
  have hk := k.ctorIdx_lt
  have hk' := k'.ctorIdx_lt
  rw [← Cnt.ctorIdx_inj, Cnt.key, Cnt.key]
  omega

/-! ### Tiles at first power-on -/

/-- Each of the 18 tiles stands as the factory left it. -/
theorem Ctl.tile_reset {p : Nat} (hp : p < 18) : State.reset.ctl.tile p = Tile.factory p := by
  simp [Ctl.tile, State.reset, Ctl.reset, hp]

/-- Of the 18 tiles the first 16 hold the logical tile of their own number. -/
theorem Tile.factory_logical_eq_some {p t : Nat} : (Tile.factory p).logical = some t ↔ p < 16 ∧ p = t := by
  simp [Tile.factory]

/-- The tiles from 16 on hold no logical tile. -/
theorem Tile.factory_logical_isNone (p : Nat) : (Tile.factory p).logical.isNone = decide (16 ≤ p) := by
  by_cases h : p < 16
  · simp [Tile.factory, h]
  · simp [Tile.factory, h, Nat.le_of_not_lt h]

/-- A logical tile stands on the physical tile of its number. -/
theorem Ctl.physical_reset {t : Nat} (ht : t < 16) : State.reset.ctl.physical t = some t := by
  rw [Ctl.physical, List.find?_range_eq_some]
  simp only [decide_eq_true_eq, Bool.not_eq_true', decide_eq_false_iff_not, List.mem_range]
  refine ⟨?_, by omega, fun p hp => ?_⟩
  · rw [Ctl.tile_reset (by omega), Tile.factory_logical_eq_some]
    exact ⟨ht, rfl⟩
  · rw [Ctl.tile_reset (by omega), Tile.factory_logical_eq_some]
    omega

/-- The two tiles beyond the logical ones are the spares. -/
theorem Ctl.spares_reset : State.reset.ctl.spares = [16, 17] := by
  have spare_iff : ∀ p ∈ List.range 18,
      ((State.reset.ctl.tile p).logical.isNone && !(State.reset.ctl.tile p).retired &&
        !(State.reset.ctl.tile p).frozen && !(State.reset.ctl.tile p).testing) = decide (16 ≤ p) := by
    intro p hp
    rw [Ctl.tile_reset (List.mem_range.mp hp), Tile.factory_logical_isNone]
    simp [Tile.factory]
  rw [Ctl.spares, List.filter_congr spare_iff]
  decide

/-! ### Memories, counters and slot tags -/

theorem State.reset_ready : State.reset.ready := ⟨rfl, rfl⟩

/-- No byte is listed, and an unlisted byte is 0. -/
theorem Mem.byteAt_reset (a : Nat) : State.reset.mem.byteAt a = 0 := rfl

/-- The power-on is the one event counted, as a reset and as a wake. -/
theorem Ctl.counter_reset (k : Cnt) (i : Nat) :
    State.reset.ctl.counter k i = if i = 0 ∧ (k = .pwrReset ∨ k = .pwrWake) then 1 else 0 := by
  have listed : State.reset.ctl.counters = [(Cnt.pwrWake.key 0, 1), (Cnt.pwrReset.key 0, 1)] := rfl
  simp only [Ctl.counter, listed, SMap.get, Cnt.key_inj]
  split_ifs <;> tauto

/-- No slot tag is listed, and an unlisted tag is neither full nor voided. -/
theorem Ctl.slotTags_reset (k : Nat) :
    State.reset.ctl.slotFull k = false ∧ State.reset.ctl.slotVoided k = false := by
  have listed : State.reset.ctl.slotTags = [] := rfl
  simp [Ctl.slotFull, Ctl.slotVoided, listed, SMap.get, bit]

/-- Settles O5: what is listed in the state after reset, read through the accessors; the rest are its fields. -/
theorem resetLeavesWakeAtItsStart : Obligations.ResetLeavesWakeAtItsStart :=
  ⟨State.reset_ready, rfl, rfl, Ctl.counter_reset, Mem.byteAt_reset, rfl, rfl, rfl, rfl, rfl, rfl, rfl, rfl, rfl,
    fun _ => Ctl.physical_reset, Ctl.spares_reset, Ctl.slotTags_reset⟩

end Sys2Proof.Machine
end

section
/-! SUPPORT. What the drain of an entry waits for (16 R483): which jobs run, and what stands in the intake contexts. The
operations that end a job keep it, up to the step that marks the job as ended or drops it: one lemma for each. -/

namespace Sys2Proof.Machine

/-- What the drain of an entry sees of a job: its number, whether a run of it is running, whether it has ended. -/
def Job.face (j : Job) : Nat × Bool × Bool := (j.no, j.running.isSome, j.ended)
/-- The jobs as the drain of an entry sees them. -/
def Ctl.roster (c : Ctl) : List (Nat × Bool × Bool) := c.jobs.map Job.face
/-- All that the drain of an entry waits for: the jobs, and the intake contexts. -/
def Ctl.underway (c : Ctl) : List (Nat × Bool × Bool) × List (Nat × Intake) := (c.roster, c.intakes)

@[simp] theorem Ctl.underway_mk (clk params counters slotTags tagTimes plane tiles jobs ctxs xfers charges govHeld store
    intakes proto group sec power service pins wq freeIx) :
    (Ctl.mk clk params counters slotTags tagTimes plane tiles jobs ctxs xfers charges govHeld store intakes proto group sec
      power service pins wq freeIx).underway = (jobs.map Job.face, intakes) := rfl

@[simp] theorem Ctl.underway_fold (c : Ctl) : (c.jobs.map Job.face, c.intakes) = c.underway := rfl
@[simp] theorem Ctl.underway_ite (p : Prop) [Decidable p] (a b : Ctl) :
    (if p then a else b).underway = if p then a.underway else b.underway := apply_ite Ctl.underway p a b

theorem Ctl.underway_of_eq {a b : Ctl} (hj : a.jobs = b.jobs) (hi : a.intakes = b.intakes) : a.underway = b.underway := by
  rw [Ctl.underway, Ctl.underway, Ctl.roster, Ctl.roster, hj, hi]

theorem Ctl.roster_of_underway {a b : Ctl} (h : a.underway = b.underway) : a.roster = b.roster := congrArg Prod.fst h
theorem Ctl.intakes_of_underway {a b : Ctl} (h : a.underway = b.underway) : a.intakes = b.intakes := congrArg Prod.snd h

/-- What every step of a fold keeps, the fold keeps. -/
theorem foldl_keeps {σ α β : Type} (g : σ → β) {f : σ → α → σ} (h : ∀ s x, g (f s x) = g s) (l : List α) (s : σ) :
    g (l.foldl f s) = g s := by
  induction l generalizing s with
  | nil => rfl
  | cons x l ih => rw [List.foldl_cons, ih, h]

theorem foldl_underway {α : Type} {f : Ctl → α → Ctl} (h : ∀ c x, (f c x).underway = c.underway) (l : List α) (c : Ctl) :
    (l.foldl f c).underway = c.underway := foldl_keeps Ctl.underway h l c

/-! ### Fields, jobs, packets and counters -/

@[simp] theorem Ctl.withPlane_underway (c : Ctl) (f : Plane → Plane) : (c.withPlane f).underway = c.underway := rfl
@[simp] theorem Ctl.withStore_underway (c : Ctl) (f : Store → Store) : (c.withStore f).underway = c.underway := rfl
@[simp] theorem Ctl.withProto_underway (c : Ctl) (f : Proto → Proto) : (c.withProto f).underway = c.underway := rfl
@[simp] theorem Ctl.withGroup_underway (c : Ctl) (f : Group → Group) : (c.withGroup f).underway = c.underway := rfl
@[simp] theorem Ctl.withPower_underway (c : Ctl) (f : Power → Power) : (c.withPower f).underway = c.underway := rfl
@[simp] theorem Ctl.setPort_underway (c : Ctl) (p : Nat) (x : XwPort) : (c.setPort p x).underway = c.underway := rfl
@[simp] theorem Ctl.setBank_underway (c : Ctl) (k : Nat) (b : Bank) : (c.setBank k b).underway = c.underway := rfl
@[simp] theorem emit_underway (ws : List Wr) (c : Ctl) : (emit ws c).underway = c.underway := rfl
@[simp] theorem setTag_underway (k v : Nat) (c : Ctl) : (setTag k v c).underway = c.underway := rfl
@[simp] theorem takeFree_underway (c : Ctl) : (takeFree c).2.underway = c.underway := rfl
@[simp] theorem send_underway (p : Packet) (c : Ctl) : (send p c).underway = c.underway :=
  Ctl.underway_of_eq (send_jobs p c) (send_intakes p c)

@[simp] theorem count_underway (k : Cnt) (i n : Nat) (c : Ctl) : (count k i n c).underway = c.underway :=
  Ctl.underway_of_eq (count_jobs k i n c) (count_intakes k i n c)

@[simp] theorem event_underway (code job status list idx tag : Nat) (detail : List Byte) (more : List Peer) (c : Ctl) :
    (event code job status list idx tag detail more c).underway = c.underway :=
  Ctl.underway_of_eq (event_jobs ..) (event_intakes ..)

@[simp] theorem answer_underway (r : Req) (kind : Nat) (st : KS) (body : List Byte) (c : Ctl) :
    (answer r kind st body c).underway = c.underway := Ctl.underway_of_eq (answer_jobs ..) (answer_intakes ..)

@[simp] theorem countEvents_underway (ev : Events) (c : Ctl) : (countEvents ev c).underway = c.underway :=
  foldl_underway (fun c _ => count_underway _ _ _ c) ev c

theorem Ctl.mapJob_underway (no : Nat) (f : Job → Job) (c : Ctl) (hf : ∀ j, (f j).face = j.face) :
    (c.mapJob no f).underway = c.underway := by
  have hif : ∀ k : Job, (if k.no = no then f k else k).face = k.face := fun k => by split <;> simp [hf]
  rw [Ctl.underway, Ctl.roster, Ctl.mapJob_jobs, List.map_map, Function.comp_def]
  simp [hif]

@[simp] theorem Ctl.mapJob_exec_underway (no : Nat) (f : Job → Exec) (c : Ctl) :
    (c.mapJob no fun j => { j with exec := f j }).underway = c.underway := Ctl.mapJob_underway no _ c fun _ => rfl

@[simp] theorem noteMove_underway (no : Nat) (c : Ctl) : (noteMove no c).underway = c.underway :=
  Ctl.mapJob_underway no _ c fun _ => rfl

@[simp] theorem onExec_underway (no : Nat) (f : Exec → Exec) (c : Ctl) : (onExec no f c).underway = c.underway :=
  (noteMove_underway _ _).trans (Ctl.mapJob_underway no _ c fun _ => rfl)

/-! ### Slot tags -/

theorem setAll_underway {f : Nat → Ctl → Ctl} (h : ∀ k c, (f k c).underway = c.underway) (ks : List Nat) (c : Ctl) :
    (setAll f ks c).underway = c.underway := foldl_underway (fun c k => h k c) ks c

@[simp] theorem setFull_underway (k : Nat) (c : Ctl) : (setFull k c).underway = c.underway := by simp [setFull]
@[simp] theorem setEmpty_underway (k : Nat) (c : Ctl) : (setEmpty k c).underway = c.underway := by simp [setEmpty]
@[simp] theorem setVoided_underway (k : Nat) (c : Ctl) : (setVoided k c).underway = c.underway := rfl
@[simp] theorem setAllFull_underway (ks : List Nat) (c : Ctl) : (setAll setFull ks c).underway = c.underway :=
  setAll_underway setFull_underway ks c

@[simp] theorem setAllEmpty_underway (ks : List Nat) (c : Ctl) : (setAll setEmpty ks c).underway = c.underway :=
  setAll_underway setEmpty_underway ks c

@[simp] theorem voidPart_underway (h : Handle) (s k : Nat) (c : Ctl) : (voidPart h s k c).underway = c.underway := by
  simp [voidPart]

/-! ### Reads of the memories -/

@[simp] theorem noteRead_underway (m : Mem) (w : Nat) (c : Ctl) : (noteRead m w c).underway = c.underway := by
  unfold noteRead
  dsimp only
  split
  · rfl
  · split <;> simp only [Ctl.underway_ite, Ctl.withStore_underway, count_underway, ite_self]

@[simp] theorem noteReads_underway (m : Mem) (ws : List Nat) (c : Ctl) : (noteReads m ws c).underway = c.underway :=
  foldl_underway (fun c w => noteRead_underway m w c) ws c

@[simp] theorem touchRow_underway (pc bk row n : Nat) (c : Ctl) : (touchRow pc bk row n c).underway = c.underway := by
  simp [touchRow]

@[simp] theorem touchHbm_underway (a n : Nat) (c : Ctl) : (touchHbm a n c).underway = c.underway :=
  foldl_underway (fun c _ => touchRow_underway _ _ _ _ c) _ c

@[simp] theorem touchPage_underway (fa : Nat) (big : Bool) (c : Ctl) : (touchPage fa big c).underway = c.underway := rfl
@[simp] theorem touchFrames_underway (ws : List Nat) (c : Ctl) : (touchFrames ws c).underway = c.underway :=
  foldl_underway (fun c _ => touchPage_underway _ _ c) _ c

@[simp] theorem noteVector_underway (m : Mem) (no idx : Nat) (p : Port) (c : Ctl) :
    (noteVector m no idx p c).underway = c.underway := by
  simp [noteVector, foldl_underway]

/-! ### Transfers of the stream engines -/

@[simp] theorem leaveSlots_underway (m : Mem) (j : Job) (x : Xfer) (rest : List Xfer) (c : Ctl) :
    (leaveSlots m j x rest c).underway = c.underway := by
  have tags (b : Bool) (ks : List Nat) (c : Ctl) : (setAll (if b then setFull else setEmpty) ks c).underway = c.underway ∧
      (setAll (if b then setEmpty else setFull) ks c).underway = c.underway := by cases b <;> simp
  unfold leaveSlots
  cases c.streamPos x with
  | none => rfl
  | some p =>
    dsimp only
    cases j.handle? (tMemHandle (j.stream x.record)) <;> simp [tags]

@[simp] theorem reap_underway (m : Mem) (x : Xfer) (c : Ctl) : (reap m x c).underway = c.underway := rfl
@[simp] theorem deliver_underway (m : Mem) (x : Xfer) (c : Ctl) : (deliver m x c).underway = c.underway := by
  unfold deliver
  dsimp only
  split <;> simp

@[simp] theorem deliverAll_underway (no n : Nat) (m : Mem) (c : Ctl) : (deliverAll no n m c).underway = c.underway := by
  induction n generalizing m c with
  | zero => rfl
  | succ n ih =>
    rw [deliverAll]
    split
    · rfl
    · rw [ih]
      simp

@[simp] theorem voidParts_underway (m : Mem) (no : Nat) (c : Ctl) : (voidParts m no c).underway = c.underway := by
  unfold voidParts
  split
  · rfl
  · exact foldl_underway (fun c (x : Handle × Nat × Nat) => voidPart_underway x.1 x.2.1 x.2.2 c) _ _

@[simp] theorem saveStreams_underway (no : Nat) (c : Ctl) : (saveStreams no c).underway = c.underway :=
  Ctl.mapJob_underway no _ c fun _ => rfl

/-! ### Drains of the Plane -/

@[simp] theorem chargeEngine_underway (tile cls hbm noc : Nat) (c : Ctl) :
    (chargeEngine tile cls hbm noc c).underway = c.underway := rfl

theorem payFor_underway (cls : Nat) (need : List (Nat × Nat × Nat)) (c : Ctl) :
    (payFor cls need c).2.underway = c.underway := by
  refine foldl_keeps (fun a : Bool × Ctl => a.2.underway) (fun a t => ?_) _ _
  simp only [apply_ite Prod.snd, Ctl.underway_ite, count_underway, Ctl.withPlane_underway, chargeEngine_underway, ite_self]

theorem payFor_granted_underway {cls : Nat} {need : List (Nat × Nat × Nat)} {c c' : Ctl} {granted : Bool}
    (h : payFor cls need c = (granted, c')) : c'.underway = c.underway := by
  simpa [h] using payFor_underway cls need c

theorem writeRuns_underway (qs : List (Nat × OutRun)) (m : Mem) (c : Ctl) : (writeRuns qs m c).2.1.underway = c.underway := by
  induction qs generalizing m c with
  | nil => rfl
  | cons q qs ih =>
    rw [writeRuns]
    dsimp only
    rw [ih]
    simp

theorem putRuns_underway {j : Job} {op : Nat} {want : Option Nat → Bool} {qs : List OutRun} {tagged : Bool} {m m' : Mem}
    {c c' : Ctl} {w : List Wr} (h : putRuns j op want qs tagged m c = .ok (m', c', w)) : c'.underway = c.underway := by
  unfold putRuns at h
  dsimp only at h
  split at h
  · cases h
  · split at h
    · cases h
    · obtain rfl : _ = c' := congrArg (·.2.1) (Except.ok.inj h)
      exact writeRuns_underway _ m c

theorem writeRows_underway {m : Mem} {d : Drain} {j : Job} {xs : List RowAt} {want : Option Nat → Bool} {c c' : Ctl}
    {w : List Wr} (h : writeRows m d j xs want c = .ok (c', w)) : c'.underway = c.underway := by
  unfold writeRows at h
  dsimp only at h
  split at h
  · cases h
  · split at h
    · cases h
    · rename_i hpay
      split at h
      · cases h
      · rename_i hput
        split at h
        · cases h
        · rename_i hput'
          obtain rfl : _ = c' := congrArg (·.1) (Except.ok.inj h)
          simp [putRuns_underway hput', putRuns_underway hput, payFor_granted_underway hpay]

theorem scatterRows_underway {j : Job} {r : Nat} {d : Drain} {xs : List RowAt} {need need' : List (Nat × Nat × Nat)}
    {u u' : List Wr} {m : Mem} {c c0 c' : Ctl} (h : scatterRows j r d xs need u m c c0 = .ok (c', need', u')) :
    c'.underway = c.underway := by
  induction xs generalizing need u m c with
  | nil =>
    cases h
    rfl
  | cons x xs ih =>
    rw [scatterRows] at h
    dsimp only at h
    split at h
    split at h
    · cases h
    · split at h
      · cases h
      · rename_i hput
        rw [ih h]
        simp [putRuns_underway hput]

@[simp] theorem freeDrain_underway (c : Ctl) : (freeDrain c).underway = c.underway := by
  unfold freeDrain
  split
  · rfl
  · simp [freeRegisters]

theorem completeDrain_underway {m : Mem} {d : Drain} {j : Job} {c c' : Ctl} (h : completeDrain m d j c = .ok c') :
    c'.underway = c.underway := by
  unfold completeDrain at h
  dsimp only at h
  split at h
  · split at h
    · rename_i hput
      cases h
      simp [putRuns_underway hput]
    · cases h
  · split at h
    · split at h
      · cases h
      · rename_i hrows
        split at h
        · cases h
        · cases h
          simp [scatterRows_underway hrows]
    · split at h
      · cases h
      · rename_i hrows
        cases h
        simp [writeRows_underway hrows]

@[simp] theorem finishDrain_underway (m : Mem) (c : Ctl) : (finishDrain m c).underway = c.underway := by
  unfold finishDrain
  split
  · rfl
  · split
    · simp
    · split
      · rename_i h
        exact completeDrain_underway h
      · rfl

@[simp] theorem undoDrain_underway (c : Ctl) : (undoDrain c).underway = c.underway := by
  unfold undoDrain
  split <;> simp

@[simp] theorem settleCut_underway (m : Mem) (no idx : Nat) (c : Ctl) : (settleCut m no idx c).underway = c.underway := by
  unfold settleCut
  dsimp only
  split
  · rfl
  · split
    · rfl
    · split
      · simp
      · split
        · rename_i h
          simp [completeDrain_underway h]
        · rfl

@[simp] theorem closeCommand_underway (j : Job) (i : Nat) (c : Ctl) : (closeCommand j i c).underway = c.underway := by
  unfold closeCommand
  simp only [onExec_underway, Ctl.underway_ite, count_underway, ite_self]
  -- what is left are the releases and the signal, each through a handle that the job may not have
  repeat' split
  all_goals simp

@[simp] theorem closeEarlier_underway (no idx : Nat) (c : Ctl) : (closeEarlier no idx c).underway = c.underway := by
  unfold closeEarlier
  split
  · rfl
  · refine foldl_underway (fun c i => ?_) _ _
    split
    · simp
    · rfl

@[simp] theorem settleDrain_underway (m : Mem) (no idx : Nat) (c : Ctl) : (settleDrain m no idx c).underway = c.underway := by
  unfold settleDrain
  dsimp only
  rw [closeEarlier_underway, settleCut_underway]
  split <;> simp

@[simp] theorem dropDrain_underway (no : Nat) (c : Ctl) : (dropDrain no c).underway = c.underway := by
  unfold dropDrain
  dsimp only
  split
  · rw [setAllEmpty_underway, emit_underway, Ctl.mapJob_exec_underway]
    split <;> simp
  · split <;> simp

@[simp] theorem leavePlane_underway (m : Mem) (j : Job) (idx : Nat) (c : Ctl) : (leavePlane m j idx c).underway = c.underway :=
  settleDrain_underway m j.no idx c

/-! ### Links, host transfers and results -/

@[simp] theorem pushPacket_underway (port type : Nat) (pk : XwPacket) (c : Ctl) :
    (pushPacket port type pk c).underway = c.underway := by
  simp [pushPacket, launch]

@[simp] theorem tellMembers_underway (type : Nat) (j : Job) (words : List XwWord) (c : Ctl) :
    (tellMembers type j words c).underway = c.underway := by
  refine foldl_underway (fun c k => ?_) _ _
  split <;> simp

@[simp] theorem dropLinks_underway (no : Nat) (c : Ctl) : (dropLinks no c).underway = c.underway := rfl
@[simp] theorem voidXfer_underway (x : HostXfer) (c : Ctl) : (voidXfer x c).underway = c.underway := by
  unfold voidXfer
  dsimp only
  split <;> simp [dropXfer]

@[simp] theorem voidHost_underway (j : Job) (c : Ctl) : (voidHost j c).underway = c.underway :=
  foldl_underway (fun c x => voidXfer_underway x c) _ _

@[simp] theorem freeFrames_underway (j : Job) (c : Ctl) : (freeFrames j c).underway = c.underway := rfl
@[simp] theorem endSlots_underway (j : Job) (c : Ctl) : (endSlots j c).underway = c.underway :=
  foldl_underway (fun c p => by simp) _ _

@[simp] theorem sendResult_underway (m : Mem) (j : Job) (rp : Reply) (c : Ctl) :
    (sendResult m j rp c).underway = c.underway := by
  unfold sendResult
  extract_lets release parts read all max trunc counted body sizes pieces
  have hrelease (c : Ctl) : (release c).underway = c.underway := by
    unfold release
    split
    · exact foldl_underway (fun c h => by split <;> simp) _ _
    · rfl
  have hcounted : counted.underway = c.underway := by simp [counted, read]
  split
  · simp [hrelease]
  · rw [hrelease, foldl_underway fun c i => send_underway _ c, takeFree_underway, hcounted]

@[simp] theorem flushReplies_underway (m : Mem) (j : Job) (c : Ctl) : (flushReplies m j c).underway = c.underway := by
  refine foldl_underway (fun c rp => ?_) _ _
  split <;> simp

end Sys2Proof.Machine
end

section
/-! SUPPORT. The end of a job as the drain of an entry sees it, and the drain itself when PWR_ENTRY_DRAIN has passed (13 R407;
16 R483). -/

namespace Sys2Proof.Machine

/-! ### One job ends -/

/-- A job numbered `no` is marked as ended. -/
def markEnded (no : Nat) (x : Nat × Bool × Bool) : Nat × Bool × Bool := if x.1 = no then (x.1, false, true) else x

theorem markEnded_fst (no : Nat) (x : Nat × Bool × Bool) : (markEnded no x).1 = x.1 := by
  unfold markEnded
  split <;> rfl

theorem markEnded_ended {no : Nat} {x : Nat × Bool × Bool} (h : x.1 = no ∨ x.2.2 = true) : (markEnded no x).2.2 = true := by
  by_cases hx : x.1 = no
  · simp [markEnded, hx]
  · simp [markEnded, hx, h.resolve_left hx]

theorem find_map_markEnded (n no : Nat) (l : List (Nat × Bool × Bool)) :
    ((l.map (markEnded no)).find? fun x => decide (x.1 = n)) = (l.find? fun x => decide (x.1 = n)).map (markEnded no) := by
  simp only [List.find?_map, Function.comp_def, markEnded_fst]

theorem find_filter_ne {n no : Nat} (hn : n ≠ no) (l : List (Nat × Bool × Bool)) :
    ((l.filter fun x => decide (x.1 ≠ no)).find? fun x => decide (x.1 = n)) = l.find? fun x => decide (x.1 = n) := by
  rw [List.find?_filter]
  congr 1
  funext x
  by_cases hx : x.1 = n <;> simp [hx, hn]

/-- From `a` to `b` the job numbered `no` has ended: it is gone, or it stays as an ended one; nothing else that a drain waits
for has changed. -/
def Ctl.EndsJob (no : Nat) (a b : Ctl) : Prop :=
  b.intakes = a.intakes ∧
  ((b.roster = a.roster.filter fun x => decide (x.1 ≠ no)) ∨ b.roster = a.roster.map (markEnded no))

theorem Ctl.EndsJob.congr {no : Nat} {a a' b b' : Ctl} (ha : a'.underway = a.underway) (hb : b'.underway = b.underway)
    (h : a.EndsJob no b) : a'.EndsJob no b' := by
  rwa [Ctl.EndsJob, roster_of_underway ha, roster_of_underway hb, intakes_of_underway ha, intakes_of_underway hb]

theorem Ctl.endsJob_mapJob (c : Ctl) (no : Nat) {mark : Job → Job} (hmark : ∀ k, (mark k).face = (k.no, false, true)) :
    c.EndsJob no (c.mapJob no mark) := by
  refine ⟨rfl, .inr ?_⟩
  rw [Ctl.roster, Ctl.mapJob_jobs, Ctl.roster, List.map_map, List.map_map]
  refine List.map_congr_left fun k _ => ?_
  by_cases hk : k.no = no
  · simp only [Function.comp_apply, if_pos hk, hmark]
    exact (if_pos hk).symm
  · simp [hk, markEnded, Job.face]

theorem Ctl.endsJob_filter (c : Ctl) (no : Nat) : c.EndsJob no { c with jobs := c.jobs.filter fun k => k.no ≠ no } := by
  refine ⟨rfl, .inl ?_⟩
  rw [Ctl.roster, Ctl.roster, List.filter_map]
  rfl

/-- A job that has not ended ends, and no other (R407). -/
theorem endJobWith_endsJob (detail : List Byte) (m : Mem) {no : Nat} (st : KS) (list idx tag : Nat) {c : Ctl} {j : Job}
    (hj : c.job? no = some j) (he : j.ended = false) : c.EndsJob no (endJobWith detail m no st list idx tag c) := by
  unfold endJobWith
  simp -zeta only [hj, he, Bool.false_eq_true, if_false]
  extract_lets left hit faulted delivered saved flushed seq told unlinked voided kept emptied dropped freed mark ended sent
    endAnswered admitAnswered
  have hflushed : flushed.underway = c.underway := by simp [flushed, saved, delivered, faulted, left]
  have hfreed : c.underway = freed.underway := by simp [freed, dropped, emptied, voided, unlinked, told, hflushed]
  have hended : freed.EndsJob no ended := by
    unfold ended
    split
    · exact freed.endsJob_mapJob no fun _ => rfl
    · exact freed.endsJob_filter no
  have hend : endAnswered.underway = ended.underway := by
    unfold endAnswered
    split <;> simp [sent]
  have hadmit : admitAnswered.underway = ended.underway := by
    unfold admitAnswered
    split <;> simp [hend]
  split
  · exact hended.congr hfreed (by simp [hadmit])
  · exact hended.congr hfreed hadmit

/-! ### What winds down stays wound down -/

/-- No job that has not ended is found under a number. -/
def Ctl.jobOver (c : Ctl) (no : Nat) : Prop := ∀ k, c.job? no = some k → k.ended = true

theorem Ctl.jobOver_iff (c : Ctl) (no : Nat) :
    c.jobOver no ↔ ∀ x ∈ c.roster.find? fun x => decide (x.1 = no), x.2.2 = true := by
  have hfind : (c.roster.find? fun x => decide (x.1 = no)) = (c.job? no).map Job.face := List.find?_map ..
  simp [hfind, Ctl.jobOver, Job.face]

/-- From `a` to `b` runs only end: the intake contexts stay, jobs that are over stay over, no job begins to run, and no
number comes up twice that did not. -/
structure Ctl.WindsDown (a b : Ctl) : Prop where
  intakes : b.intakes = a.intakes
  jobOver : ∀ no, a.jobOver no → b.jobOver no
  running : ∀ no, (no, true, false) ∈ b.roster → (no, true, false) ∈ a.roster
  nodup : (a.roster.map Prod.fst).Nodup → (b.roster.map Prod.fst).Nodup

theorem Ctl.WindsDown.of_underway {a b : Ctl} (h : b.underway = a.underway) : a.WindsDown b := by
  have hr := roster_of_underway h
  refine ⟨intakes_of_underway h, fun no hno => ?_, fun no hno => hr ▸ hno, fun hd => hr ▸ hd⟩
  rwa [jobOver_iff, hr, ← jobOver_iff]

theorem Ctl.WindsDown.refl (a : Ctl) : a.WindsDown a := .of_underway rfl
theorem Ctl.WindsDown.trans {a b c : Ctl} (h : a.WindsDown b) (h' : b.WindsDown c) : a.WindsDown c :=
  ⟨h'.intakes.trans h.intakes, fun no => h'.jobOver no ∘ h.jobOver no, fun no => h.running no ∘ h'.running no,
    h'.nodup ∘ h.nodup⟩

theorem Ctl.EndsJob.jobOver {no : Nat} {a b : Ctl} (h : a.EndsJob no b) : b.jobOver no := by
  obtain ⟨-, hr | hr⟩ := h <;> rw [jobOver_iff, hr]
  · intro x hx
    have hne : x.1 ≠ no := by simpa using List.of_mem_filter (List.mem_of_find?_eq_some hx)
    exact absurd (by simpa using List.find?_some hx) hne
  · rw [find_map_markEnded]
    simp only [Option.mem_def, Option.map_eq_some_iff]
    rintro _ ⟨x, hx, rfl⟩
    exact markEnded_ended (.inl (by simpa using List.find?_some hx))

theorem Ctl.EndsJob.windsDown {no : Nat} {a b : Ctl} (h : a.EndsJob no b) : a.WindsDown b := by
  have hno := h.jobOver
  obtain ⟨hi, hr | hr⟩ := h
  · refine ⟨hi, fun n hn => ?_, fun n => ?_, fun hd => ?_⟩
    · obtain rfl | hne := eq_or_ne n no
      · exact hno
      · rwa [jobOver_iff, hr, find_filter_ne hne, ← jobOver_iff]
    · rw [hr]
      exact List.mem_of_mem_filter
    · rw [hr]
      exact hd.sublist (List.filter_sublist.map _)
  · refine ⟨hi, fun n hn => ?_, fun n => ?_, fun hd => ?_⟩
    · rw [jobOver_iff] at hn ⊢
      rw [hr, find_map_markEnded]
      simp only [Option.mem_def, Option.map_eq_some_iff]
      rintro _ ⟨x, hx, rfl⟩
      exact markEnded_ended (.inr (hn x hx))
    · rw [hr, List.mem_map]
      rintro ⟨x, hx, hmark⟩
      by_cases hxn : x.1 = no
      · simp [markEnded, hxn] at hmark
      · rw [markEnded, if_neg hxn] at hmark
        exact hmark ▸ hx
    · simpa [hr, Function.comp_def, markEnded_fst] using hd

/-- The end of a job: it is over, and nothing begins. -/
theorem endJob_windsDown (m : Mem) (no : Nat) (st : KS) (list idx tag : Nat) (c : Ctl) :
    c.WindsDown (endJob m no st list idx tag c) ∧ (endJob m no st list idx tag c).jobOver no := by
  cases hj : c.job? no with
  | none =>
    have hsame : endJob m no st list idx tag c = c := by simp [endJob, endJobWith, hj]
    rw [hsame]
    exact ⟨.refl c, by simp [Ctl.jobOver, hj]⟩
  | some j =>
    cases he : j.ended with
    | true =>
      have hsame : endJob m no st list idx tag c = c := by simp [endJob, endJobWith, hj, he]
      rw [hsame]
      exact ⟨.refl c, by simp [Ctl.jobOver, hj, he]⟩
    | false =>
      have h := endJobWith_endsJob [] m st list idx tag hj he
      exact ⟨h.windsDown, h.jobOver⟩

theorem failJob_windsDown (m : Mem) (no : Nat) (st : KS) (c : Ctl) :
    c.WindsDown (failJob m no st c) ∧ (failJob m no st c).jobOver no := by
  unfold failJob
  split
  · exact endJob_windsDown m no st 4 _ _ c
  · rename_i hj
    exact ⟨.refl c, by simp [Ctl.jobOver, hj]⟩

theorem foldl_windsDown {α : Type} {f : Ctl → α → Ctl} (h : ∀ (c : Ctl) x, c.WindsDown (f c x)) (l : List α) (c : Ctl) :
    c.WindsDown (l.foldl f c) := by
  induction l generalizing c with
  | nil => exact .refl c
  | cons x l ih => exact (h c x).trans (ih (f c x))

/-- A job that one step of a fold ends is over after the fold. -/
theorem foldl_jobOver {α : Type} {f : Ctl → α → Ctl} (h : ∀ (c : Ctl) x, c.WindsDown (f c x)) {l : List α} {x : α} (hx : x ∈ l)
    {no : Nat} (hno : ∀ c, (f c x).jobOver no) (c : Ctl) : (l.foldl f c).jobOver no := by
  induction l generalizing c with
  | nil => cases hx
  | cons y l ih =>
    obtain rfl | hx := List.mem_cons.mp hx
    · exact (foldl_windsDown h l _).jobOver no (hno c)
    · exact ih hx (f c y)

/-! ### What is drained -/

theorem Ctl.running_mem_roster (c : Ctl) (no : Nat) :
    (no, true, false) ∈ c.roster ↔ ∃ j ∈ c.jobs, j.no = no ∧ j.running.isSome = true ∧ j.ended = false := by
  simp [Ctl.roster, Job.face]

theorem Ctl.drained_iff (c : Ctl) : c.drained = true ↔ (∀ no, (no, true, false) ∉ c.roster) ∧
    ∀ n < 64, (c.intake n).frozen = true ∨
      ((c.intake n).busy = false ∧ (c.intake n).dropping = false ∧ (c.intake n).ended = []) := by
  rw [Ctl.drained, Bool.and_eq_true]
  refine and_congr ?_ ?_
  · simp only [running_mem_roster, Bool.not_eq_true', List.any_eq_false, Bool.and_eq_true]
    grind
  · simp [and_assoc]

/-- Where no number comes up twice, a job that is over does not run. -/
theorem Ctl.not_running_of_jobOver {c : Ctl} {no : Nat} (hd : (c.roster.map Prod.fst).Nodup) (ho : c.jobOver no) :
    (no, true, false) ∉ c.roster := by
  intro hmem
  have hfound : (c.roster.find? fun x => decide (x.1 = no)).isSome = true :=
    List.find?_isSome.mpr ⟨_, hmem, decide_eq_true rfl⟩
  obtain ⟨x, hx⟩ := Option.isSome_iff_exists.mp hfound
  have hxn : x.1 = no := by simpa using List.find?_some hx
  have hxe : x.2.2 = true := (c.jobOver_iff no).mp ho x hx
  have hsame : x = (no, true, false) := List.inj_on_of_nodup_map hd (List.mem_of_find?_eq_some hx) hmem hxn
  simp [hsame] at hxe

/-! ### PWR_ENTRY_DRAIN has passed (R483) -/

/-- The run of a job, and one that waits behind it, end with the entry and are counted. -/
def endRunning (m : Mem) (c : Ctl) (j : Job) : Ctl :=
  if j.running.isNone ∨ j.ended then c
  else
    let n := 1 + b2n j.waiting.isSome
    count .pwrRunEnded 0 n ((failJob m j.no .powerState c).withPower fun p => { p with ended := p.ended + n })

theorem endRunning_windsDown (m : Mem) (c : Ctl) (j : Job) : c.WindsDown (endRunning m c j) := by
  unfold endRunning
  split
  · exact .refl c
  · exact (failJob_windsDown m j.no .powerState c).1.trans (.of_underway (by simp))

theorem endRunning_jobOver (m : Mem) {j : Job} (hr : j.running.isSome = true) (he : j.ended = false) (c : Ctl) :
    (endRunning m c j).jobOver j.no := by
  have hrun : ¬(j.running.isNone = true ∨ j.ended = true) := by simp [he, Option.isSome_iff_ne_none.mp hr]
  have hfail := (failJob_windsDown m j.no .powerState c).2
  rw [endRunning, if_neg hrun]
  exact (Ctl.WindsDown.of_underway (by simp)).jobOver j.no hfail

theorem replyEntry_windsDown (m : Mem) (c : Ctl) : c.WindsDown (replyEntry m c) := by
  unfold replyEntry
  extract_lets target jobsEnded answered
  have hjobs : c.WindsDown jobsEnded := by
    unfold jobsEnded
    split
    · exact .refl c
    · exact foldl_windsDown (fun c (j : Job) => (endJob_windsDown m j.no .powerState 4 j.lastIndex j.lastTag c).1) _ _
  have hanswer : jobsEnded.WindsDown answered := by
    unfold answered
    split
    · exact .of_underway (by simp)
    · exact .refl _
  exact (hjobs.trans hanswer).trans (.of_underway (by simp))

@[simp] theorem replyEntry_stage (m : Mem) (c : Ctl) : (replyEntry m c).power.stage = .powerDown := rfl
@[simp] theorem replyEntry_enterReq (m : Mem) (c : Ctl) : (replyEntry m c).power.enterReq = none := rfl

theorem drainOver_early {m : Mem} {c : Ctl} (h : c.clk.ns < c.power.enterAt + 1000000 * c.param 0x1006) :
    drainOver m c = c := by
  simp [drainOver, h]

section
variable (m : Mem) {c : Ctl} (hs : c.power.stage = .entering)
  (h : c.power.enterAt + 1000000 * c.param 0x1006 ≤ c.clk.ns)
include hs h
theorem drainOver_late : drainOver m c =
    if (c.jobs.foldl (endRunning m) c).drained then
      replyEntry (m.apply (c.jobs.foldl (endRunning m) c).wq) (c.jobs.foldl (endRunning m) c)
    else c.jobs.foldl (endRunning m) c := by
  simp only [drainOver, hs, not_lt.mpr h, ne_eq, not_true_eq_false, or_self, if_false]
  rfl

/-- Every job that still ran is over. -/
theorem drainOver_jobOver {j : Job} (hj : j ∈ c.jobs) (hr : j.running.isSome = true) (he : j.ended = false) :
    (drainOver m c).jobOver j.no := by
  have hover := foldl_jobOver (endRunning_windsDown m) hj (endRunning_jobOver m hr he) c
  rw [drainOver_late m hs h]
  split
  · exact (replyEntry_windsDown _ _).jobOver _ hover
  · exact hover

/-- With no frame left in an intake context the entry goes on. -/
theorem drainOver_goesOn (hn : (c.jobs.map (·.no)).Nodup) (hi : ∀ n < 64, (c.intake n).frozen = true ∨
      ((c.intake n).busy = false ∧ (c.intake n).dropping = false ∧ (c.intake n).ended = [])) :
    (drainOver m c).power.stage = .powerDown ∧ (drainOver m c).power.enterReq = none := by
  have hdown := foldl_windsDown (endRunning_windsDown m) c.jobs c
  have hnodup : (c.roster.map Prod.fst).Nodup := by simpa [Ctl.roster, Job.face, Function.comp_def] using hn
  have hdrained : (c.jobs.foldl (endRunning m) c).drained = true := by
    rw [Ctl.drained_iff]
    refine ⟨fun no hno => ?_, by simpa only [Ctl.intake, hdown.intakes] using hi⟩
    obtain ⟨j, hj, rfl, hr, he⟩ := (c.running_mem_roster no).mp (hdown.running no hno)
    have hover := foldl_jobOver (endRunning_windsDown m) hj (endRunning_jobOver m hr he) c
    exact Ctl.not_running_of_jobOver (hdown.nodup hnodup) hover hno
  simp only [drainOver_late m hs h, hdrained, if_true, replyEntry_stage, replyEntry_enterReq, and_self]

end

end Sys2Proof.Machine
end

section
/-! SUPPORT. What counting does to one counter, and what a command that runs one effect answers: when it changes nothing, when it
answers exactly its effect, and what it has counted (17 R513, R514). -/

namespace Sys2Proof

theorem SMap.get_filter_key {α : Type} (d : α) (p : Nat → Bool) {k : Nat} (hk : p k = true) (m : List (Nat × α)) :
    SMap.get d (m.filter fun x => p x.1) k = SMap.get d m k := by
  induction m with
  | nil => rfl
  | cons x m ih =>
    obtain ⟨j, v⟩ := x
    rw [List.filter_cons]
    split
    · rw [SMap.get, SMap.get, ih]
    · rename_i hp
      have hne : k ≠ j := fun e => hp (e ▸ hk)
      rw [ih, SMap.get, if_neg hne]

theorem SMap.get_of_unlisted {α : Type} (d : α) {m : List (Nat × α)} {k : Nat} (h : ∀ v, (k, v) ∉ m) : SMap.get d m k = d := by
  induction m with
  | nil => rfl
  | cons x m ih =>
    obtain ⟨j, v⟩ := x
    have hne : k ≠ j := fun e => h v (by simp [e])
    rw [SMap.get, if_neg hne, ih fun v hv => h v (List.mem_cons_of_mem _ hv)]

end Sys2Proof

namespace Sys2Proof.Machine

/-! ### One counter -/

theorem Ctl.counter_of_counters {a b : Ctl} (h : a.counters = b.counters) (k : Cnt) (i : Nat) : a.counter k i = b.counter k i := by
  rw [Ctl.counter, Ctl.counter, h]

/-- The counters of packets and reports, which count beside what a command counts. -/
def Cnt.reports (k : Cnt) : Bool := k = .proTx || k = .svcServiceEvent || k = .svcOverflow

theorem countRaw_counter (k : Cnt) (i n : Nat) (c : Ctl) (k' : Cnt) (i' : Nat) :
    (countRaw k i n c).counter k' i' =
      if k' = k ∧ i' = i then (countValue k.info.2.2 (c.counter k i) n).1 else c.counter k' i' := by
  simp only [countRaw, Ctl.counter, SMap.get_put, Cnt.key_inj]

theorem countRaw_counter_ne {k k' : Cnt} (hk : k' ≠ k) (i n i' : Nat) (c : Ctl) :
    (countRaw k i n c).counter k' i' = c.counter k' i' := by
  rw [countRaw_counter, if_neg fun h => hk h.1]

section
variable {k : Cnt} (hk : k.reports = false) (i : Nat)
include hk

theorem Cnt.ne_of_reports : k ≠ .proTx ∧ k ≠ .svcServiceEvent ∧ k ≠ .svcOverflow := by
  simpa [Cnt.reports, and_assoc] using hk

theorem send_counter (p : Packet) (c : Ctl) : (send p c).counter k i = c.counter k i := by
  unfold send
  split
  · exact countRaw_counter_ne (Cnt.ne_of_reports hk).1 _ _ i _
  · rfl

theorem event_counter (code job status list idx tag : Nat) (detail : List Byte) (more : List Peer) (c : Ctl) :
    (event code job status list idx tag detail more c).counter k i = c.counter k i :=
  foldl_keeps (fun c : Ctl => c.counter k i) (fun c _ => send_counter hk i _ c) _ _

theorem serviceEvent_counter (kind block inst value : Nat) (c : Ctl) :
    (serviceEvent kind block inst value c).counter k i = c.counter k i := by
  unfold serviceEvent
  dsimp only
  split
  · rfl
  · rw [event_counter hk, countRaw_counter_ne (Cnt.ne_of_reports hk).2.1]
    rfl

theorem overflow_counter (kind block inst value : Nat) (c : Ctl) :
    (countRaw .svcOverflow 0 1 (serviceEvent kind block inst value c)).counter k i = c.counter k i := by
  rw [countRaw_counter_ne (Cnt.ne_of_reports hk).2.2, serviceEvent_counter hk]

/-- Counting changes the counter it names, and beside it those of packets and reports alone. -/
theorem count_counter (k' : Cnt) (i' : Nat) {n : Nat} (hn : n ≠ 0) (c : Ctl) :
    (count k' i' n c).counter k i =
      if k = k' ∧ i = i' then (countValue k'.info.2.2 (c.counter k' i') n).1 else c.counter k i := by
  rw [← countRaw_counter, count, if_neg hn]
  dsimp only
  split
  · exact overflow_counter hk i _ _ _ _ _
  · rfl

theorem count_counter_self {n : Nat} (hn : n ≠ 0) (c : Ctl) :
    (count k i n c).counter k i = (countValue k.info.2.2 (c.counter k i) n).1 := by
  rw [count_counter hk i k i hn, if_pos ⟨rfl, rfl⟩]

theorem count_counter_ne {k' : Cnt} (hne : k ≠ k') (i' : Nat) {n : Nat} (hn : n ≠ 0) (c : Ctl) :
    (count k' i' n c).counter k i = c.counter k i := by
  rw [count_counter hk i k' i' hn, if_neg fun h => hne h.1]

theorem reportOverflows_counter (b : Ctl) (n : Nat) (c : Ctl) : (reportOverflows b n c).counter k i = c.counter k i := by
  induction n generalizing b c with
  | zero => rfl
  | succ n ih =>
    unfold reportOverflows
    dsimp only
    split
    · rfl
    · rw [ih]
      exact foldl_keeps (fun c : Ctl => c.counter k i) (fun c _ => overflow_counter hk i _ _ _ _ c) _ _

theorem State.run_counter (f : Mem → Ctl → Ctl) (s : State) : (s.run f).ctl.counter k i = (f s.mem s.ctl).counter k i :=
  reportOverflows_counter hk i s.ctl 4 _

end

/-! ### The reports at a command's end -/

@[simp] theorem reportOverflows_clk (b : Ctl) (n : Nat) (c : Ctl) : (reportOverflows b n c).clk = c.clk :=
  Ctl.clk_of_quiet (reportOverflows_quiet b n c)

@[simp] theorem reportOverflows_params (b : Ctl) (n : Nat) (c : Ctl) : (reportOverflows b n c).params = c.params :=
  Ctl.params_of_quiet (reportOverflows_quiet b n c)

@[simp] theorem reportOverflows_slotTags (b : Ctl) (n : Nat) (c : Ctl) : (reportOverflows b n c).slotTags = c.slotTags :=
  Ctl.slotTags_of_quiet (reportOverflows_quiet b n c)

@[simp] theorem reportOverflows_jobs (b : Ctl) (n : Nat) (c : Ctl) : (reportOverflows b n c).jobs = c.jobs :=
  Ctl.jobs_of_quiet (reportOverflows_quiet b n c)

@[simp] theorem reportOverflows_sec (b : Ctl) (n : Nat) (c : Ctl) : (reportOverflows b n c).sec = c.sec :=
  Ctl.sec_of_quiet (reportOverflows_quiet b n c)

@[simp] theorem reportOverflows_power (b : Ctl) (n : Nat) (c : Ctl) : (reportOverflows b n c).power = c.power :=
  Ctl.power_of_quiet (reportOverflows_quiet b n c)

@[simp] theorem reportOverflows_pins (b : Ctl) (n : Nat) (c : Ctl) : (reportOverflows b n c).pins = c.pins :=
  Ctl.pins_of_quiet (reportOverflows_quiet b n c)

@[simp] theorem reportOverflows_proto_unsync (b : Ctl) (n : Nat) (c : Ctl) :
    (reportOverflows b n c).proto.unsync = c.proto.unsync := Ctl.proto_unsync_of_quiet (reportOverflows_quiet b n c)

/-- An effect that counts nothing has no overflow to report. -/
theorem overflowed_of_counters {b c : Ctl} (h : c.counters = b.counters) : overflowed b c = [] := by
  simp [overflowed, Ctl.counter_of_counters h]

/-! ### What a command answers -/

section
variable {i : Instr} {s : State} {f : Mem → Ctl → Ctl}

theorem State.run_eq_withCtl {c : Ctl} (hf : f s.mem s.ctl = c) (hw : c.wq = []) (hc : c.counters = s.ctl.counters) :
    s.run f = s.withCtl c := by
  subst hf
  rw [State.run_of_wq hw, reportOverflows_of_none (overflowed_of_counters hc)]
  rfl

/-- An effect that writes and counts nothing is all that its command answers. -/
theorem exec_eq_withCtl {c : Ctl} (hi : exec i s = .next (s.run f)) (hf : f s.mem s.ctl = c) (hw : c.wq = [])
    (hc : c.counters = s.ctl.counters) : exec i s = .next (s.withCtl c) := by
  rw [hi, State.run_eq_withCtl hf hw hc]

theorem exec_eq_self (hs : s.ready) (hi : exec i s = .next (s.run f)) (hf : f s.mem s.ctl = s.ctl) : exec i s = .next s :=
  exec_eq_withCtl hi hf hs.2 rfl

theorem reaches_of_run {c : Ctl} (hi : exec i s = .next (s.run f)) (hw : (f s.mem s.ctl).wq = [])
    (hq : (f s.mem s.ctl).quiet = c.quiet) : reaches i s c :=
  ⟨s.run f, hi, (State.run_quiet_of_wq hw).trans hq, by simp [hw], rfl⟩

theorem sameMem_of_run (hw : (f s.mem s.ctl).wq = []) : sameMem s (s.run f) := ⟨by simp [hw], rfl⟩
theorem counted_of_run {k : Cnt} (hk : k.reports = false) {j n : Nat}
    (h : (f s.mem s.ctl).counter k j = (countValue k.info.2.2 (s.ctl.counter k j) n).1) : counted k j n s (s.run f) :=
  (State.run_counter hk j f s).trans h

end

end Sys2Proof.Machine
end

section
/-! SUPPORT. Entries and wakes: what a loss of the switched domains leaves, what a state reached does, what each wake source
does, and what a wake does (15 R468, R472; 16 R483 to R486, R491, R492). -/

namespace Sys2Proof.Machine

/-! ### Erased memories (Table 16.4) -/

/-- A byte that is 0, or is set to 0, and is set to nothing else, is 0 in the end. -/
theorem Mem.byteAt_apply_zero {ws : List Wr} {a : Nat} (hz : ∀ v, Wr.data a v ∈ ws → v = 0) {m : Mem}
    (h : m.byteAt a = 0 ∨ Wr.data a 0 ∈ ws) : (m.apply ws).byteAt a = 0 := by
  induction ws generalizing m with
  | nil => simpa using h
  | cons w ws ih =>
    refine ih (fun v hv => hz v (List.mem_cons_of_mem _ hv)) ?_
    rw [Mem.byteAt_write1]
    cases w with
    | data b v =>
      by_cases hab : a = b
      · subst hab
        exact .inl (by simpa using hz v (by simp))
      · simpa [hab] using h
    | tag b v => simpa using h
    | flaw b v => simpa using h

theorem Mem.data_mem_eraseWrites (m : Mem) {keep : Nat → Bool} {a : Nat} (ha : keep a = false) (v : Byte) :
    Wr.data a v ∈ m.eraseWrites keep ↔ v = 0 ∧ ∃ b, (a, b) ∈ m.bytes := by
  simp [Mem.eraseWrites, ha]
  grind

theorem Mem.byteAt_apply_erase (m : Mem) (keep : Nat → Bool) {a : Nat} (ha : keep a = false) :
    (m.apply (m.eraseWrites keep)).byteAt a = 0 := by
  refine Mem.byteAt_apply_zero (fun v hv => ((m.data_mem_eraseWrites ha v).mp hv).1) ?_
  by_cases hl : ∃ b, (a, b) ∈ m.bytes
  · exact .inr ((m.data_mem_eraseWrites ha 0).mpr ⟨rfl, hl⟩)
  · exact .inl (SMap.get_of_unlisted 0 (not_exists.mp hl))

/-! ### Frozen objects (R468, R472) -/

/-- OBJECT_ID counts from 1. -/
theorem recount_ids (l : List Frozen) : (recount l).map (·.id) = (List.range l.length).map (· + 1) := by
  refine List.ext_getElem (by simp [recount]) fun n h1 h2 => ?_
  simp [recount]

theorem kind_of_mem_recount {l : List Frozen} {f : Frozen} (h : f ∈ recount l) : ∃ g ∈ l, f.kind = g.kind := by
  obtain ⟨n, hn, rfl⟩ := List.getElem_of_mem h
  have hl : n < l.length := by simpa [recount] using hn
  exact ⟨l[n], List.getElem_mem hl, by simp [recount]⟩

theorem kind_of_mem_tilesOnly {l : List Frozen} {f : Frozen} (h : f ∈ tilesOnly l) : f.kind = 6 := by
  obtain ⟨g, hg, hk⟩ := kind_of_mem_recount h
  simpa [hk] using (List.mem_filter.mp hg).2

/-! ### The balls, and the causes of Lee mode -/

@[simp] theorem balls_params (c : Ctl) : (balls c).params = c.params := by unfold balls; split <;> rfl
@[simp] theorem balls_counters (c : Ctl) : (balls c).counters = c.counters := by unfold balls; split <;> rfl
@[simp] theorem balls_jobs (c : Ctl) : (balls c).jobs = c.jobs := by unfold balls; split <;> rfl
@[simp] theorem balls_sec (c : Ctl) : (balls c).sec = c.sec := by unfold balls; split <;> rfl
@[simp] theorem balls_power (c : Ctl) : (balls c).power = c.power := by unfold balls; split <;> rfl
@[simp] theorem balls_wq (c : Ctl) : (balls c).wq = c.wq := by unfold balls; split <;> rfl
@[simp] theorem balls_padHold (c : Ctl) : (balls c).pins.padHold = c.pins.padHold := by unfold balls; split <;> rfl
@[simp] theorem balls_aonPwrReq (c : Ctl) : (balls c).pins.aonPwrReq = c.pins.aonPwrReq := by unfold balls; split <;> rfl
@[simp] theorem setCause_params (b : Nat) (on : Bool) (c : Ctl) : (setCause b on c).params = c.params := rfl
@[simp] theorem setCause_counters (b : Nat) (on : Bool) (c : Ctl) : (setCause b on c).counters = c.counters := rfl
@[simp] theorem setCause_power (b : Nat) (on : Bool) (c : Ctl) : (setCause b on c).power = c.power := rfl
@[simp] theorem setCause_pins (b : Nat) (on : Bool) (c : Ctl) : (setCause b on c).pins = c.pins := rfl
@[simp] theorem setCause_wq (b : Nat) (on : Bool) (c : Ctl) : (setCause b on c).wq = c.wq := rfl

/-! ### A loss of the switched domains (R472, R486, Table 16.4) -/

/-- The control state without HBM and flash. -/
def Ctl.unstored (c : Ctl) : Ctl := { c with store := Store.reset }

theorem foldl_dropInstall_unstored (l : List BundleXfer) (c : Ctl) :
    (l.foldl (fun c t => if t.kind = 0 then dropInstall t.base t.size c else c) c).unstored = c.unstored :=
  foldl_keeps Ctl.unstored (fun c t => by split <;> rfl) l c

theorem wipe_leaves (hbm : Bool) (m : Mem) (c : Ctl) :
    (wipe hbm m c).params = c.params ∧ (wipe hbm m c).jobs = [] ∧
    (wipe hbm m c).pins.padHold = c.pins.padHold ∧ (wipe hbm m c).pins.aonPwrReq = c.pins.aonPwrReq ∧
    (wipe hbm m c).power.wakeCfg = c.power.wakeCfg ∧ (wipe hbm m c).power.wakeTimer = c.power.wakeTimer ∧
    (∀ f ∈ (wipe hbm m c).sec.frozen, f.kind = 6) ∧
    (wipe hbm m c).wq =
      c.wq ++ (m.apply c.wq).eraseWrites fun a => !((storeOf a).isSome || (!hbm && regionOf a == .hbm)) := by
  unfold wipe
  extract_lets m' lost erased dropped thawed keepPwr _ _ _ _ _ _ _ _ lossy
  have hstore : dropped.unstored = erased.unstored := foldl_dropInstall_unstored _ _
  have hparams : dropped.params = c.params := (congrArg Ctl.params hstore : dropped.unstored.params = erased.unstored.params)
  have hpins : dropped.pins = c.pins := (congrArg Ctl.pins hstore : dropped.unstored.pins = erased.unstored.pins)
  have hpower : dropped.power = c.power := (congrArg Ctl.power hstore : dropped.unstored.power = erased.unstored.power)
  have hwq : dropped.wq = erased.wq := (congrArg Ctl.wq hstore : dropped.unstored.wq = erased.unstored.wq)
  have hq := foldl_quiet (fun c (f : Frozen) => count .secThaw (f.kind - 1) 1 c) (fun c f => count_quiet _ _ _ c) thawed lossy
  simp only [balls_params, balls_jobs, balls_padHold, balls_aonPwrReq, balls_power, balls_sec, balls_wq,
    Ctl.params_of_quiet hq, Ctl.jobs_of_quiet hq, Ctl.pins_of_quiet hq, Ctl.power_of_quiet hq, Ctl.sec_of_quiet hq,
    Ctl.wq_of_quiet hq]
  exact ⟨hparams, rfl, (congrArg Pins.padHold hpins :), (congrArg Pins.aonPwrReq hpins :), (congrArg Power.wakeCfg hpower :),
    (congrArg Power.wakeTimer hpower :), fun f => kind_of_mem_tilesOnly, hwq⟩

/-- The key of a counter names its block. -/
theorem Cnt.block_key (k : Cnt) (i : Nat) : blockOfKey (k.key i) = k.info.1 := by
  have hmod : k.key i % 256 = k.ctorIdx := by
    have := k.ctorIdx_lt
    rw [Cnt.key]
    omega
  have hlist : cntList.getD k.ctorIdx .svcOverflow = k := by cases k <;> rfl
  rw [blockOfKey, hmod, hlist]

/-- The counters of the power block stay. -/
theorem wipe_counter {k : Cnt} (hk : k.reports = false) (hb : k.info.1 = 11) (i : Nat) (hbm : Bool) (m : Mem) (c : Ctl) :
    (wipe hbm m c).counter k i = c.counter k i := by
  have hthaw : k ≠ .secThaw := by
    rintro rfl
    cases hb
  unfold wipe
  extract_lets m' lost erased dropped thawed keepPwr _ _ _ _ _ _ _ _ lossy
  have hstore : dropped.unstored = erased.unstored := foldl_dropInstall_unstored _ _
  have hdropped : dropped.counters = c.counters :=
    (congrArg Ctl.counters hstore : dropped.unstored.counters = erased.unstored.counters)
  have hlossy : lossy.counter k i = c.counter k i := by
    rw [Ctl.counter, Ctl.counter, ← hdropped]
    exact SMap.get_filter_key 0 (fun x => decide (blockOfKey x = 11)) (by simp [Cnt.block_key, hb]) _
  have hthawed := foldl_keeps (fun c : Ctl => c.counter k i) (f := fun c (f : Frozen) => count .secThaw (f.kind - 1) 1 c)
    (fun c f => count_counter_ne hk i hthaw _ one_ne_zero c) thawed lossy
  exact (Ctl.counter_of_counters (balls_counters _) k i).trans (hthawed.trans hlossy)

@[simp] theorem systemReset_resetCause (b : Nat) (hbm : Bool) (m : Mem) (c : Ctl) :
    (systemReset b hbm m c).power.resetCause = 2 ^ b := by
  simp [systemReset, beginWake, erasureAtWake]

/-! ### A state is reached (R483, R485, R486, R492) -/

/-- What every entry does when its state is reached: signing counters are stored, the wake configuration is copied, the entry is
counted, ports idle and the pads are held. -/
def entryHold (c : Ctl) : Ctl :=
  let copied := (storeCounters c).withPower fun p => { p with wakeCfg := c.param 0x1004, wakeTimer := c.param 0x1005 }
  (idlePorts (count .pwrEntry (c.power.target - 2) 1 copied)).withPins fun p =>
    { p with padHold := true, aonPwrReq := c.power.target == 2, portsOff := true }

theorem entryHold_leaves (c : Ctl) : (entryHold c).params = c.params ∧ (entryHold c).jobs = c.jobs ∧
    (entryHold c).slotTags = c.slotTags ∧ (entryHold c).wq = c.wq ∧ (entryHold c).pins.padHold = true ∧
    (entryHold c).pins.aonPwrReq = (c.power.target == 2) ∧ (entryHold c).power.wakeCfg = c.param 0x1004 ∧
    (entryHold c).power.wakeTimer = c.param 0x1005 := by
  simp [entryHold, idlePorts, storeCounters]

theorem entryHold_counter (c : Ctl) : (entryHold c).counter .pwrEntry (c.power.target - 2) =
    (countValue false (c.counter .pwrEntry (c.power.target - 2)) 1).1 :=
  count_counter_self (k := .pwrEntry) rfl _ one_ne_zero _

/-- SLEEP keeps its domains: HBM banks close and the command ports go down. -/
theorem reachState_sleep (m : Mem) {c : Ctl} (ht : c.power.target = 2) (hh : c.power.wakeHeld = none) : ∃ close down at',
    reachState m c =
      (((entryHold c).withStore close).withProto down).withPower fun p => { p with stage := .low, reachedAt := at' } := by
  simp only [reachState, ht, hh, if_true]
  exact ⟨_, _, _, by simp only [entryHold, ht]; rfl⟩

/-- DORMANT and OFF lose theirs. -/
theorem reachState_cold (m : Mem) {c : Ctl} (ht : c.power.target ≠ 2) (hh : c.power.wakeHeld = none) : ∃ repaired at',
    reachState m c = (wipe false m (setCause 4 false ((entryHold c).withStore repaired))).withPower
      fun p => { p with stage := .low, reachedAt := at' } := by
  simp only [reachState, ht, hh, if_false]
  exact ⟨_, _, rfl⟩

/-- From `s` to `t` the state that an entry goes to has been reached. -/
def reachedLow (s t : State) : Prop :=
  t.ctl.power.stage = .low ∧ t.ctl.pins.padHold = true ∧ t.ctl.power.wakeCfg = s.ctl.param 0x1004 ∧
    t.ctl.power.wakeTimer = s.ctl.param 0x1005 ∧ t.ctl.params = s.ctl.params ∧
    counted .pwrEntry (s.ctl.power.target - 2) 1 s t

section
variable {s : State} (hs : s.ready) (hp : s.ctl.power.stage = .powerDown) (hh : s.ctl.power.wakeHeld = none)
include hs hp hh
theorem exec_powerStateReached_sleep (ht : s.ctl.power.target = 2) : completes .powerStateReached s fun t =>
    reachedLow s t ∧ sameMem s t ∧ t.ctl.jobs = s.ctl.jobs ∧ t.ctl.slotTags = s.ctl.slotTags ∧
      t.ctl.pins.aonPwrReq = true := by
  obtain ⟨close, down, at', hr⟩ := reachState_sleep s.mem ht hh
  obtain ⟨hparams, hjobs, htags, hwq, hpad, hreq, hcfg, htimer⟩ := entryHold_leaves s.ctl
  have hdone : entryDone s.mem s.ctl = _ := (if_pos hp).trans hr
  have hw : (entryDone s.mem s.ctl).wq = [] := by simp [hdone, hwq, hs.2]
  refine ⟨s.run entryDone, rfl, ⟨?_, ?_, ?_, ?_, ?_, counted_of_run rfl ?_⟩, sameMem_of_run hw, ?_, ?_, ?_⟩
  · simp [hdone]
  · simp [hdone, hpad]
  · simp [hdone, hcfg]
  · simp [hdone, htimer]
  · simp [hdone, hparams]
  · rw [hdone]
    exact (Ctl.counter_of_counters (b := entryHold s.ctl) (by simp) _ _).trans (entryHold_counter s.ctl)
  · simp [hdone, hjobs]
  · simp [hdone, htags]
  · simp [hdone, hreq, ht]

theorem exec_powerStateReached_cold (ht : s.ctl.power.target ≠ 2) : completes .powerStateReached s fun t =>
    reachedLow s t ∧ t.ctl.jobs = [] ∧ t.ctl.pins.aonPwrReq = false ∧
      (∀ st < 17, ∀ a, storeOf a = some st → t.mem.byteAt a = 0) ∧ (∀ a, regionOf a = .hbm → t.mem.byteAt a = 0) ∧
      ∀ f ∈ t.ctl.sec.frozen, f.kind = 6 := by
  obtain ⟨repaired, at', hr⟩ := reachState_cold s.mem ht hh
  obtain ⟨hparams, -, -, hwq, hpad, hreq, hcfg, htimer⟩ := entryHold_leaves s.ctl
  obtain ⟨hparams', hjobs', hpad', hreq', hcfg', htimer', hfrozen', hwq'⟩ :=
    wipe_leaves false s.mem (setCause 4 false ((entryHold s.ctl).withStore repaired))
  have hdone : entryDone s.mem s.ctl = _ := (if_pos hp).trans hr
  have hlost {a : Nat} (ha : (storeOf a).isSome = true ∨ regionOf a = .hbm) : (s.run entryDone).mem.byteAt a = 0 := by
    rw [State.run_mem, hdone, Ctl.withPower_wq, hwq', setCause_wq, Ctl.withStore_wq, hwq, hs.2, List.nil_append, Mem.apply_nil]
    refine Mem.byteAt_apply_erase _ _ ?_
    rcases ha with ha | ha <;> simp [ha]
  refine ⟨s.run entryDone, rfl, ⟨?_, ?_, ?_, ?_, ?_, counted_of_run rfl ?_⟩, ?_, ?_, ?_, ?_, ?_⟩
  · simp [hdone]
  · simp [hdone, hpad', hpad]
  · simp [hdone, hcfg', hcfg]
  · simp [hdone, htimer', htimer]
  · simp [hdone, hparams', hparams]
  · rw [hdone]
    exact (wipe_counter rfl rfl _ false s.mem _).trans (entryHold_counter s.ctl)
  · simp [hdone, hjobs']
  · simp [hdone, hreq', hreq, ht]
  · exact fun st _ a ha => hlost (.inl (by simp [ha]))
  · exact fun a ha => hlost (.inr ha)
  · simpa [hdone] using hfrozen'

end

/-! ### Wakes (R468, R484, R485, R491) -/

/-- A wake from SLEEP. -/
theorem wake_sleep (k : Nat) {c : Ctl} (hl : c.power.stage = .low) (ht : c.power.target = 2) :
    (wake k c).wq = c.wq ∧ (wake k c).power.wakeCause = k ∧ (wake k c).power.stage = .sleepExit ∧ (wake k c).jobs = c.jobs ∧
    (wake k c).proto.unsync = true ∧ (wake k c).clk.plane = 0 ∧
    (wake k c).counter .pwrWake k = (countValue false (c.counter .pwrWake k) 1).1 ∧
    (wake k c).sec.frozen = recount c.sec.frozen ∧ (wake k c).sec.nextObject = c.sec.frozen.length + 1 := by
  unfold wake
  rw [if_neg (by simp [hl]), if_neg (by simp [hl])]
  extract_lets counted unsynced restarted recounted
  have hq : unsynced.quiet = counted.quiet := by
    unfold unsynced
    split
    · rfl
    · exact count_quiet _ _ _ counted
  have hcounted : counted.counter .pwrWake k = (countValue false (c.counter .pwrWake k) 1).1 :=
    count_counter_self (k := .pwrWake) rfl k one_ne_zero _
  have hunsynced : unsynced.counter .pwrWake k = counted.counter .pwrWake k := by
    unfold unsynced
    split
    · rfl
    · exact count_counter_ne rfl k (by decide) _ one_ne_zero _
  have hsec : unsynced.sec = c.sec := (Ctl.sec_of_quiet hq).trans (by simp [counted])
  have htarget : counted.power.target = 2 := by simp [counted, ht]
  rw [if_pos htarget]
  refine ⟨?_, ?_, rfl, ?_, rfl, rfl, ?_, ?_, ?_⟩
  · exact (Ctl.wq_of_quiet hq).trans (by simp [counted])
  · exact (congrArg Power.wakeCause (Ctl.power_of_quiet hq)).trans (by simp [counted])
  · exact (Ctl.jobs_of_quiet hq).trans (by simp [counted])
  · exact hunsynced.trans hcounted
  · exact congrArg (fun x : Sec => recount x.frozen) hsec
  · exact congrArg (fun x : Sec => x.frozen.length + 1) hsec

/-- A wake from DORMANT or OFF starts the wake sequence. -/
theorem wake_cold (k : Nat) {c : Ctl} (hl : c.power.stage = .low) (ht : c.power.target ≠ 2) (hr : c.pins.sysResetN = true)
    (hc : c.pins.refClk = true) :
    (wake k c).wq = c.wq ∧ (wake k c).power.wakeCause = k ∧ (wake k c).pins.aonPwrReq = true ∧
    (wake k c).counter .pwrWake k = (countValue false (c.counter .pwrWake k) 1).1 ∧
    (wake k c).power.stage = if (c.pins.aonPwrReq && c.pins.aonPwrGood) = true then .boot else .waitGood := by
  unfold wake
  rw [if_neg (by simp [hl]), if_neg (by simp [hl])]
  extract_lets counted
  have hcounted : counted.counter .pwrWake k = (countValue false (c.counter .pwrWake k) 1).1 :=
    count_counter_self (k := .pwrWake) rfl k one_ne_zero _
  have hbegin : (beginWake counted).counters = counted.counters := by simp [beginWake, erasureAtWake]
  have htarget : counted.power.target ≠ 2 := by simpa [counted] using ht
  rw [if_neg htarget]
  refine ⟨?_, ?_, ?_, (Ctl.counter_of_counters hbegin _ _).trans hcounted, ?_⟩
  · simp [counted, beginWake, erasureAtWake]
  · simp [counted, beginWake, erasureAtWake]
  · simp [counted, beginWake, erasureAtWake]
  · simp [counted, beginWake, hr, hc]

/-- The command wakes a device that is in SLEEP, DORMANT or OFF, by cause `k` of Table 16.11. -/
def wokenBy (s : State) (i : Instr) (k : Nat) : Prop := s.ctl.power.stage = .low →
  (s.ctl.power.target = 2 → completes i s fun t => sameMem s t ∧ t.ctl.power.wakeCause = k ∧ t.ctl.power.stage = .sleepExit ∧
    t.ctl.jobs = s.ctl.jobs ∧ t.ctl.proto.unsync = true ∧ t.ctl.clk.plane = 0 ∧ counted .pwrWake k 1 s t ∧
    t.ctl.sec.frozen.map (·.id) = (List.range s.ctl.sec.frozen.length).map (· + 1) ∧
    t.ctl.sec.nextObject = s.ctl.sec.frozen.length + 1) ∧
  (s.ctl.power.target ≠ 2 → s.ctl.pins.sysResetN = true → s.ctl.pins.refClk = true → completes i s fun t => sameMem s t ∧
    t.ctl.power.wakeCause = k ∧ t.ctl.pins.aonPwrReq = true ∧ counted .pwrWake k 1 s t ∧
    t.ctl.power.stage = if (s.ctl.pins.aonPwrReq && s.ctl.pins.aonPwrGood) = true then .boot else .waitGood)

/-- A command whose effect is the wake wakes the device, whatever level of AON_WAKE it has noted. -/
theorem wokenBy_of_wake {s : State} {i : Instr} {f : Mem → Ctl → Ctl} {k : Nat} (level : Bool) (hs : s.ready)
    (hi : exec i s = .next (s.run f))
    (hf : s.ctl.power.stage = .low → f s.mem s.ctl = wake k (s.ctl.withPins fun p => { p with aonWake := level })) :
    wokenBy s i k := by
  intro hl
  have hwake := hf hl
  constructor
  · intro ht
    obtain ⟨hwq, hcause, hstage, hjobs, hunsync, hplane, hcount, hfrozen, hnext⟩ :=
      wake_sleep k (c := s.ctl.withPins fun p => { p with aonWake := level }) hl ht
    have hw : (f s.mem s.ctl).wq = [] := by rw [hwake, hwq, Ctl.withPins_wq, hs.2]
    refine ⟨s.run f, hi, sameMem_of_run hw, ?_, ?_, ?_, ?_, ?_, counted_of_run rfl ?_, ?_, ?_⟩
    · simp [hwake, hcause]
    · simp [hwake, hstage]
    · simp [hwake, hjobs]
    · simp [hwake, hunsync]
    · simp [hwake, hplane]
    · rw [hwake]
      exact hcount
    · simp [hwake, hfrozen, recount_ids]
    · simp [hwake, hnext]
  · intro ht hr hc
    obtain ⟨hwq, hcause, hreq, hcount, hstage⟩ :=
      wake_cold k (c := s.ctl.withPins fun p => { p with aonWake := level }) hl ht hr hc
    have hw : (f s.mem s.ctl).wq = [] := by rw [hwake, hwq, Ctl.withPins_wq, hs.2]
    refine ⟨s.run f, hi, sameMem_of_run hw, ?_, ?_, counted_of_run rfl ?_, ?_⟩
    · simp [hwake, hcause]
    · simp [hwake, hreq]
    · rw [hwake]
      exact hcount
    · simp [hwake, hstage]

/-! ### Wake sources (R484, R485, Table 16.3) -/

theorem Ctl.inEntry_of_low {c : Ctl} (hl : c.power.stage = .low) : c.inEntry = false := by simp [Ctl.inEntry, hl]
theorem holdWake_free {k : Nat} {c : Ctl} (hh : c.power.wakeHeld = none) :
    holdWake k c = { c with power := { c.power with wakeHeld := some k } } := by
  simp [holdWake, hh, Ctl.withPower]

theorem aonWakes_low {w : Bool} {c : Ctl} (hl : c.power.stage = .low) (hcfg : bit c.power.wakeCfg 0 = true) :
    aonWakes w (bit c.power.wakeCfg 2) c = wake 1 (c.withPins fun p => { p with aonWake := bit c.power.wakeCfg 2 }) := by
  have hin : (c.withPins fun p => { p with aonWake := bit c.power.wakeCfg 2 }).inEntry = false := Ctl.inEntry_of_low hl
  simp [aonWakes, hin, hcfg]

theorem aonWakes_inactive {w high : Bool} {c : Ctl}
    (h : high ≠ bit (if c.inEntry = true then c.param 0x1004 else c.power.wakeCfg) 2) :
    aonWakes w high c = { c with pins := { c.pins with aonWake := high } } := if_pos h

theorem aonWakes_entry {w high : Bool} {c : Ctl} (he : c.inEntry = true) (hh : c.power.wakeHeld = none)
    (hl : high = bit (c.param 0x1004) 2) (hcfg : bit (c.param 0x1004) 0 = true) (hw : w = true → bit (c.param 0x1004) 1 = false) :
    aonWakes w high c = { c with pins := { c.pins with aonWake := high }, power := { c.power with wakeHeld := some 1 } } := by
  have hin : (c.withPins fun p => { p with aonWake := high }).inEntry = true := he
  have hparam : (c.withPins fun p => { p with aonWake := high }).param 0x1004 = c.param 0x1004 := rfl
  have hhold := holdWake_free (k := 1) (c := c.withPins fun p => { p with aonWake := high }) hh
  have hwindow : (w && bit (c.param 0x1004) 1) = false := by
    cases w
    · rfl
    · exact hw rfl
  simp [aonWakes, hin, hparam, ← hl, hcfg, hwindow, hhold]

theorem energy_low {port : Nat} {c : Ctl} (hp : port < 2) (ht : c.power.target ≠ 4) (hcfg : bit c.power.wakeCfg (3 + port) = true)
    (hl : c.power.stage = .low) : energy port c = wake (2 + port) c := by
  simp [energy, not_le.mpr hp, ht, Ctl.inEntry_of_low hl, hcfg]

theorem energy_entry {port : Nat} {c : Ctl} (hp : port < 2) (ht : c.power.target ≠ 4)
    (hcfg : bit (c.param 0x1004) (3 + port) = true) (he : c.inEntry = true) : energy port c = holdWake (2 + port) c := by
  simp [energy, not_le.mpr hp, ht, he, hcfg]

theorem timerWakes_early {c : Ctl} (h : c.clk.ns < c.power.reachedAt + 1000000000 * c.power.wakeTimer) : timerWakes c = c :=
  if_neg fun hdue => by omega

theorem timerWakes_due {c : Ctl} (hcfg : bit c.power.wakeCfg 5 = true) (ht : c.power.wakeTimer ≠ 0)
    (h : c.power.reachedAt + 1000000000 * c.power.wakeTimer ≤ c.clk.ns) (hl : c.power.stage = .low) : timerWakes c = wake 4 c :=
  if_pos ⟨.inl hl, hcfg, ht, h⟩

end Sys2Proof.Machine
end

section
/-! PROOF of O59. IDLE, the drain of an entry, operating points and temperature, and with the entries and wakes above the whole
statement (03 R28; 16 R480, R483, R493, R494; 18 R537). -/

namespace Sys2Proof.Machine

/-! ### IDLE (R480) -/

theorem goIdle_early {c : Ctl} (h : c.power.quiet < 1000 * c.param 0x1003) : goIdle c = c := by
  simp [goIdle, h]

theorem goIdle_late {c : Ctl} (hon : c.power.stage = .on) (hidle : c.power.idle = false) (hop : c.power.opNext = none)
    (hj : ∀ j ∈ c.jobs, ¬(j.running.isSome = true ∧ j.ended = false)) (h : 1000 * c.param 0x1003 ≤ c.power.quiet) :
    goIdle c = count .pwrIdle 0 1 (c.withPower fun p => { p with idle := true }) := by
  have hnone : c.jobs.any (fun j => j.running.isSome && !j.ended) = false := by simpa [List.any_eq_false] using hj
  simp [goIdle, hon, hidle, hop, hnone, not_lt.mpr h]

theorem exec_idleEntry_late {s : State} (hs : s.ready) (hon : s.ctl.power.stage = .on) (hidle : s.ctl.power.idle = false)
    (hop : s.ctl.power.opNext = none) (hj : ∀ j ∈ s.ctl.jobs, ¬(j.running.isSome = true ∧ j.ended = false))
    (h : 1000 * s.ctl.param 0x1003 ≤ s.ctl.power.quiet) :
    reaches .idleEntry s { s.ctl with power := { s.ctl.power with idle := true } } ∧
      completes .idleEntry s (counted .pwrIdle 0 1 s) := by
  have hgo := goIdle_late hon hidle hop hj h
  refine ⟨reaches_of_run rfl ?_ ?_, s.run _, rfl, counted_of_run rfl ?_⟩
  · simp [hgo, hs.2]
  · rw [hgo, count_quiet]
    rfl
  · rw [hgo]
    exact count_counter_self (k := .pwrIdle) rfl 0 one_ne_zero _

/-! ### PWR_ENTRY_DRAIN (R483) -/

theorem exec_entryDrainTimeout_late {s : State} (hst : s.ctl.power.stage = .entering)
    (h : s.ctl.power.enterAt + 1000000 * s.ctl.param 0x1006 ≤ s.ctl.clk.ns) : completes .entryDrainTimeout s fun t =>
      (∀ j ∈ s.ctl.jobs, j.running.isSome = true ∧ j.ended = false → t.ctl.jobOver j.no) ∧
      ((s.ctl.jobs.map (·.no)).Nodup → (∀ n < 64, (s.ctl.intake n).frozen = true ∨
          ((s.ctl.intake n).busy = false ∧ (s.ctl.intake n).dropping = false ∧ (s.ctl.intake n).ended = [])) →
        t.ctl.power.stage = .powerDown ∧ t.ctl.power.enterReq = none) := by
  have hjobs : (s.run drainOver).ctl.jobs = (drainOver s.mem s.ctl).jobs := by simp
  have hpower : (s.run drainOver).ctl.power = (drainOver s.mem s.ctl).power := by simp
  refine ⟨s.run drainOver, rfl, fun j hj hr k hk => ?_, fun hn hi => ?_⟩
  · rw [Ctl.job?, hjobs] at hk
    exact drainOver_jobOver s.mem hst h hj hr.1 hr.2 k hk
  · rw [hpower]
    exact drainOver_goesOn s.mem hst h hn hi

/-! ### Operating points (R28, R493) -/

theorem switchPoint_quiet (op : Nat) (c : Ctl) : (switchPoint op c).quiet = Ctl.quiet
    { c with power := { c.power with opNow := op, opNext := none }, clk := { c.clk with plane := 0, planeFrac := 0 } } := by
  have hcount : Ctl.quiet (if op = c.power.opNow then c else count .pwrOpChange 0 1 c) = c.quiet := by split <;> simp
  exact congrArg (fun q : Ctl =>
    { q with power := { q.power with opNow := op, opNext := none }, clk := { q.clk with plane := 0, planeFrac := 0 } }) hcount

theorem switchPoint_wq (op : Nat) (c : Ctl) : (switchPoint op c).wq = c.wq :=
  (Ctl.wq_of_quiet (switchPoint_quiet op c)).trans rfl

theorem switchPoint_counter {op : Nat} {c : Ctl} (h : op ≠ c.power.opNow) :
    (switchPoint op c).counter .pwrOpChange 0 = (countValue false (c.counter .pwrOpChange 0) 1).1 := by
  have hcount : (switchPoint op c).counters = (count .pwrOpChange 0 1 c).counters := by
    rw [switchPoint, if_neg h]
    rfl
  exact (Ctl.counter_of_counters hcount _ _).trans (count_counter_self (k := .pwrOpChange) rfl 0 one_ne_zero c)

theorem pointSwitch_waits {n : Nat} (hn : n < 3) (m : Mem) {c : Ctl} (h : c.mayRetire = false ∨ c.galeIdle = false) :
    pointSwitch n m c = c := by
  have hbusy : ¬(c.mayRetire = true ∧ c.galeIdle = true) := by rcases h with h | h <;> simp [h]
  unfold pointSwitch
  split
  · rfl
  · rw [if_neg (not_le.mpr hn), if_neg hbusy, ite_self]

theorem pointSwitch_switches {n op : Nat} (hn : n < 3) (m : Mem) {c : Ctl} (hop : c.power.opNext = some op)
    (hon : c.power.stage = .on) (hr : c.mayRetire = true) (hg : c.galeIdle = true) : pointSwitch n m c = switchPoint op c := by
  simp [pointSwitch, hop, hon, hr, hg, not_le.mpr hn]

theorem pointSwitch_fails {n op : Nat} (hn : 3 ≤ n) (m : Mem) {c : Ctl} (hop : c.power.opNext = some op)
    (hon : c.power.stage = .on) : pointSwitch n m c = systemReset 3 true m c := by
  simp [pointSwitch, hop, hon, hn]

section
variable {s : State} {op n : Nat} (hop : s.ctl.power.opNext = some op) (hon : s.ctl.power.stage = .on)
include hop hon
theorem exec_operatingPointSwitch_switches (hs : s.ready) (hn : n < 3) (hr : s.ctl.mayRetire = true) (hg : s.ctl.galeIdle = true) :
    reaches (.operatingPointSwitch n) s { s.ctl with
      power := { s.ctl.power with opNow := op, opNext := none }, clk := { s.ctl.clk with plane := 0, planeFrac := 0 } } ∧
    (op ≠ s.ctl.power.opNow → completes (.operatingPointSwitch n) s (counted .pwrOpChange 0 1 s)) := by
  have hswitch := pointSwitch_switches hn s.mem hop hon hr hg
  refine ⟨reaches_of_run rfl ?_ ?_, fun hne => ⟨s.run _, rfl, counted_of_run rfl ?_⟩⟩
  · rw [hswitch, switchPoint_wq, hs.2]
  · rw [hswitch, switchPoint_quiet]
  · rw [hswitch, switchPoint_counter hne]
    rfl

/-- Three AVSBus failures in a row reset the device (R493). -/
theorem exec_operatingPointSwitch_fails (hn : 3 ≤ n) :
    completes (.operatingPointSwitch n) s fun t => t.ctl.power.resetCause = 2 ^ 3 := by
  have hreset : (pointSwitch n s.mem s.ctl).power.resetCause = 2 ^ 3 := by
    rw [pointSwitch_fails hn s.mem hop hon, systemReset_resetCause]
  exact ⟨s.run (pointSwitch n), rfl, by simpa using hreset⟩

end

/-! ### Temperature (R494, R537) -/

theorem Ctl.throttles_of {c : Ctl} (hs : c.power.stage = .on ∨ c.power.stage = .entering) (hl : c.service.lee = false) :
    c.throttles = true := by
  rcases hs with hs | hs <;> simp [Ctl.throttles, hs, hl]

theorem throttleTo_eq {t : Nat} {c : Ctl} (h : t ≠ c.power.opNow) :
    throttleTo t c = { c with power := { c.power with throttle := t - c.param 0x1001, opNext := some t } } := by
  simp [throttleTo, h, Ctl.withPower]

theorem stepDown_stays {tj : Int} {c : Ctl} (h : tj ≤ (c.param 0x1007 : Int) ∨ 2 ≤ c.power.opNow) : stepDown tj c = c :=
  if_pos (.inr h)

theorem stepDown_steps {tj : Int} {c : Ctl} (ht : c.throttles = true) (hl : (c.param 0x1007 : Int) < tj)
    (hop : c.power.opNow < 2) :
    stepDown tj c = count .pwrThrottle 0 1 (throttleTo (max (c.power.opNow + 1) (c.power.opNext.getD 0)) c) := by
  simp [stepDown, ht, not_le.mpr hl, not_le.mpr hop]

theorem stepUp_stays {tj : Int} {c : Ctl} (h : (c.param 0x1007 : Int) - 5 ≤ tj ∨ c.power.opNow ≤ c.param 0x1001) :
    stepUp tj c = c :=
  if_pos (.inr h)

section
variable {s : State} {tj : Int} (hs : s.ready) (ht : s.ctl.throttles = true)
include hs ht
theorem exec_throttleStepDown_steps (hl : (s.ctl.param 0x1007 : Int) < tj) (hop : s.ctl.power.opNow < 2) :
    reaches (.throttleStepDown tj) s { s.ctl with power := { s.ctl.power with
      throttle := max (s.ctl.power.opNow + 1) (s.ctl.power.opNext.getD 0) - s.ctl.param 0x1001,
      opNext := some (max (s.ctl.power.opNow + 1) (s.ctl.power.opNext.getD 0)) } } ∧
    completes (.throttleStepDown tj) s (counted .pwrThrottle 0 1 s) := by
  have hslower : max (s.ctl.power.opNow + 1) (s.ctl.power.opNext.getD 0) ≠ s.ctl.power.opNow := by omega
  have hstep := stepDown_steps ht hl hop
  rw [throttleTo_eq hslower] at hstep
  refine ⟨reaches_of_run rfl ?_ ?_, s.run _, rfl, counted_of_run rfl ?_⟩
  · simp [hstep, hs.2]
  · rw [hstep, count_quiet]
  · rw [hstep]
    exact count_counter_self (k := .pwrThrottle) rfl 0 one_ne_zero _

theorem exec_throttleStepUp_steps (hl : tj < (s.ctl.param 0x1007 : Int) - 5) (hop : s.ctl.param 0x1001 < s.ctl.power.opNow) :
    exec (.throttleStepUp tj) s = .next (s.withCtl { s.ctl with power := { s.ctl.power with
      throttle := s.ctl.power.opNow - 1 - s.ctl.param 0x1001, opNext := some (s.ctl.power.opNow - 1) } }) := by
  have hfaster : s.ctl.power.opNow - 1 ≠ s.ctl.power.opNow := by omega
  have hstep : stepUp tj s.ctl = throttleTo (s.ctl.power.opNow - 1) s.ctl := by
    simp [stepUp, ht, not_le.mpr hl, not_le.mpr hop]
  exact exec_eq_withCtl rfl (hstep.trans (throttleTo_eq hfaster)) hs.2 rfl

end

theorem thermal_eq {tj : Int} {c : Ctl} (h : c.safetyRuns = true) : thermal tj c = { c with pins := { c.pins with
    thermAlertN := if 115 ≤ tj then false else if tj ≤ 100 then true else c.pins.thermAlertN } } := by
  simp only [thermal, h, Bool.not_true, Bool.false_eq_true, if_false]
  split_ifs <;> rfl

/-! ### The statement -/

/-- Settles O59: clause by clause, in the order of the statement. -/
theorem powerStatesAndPoints : Obligations.PowerStatesAndPoints := by
  intro s hs c woken held running
  exact ⟨
    -- IDLE
    fun h => exec_eq_self hs rfl (goIdle_early h),
    exec_idleEntry_late hs,
    -- the drain of an entry, and the state reached
    fun h => exec_eq_self hs rfl (drainOver_early h),
    exec_entryDrainTimeout_late,
    fun hst hh => ⟨exec_powerStateReached_sleep hs hst hh, exec_powerStateReached_cold hs hst hh⟩,
    -- AON_WAKE, link partners and the timer
    fun w h => wokenBy_of_wake _ hs rfl fun hl => aonWakes_low hl h,
    fun w high => ⟨fun h => exec_eq_withCtl rfl (aonWakes_inactive h) hs.2 rfl,
      fun he hh hl h0 hw => exec_eq_withCtl rfl (aonWakes_entry he hh hl h0 hw) hs.2 rfl⟩,
    fun port hp ht h => wokenBy_of_wake s.ctl.pins.aonWake hs rfl (energy_low hp ht h),
    fun port hp ht h he hh => exec_eq_withCtl rfl ((energy_entry hp ht h he).trans (holdWake_free hh)) hs.2 rfl,
    fun h5 ht => ⟨fun h => exec_eq_self hs rfl (timerWakes_early h),
      fun h => wokenBy_of_wake s.ctl.pins.aonWake hs rfl (timerWakes_due h5 ht h)⟩,
    -- operating points
    fun op n hop hon => ⟨fun hn h => exec_eq_self hs rfl (pointSwitch_waits hn s.mem h),
      exec_operatingPointSwitch_switches hop hon hs, exec_operatingPointSwitch_fails hop hon⟩,
    -- temperature
    fun tj hst hlee => ⟨fun h => exec_eq_self hs rfl (stepDown_stays h),
      exec_throttleStepDown_steps hs (Ctl.throttles_of hst hlee), fun h => exec_eq_self hs rfl (stepUp_stays h),
      exec_throttleStepUp_steps hs (Ctl.throttles_of hst hlee)⟩,
    fun tj h => exec_eq_withCtl rfl (thermal_eq h) hs.2 rfl⟩

end Sys2Proof.Machine
end

section
/-! PROOF of O6 and O7. SP4 widened, and the inner sum of a group: void through any void product, the exact sum otherwise, and
inside the 50-bit accumulator (02 R46 to R49, R52, R53). -/

namespace Sys2Proof.Machine

/-! ### SP4 widened to SP8 (R48) -/

theorem toNat_byte (n : Nat) : (byte n).toNat = n % 256 := BitVec.toNat_ofNat n 8

/-- Without magnitude the sign bit alone tells zero from void. -/
theorem sp4Widen_of_no_magnitude {n : Nat} (hn : n < 16) (h : n % 8 = 0) : sp4Widen n = if n = 0 then 0x00#8 else 0x80#8 := by
  obtain rfl | rfl : n = 0 ∨ n = 8 := by omega
  · rfl
  · rfl

/-- With one, sign and magnitude move to their places in the SP8 byte. -/
theorem sp4Widen_toNat {n : Nat} (hn : n < 16) (h : n % 8 ≠ 0) :
    (sp4Widen n).toNat = 128 * (n / 8) + (92 + 4 * (n % 8)) := by
  rw [sp4Widen, if_neg h, toNat_byte]
  omega

/-- Settles O6: every claim reads the widened byte as a number. -/
theorem sp4WidensExactly : Obligations.Sp4WidensExactly := by
  intro n hn
  refine ⟨sp4Widen_of_no_magnitude hn, fun h => ?_⟩
  have hb := sp4Widen_toNat hn h
  have hmag : sp8Mag (sp4Widen n) = 92 + 4 * (n % 8) := by
    rw [sp8Mag, hb]
    omega
  refine ⟨hmag, ?_, by omega, by omega, ?_, ?_⟩
  · rw [sp8Neg, hb, decide_eq_decide]
    omega
  · rw [sp8IsVoid, hb, beq_eq_false_iff_ne]
    omega
  · rw [sp8IsZero, hb, beq_eq_false_iff_ne]
    omega

/-! ### One product (R49, R52) -/

theorem sp8IsVoid_iff (b : Byte) : sp8IsVoid b = true ↔ b = 0x80#8 := by
  rw [sp8IsVoid, beq_iff_eq, ← BitVec.toNat_inj]
  rfl

/-- A product is void exactly where an operand is: the void test comes before the one for zero. -/
theorem mappedProduct_eq_none_iff (a w : Byte) : mappedProduct a w = none ↔ a = 0x80#8 ∨ w = 0x80#8 := by
  rw [← sp8IsVoid_iff, ← sp8IsVoid_iff, ← Bool.or_eq_true]
  unfold mappedProduct
  split
  · simp [*]
  · split <;> simp [*]

theorem productTable_le (f : Nat) : productTable f ≤ 2 ^ 10 := by
  unfold productTable
  split <;> decide

/-- Two magnitudes sum to at most 254, so that an octave is at most 31. -/
theorem abs_mappedProduct_le {a w : Byte} {p : Int} (h : mappedProduct a w = some p) : |p| ≤ 2 ^ 41 := by
  unfold mappedProduct at h
  extract_lets m q at h
  have hoctave : m / 8 ≤ 31 := by
    have ha : sp8Mag a < 128 := Nat.mod_lt _ (by decide)
    have hw : sp8Mag w < 128 := Nat.mod_lt _ (by decide)
    omega
  have hq : |q| ≤ 2 ^ 41 := by
    have hnat : productTable (m % 8) * 2 ^ (m / 8) ≤ 2 ^ 10 * 2 ^ 31 :=
      Nat.mul_le_mul (productTable_le _) (Nat.pow_le_pow_right (by decide) hoctave)
    have hcast : q = ((productTable (m % 8) * 2 ^ (m / 8) : Nat) : Int) := by simp [q]
    rw [hcast, Nat.abs_cast]
    exact_mod_cast hnat
  split at h
  · cases h
  · split at h
    · cases h
      simp
    · rw [← Option.some.inj h]
      split
      · rwa [abs_neg]
      · exact hq

/-! ### The sum of a group (R53, R54) -/

theorem innerSum_cons (p : Byte × Byte) (l : List (Byte × Byte)) :
    innerSum (p :: l) = Option.map₂ (· + ·) (mappedProduct p.1 p.2) (innerSum l) := by
  rw [innerSum]
  cases mappedProduct p.1 p.2 <;> cases innerSum l <;> rfl

theorem innerSum_eq_none_iff (l : List (Byte × Byte)) : innerSum l = none ↔ ∃ p ∈ l, mappedProduct p.1 p.2 = none := by
  induction l with
  | nil => simp [innerSum]
  | cons p l ih => rw [innerSum_cons, Option.map₂_eq_none_iff, ih, List.exists_mem_cons_iff]

/-- Exact addition commutes, and so does a void product. -/
theorem innerSum_perm {l l' : List (Byte × Byte)} (h : l.Perm l') : innerSum l = innerSum l' := by
  induction h with
  | nil => rfl
  | cons p _ ih => rw [innerSum_cons, innerSum_cons, ih]
  | swap p q l =>
    simp only [innerSum_cons]
    exact Option.map₂_left_comm add_left_comm
  | trans _ _ ih ih' => exact ih.trans ih'

theorem innerSum_eq_sum {l : List (Byte × Byte)} {v : Int} (h : innerSum l = some v) :
    v = (l.map fun p => (mappedProduct p.1 p.2).getD 0).sum := by
  induction l generalizing v with
  | nil => exact (Option.some.inj h).symm
  | cons p l ih =>
    rw [innerSum_cons, Option.map₂_eq_some_iff] at h
    obtain ⟨x, s, hx, hs, rfl⟩ := h
    rw [List.map_cons, List.sum_cons, ← ih hs, hx, Option.getD_some]

theorem abs_innerSum_le {l : List (Byte × Byte)} {v : Int} (h : innerSum l = some v) : |v| ≤ l.length * 2 ^ 41 := by
  induction l generalizing v with
  | nil =>
    cases h
    simp
  | cons p l ih =>
    rw [innerSum_cons, Option.map₂_eq_some_iff] at h
    obtain ⟨x, s, hx, hs, rfl⟩ := h
    calc |x + s| ≤ |x| + |s| := abs_add_le x s
      _ ≤ 2 ^ 41 + l.length * 2 ^ 41 := add_le_add (abs_mappedProduct_le hx) (ih hs)
      _ = (p :: l).length * 2 ^ 41 := by push_cast [List.length_cons]; ring

/-- Settles O7: 128 products of at most 2^41 stay within 2^48. -/
theorem innerSumExactInAnyOrder : Obligations.InnerSumExactInAnyOrder := by
  refine ⟨fun _ _ => innerSum_perm, fun _ _ => innerSum_eq_sum, fun l hl v hv => ?_⟩
  have hbound := abs_le.mp (abs_innerSum_le hv)
  omega

end Sys2Proof.Machine
end

section
/-! PROOF of O8, O9 and O10. Void values in every format, and the results that saturate (02 R52, R54, R57, R58, R60 to R63, R70). -/

namespace Sys2Proof.Machine

/-! ### Void values (R54, R58, R63, R70) -/

theorem f32IsVoid_f32Void : f32IsVoid f32Void = true := by decide

theorem toSp8_void {x : F32} {g : Int} (h : f32IsVoid x = true ∨ g = voidScale) : toSp8 x g = (0x80#8, 0) :=
  if_pos h.symm

theorem toSp4_void {x : F32} {g : Int} (h : f32IsVoid x = true ∨ g = voidScale) : toSp4 x g = (8, 0) :=
  if_pos h.symm

theorem f32to16_void {x : F32} (h : f32IsVoid x = true) : f32to16 x = (0x7E01, 0) := by
  simp [f32to16, f32Val, h]

theorem contribution_void {s : Option Int} {ga gw : Int} (h : s = none ∨ ga = voidScale ∨ gw = voidScale) :
    contribution s ga gw = (f32Void, 0) := by
  cases s with
  | none => rfl
  | some v => exact if_pos (h.resolve_left (Option.some_ne_none v))

theorem runningAdd_void {a c : F32} (h : f32IsVoid a = true ∨ f32IsVoid c = true) : runningAdd a c = (f32Void, 0) :=
  if_pos (Bool.or_eq_true _ _ ▸ h)

/-- Settles O8: void goes from an operand to its product, to the inner sum, to the running sum and into every format. -/
theorem innerSumVoid : Obligations.InnerSumVoid := by
  refine ⟨mappedProduct_eq_none_iff, fun l ga gw => ⟨innerSum_eq_none_iff l, fun h => ?_, fun _ _ => runningAdd_void, rfl, ?_, fun g => ?_⟩⟩
  · rw [← innerSum_eq_none_iff] at h
    exact contribution_void h
  · rw [f32to16_void f32IsVoid_f32Void]
  · exact ⟨toSp8_void (.inl f32IsVoid_f32Void), toSp4_void (.inl f32IsVoid_f32Void)⟩

/-- Settles O10: the void test of a conversion comes before every other. -/
theorem nanConvertsToVoid : Obligations.NanConvertsToVoid := fun _ _ => toSp8_void

/-! ### Rounding to binary32 (R55, R57) -/

/-- Where the rounded magnitude passes the largest finite value, the result stays there, with one event. -/
theorem round32_saturates {q : Q} (h : 0x7F7FFFFF < roundMag 24 (-149) q.num.natAbs q.den) (hq : q.num ≠ 0) :
    round32 q = (if q.num < 0 then 0xFF7FFFFF#32 else 0x7F7FFFFF#32, 1) := by
  unfold round32
  extract_lets m s
  have hm : m = roundMag 24 (-149) q.num.natAbs q.den := if_neg hq
  rw [if_neg (by omega), if_pos (by omega), Prod.mk.injEq]
  refine ⟨?_, rfl⟩
  unfold s
  split <;> rfl

/-- A sign and a magnitude share the 32 bits of a pattern. -/
theorem signed_magnitude {s m : Nat} (hs : s = 0 ∨ s = 0x80000000) (hm : m < 0x80000000) :
    (BitVec.ofNat 32 (s + m)).toNat % 0x80000000 = m := by
  rw [BitVec.toNat_ofNat]
  omega

/-- No rounding gives a magnitude beyond the largest finite one. -/
theorem round32_magnitude_le (q : Q) : (round32 q).1.toNat % 0x80000000 ≤ 0x7F7FFFFF := by
  unfold round32
  extract_lets m s
  have hs : s = 0 ∨ s = 0x80000000 := by
    unfold s
    split
    · exact .inr rfl
    · exact .inl rfl
  split
  · decide
  · split
    · exact (signed_magnitude hs (by decide)).le
    · rw [signed_magnitude hs (by omega)]
      omega

theorem round32_finite (q : Q) : f32IsVoid (round32 q).1 = false ∧ f32IsInf (round32 q).1 = false := by
  have h := round32_magnitude_le q
  rw [f32IsVoid, f32IsInf, decide_eq_false_iff_not, beq_eq_false_iff_ne]
  omega

/-! ### Contributions and running sums (R58) -/

theorem contribution_void_or_finite (s : Option Int) (ga gw : Int) : (contribution s ga gw).1 = f32Void ∨
    (f32IsVoid (contribution s ga gw).1 = false ∧ f32IsInf (contribution s ga gw).1 = false) := by
  cases s with
  | none => exact .inl rfl
  | some v =>
    unfold contribution
    dsimp only
    split
    · exact .inl rfl
    · exact .inr (round32_finite _)

theorem runningAdd_void_or_finite (a c : F32) : (runningAdd a c).1 = f32Void ∨
    (f32IsVoid (runningAdd a c).1 = false ∧ f32IsInf (runningAdd a c).1 = false) := by
  unfold runningAdd
  split
  · exact .inl rfl
  · exact .inr (round32_finite _)

/-! ### Conversion to SP8 (R60, R61) -/

/-- From two units of the scale on, the turn is 16 or more, past the last one of a code. -/
theorem toSp8_saturates {x : F32} {g : Int} (hv : f32IsVoid x = false) (hg : g ≠ voidScale) (h0 : x.toNat % 0x80000000 ≠ 0)
    (h : f32IsInf x = true ∨ g + 1 ≤ (normalise x).1) : toSp8 x g = (byte ((if f32Neg x then 128 else 0) + 127), 1) := by
  have hvoid : ¬(g = voidScale ∨ f32IsVoid x = true) := by simp [hg, hv]
  unfold toSp8
  rw [if_neg hvoid, if_neg h0]
  split
  · rfl
  · rename_i hinf
    have hturn : 16 ≤ (normalise x).1 - g + 15 := by
      have := h.resolve_left hinf
      omega
    exact if_pos hturn

/-- Settles O9: what is not void comes from one rounding to binary32, and that saturates. -/
theorem resultsSaturate : Obligations.ResultsSaturate :=
  ⟨fun _ => round32_saturates, round32_finite, contribution_void_or_finite, runningAdd_void_or_finite,
    fun _ _ => toSp8_saturates⟩

end Sys2Proof.Machine
end

section
/-! REFUTATION of O55. The statement is made of every ready state, also of one in which two jobs share a number, and there the
loss of a member does not end the group's jobs: a group job that still waits for its admission is looked up by its number, the
first job of that number is none of the group's, and so nothing ends (14 R440, R445). The device gives no number twice; the
statement does not say so. -/

namespace Sys2Proof.Machine

/-- Job 1 of this part alone, between runs. -/
def aloneJob : Job :=
  { no := 1, bundle := 1, index := 0, cls := 1, mode := 1, trigger := 0, submitter := { port := 0, addr := 7, udp := 9 },
    cmds := [0], streams := [], pages := [], handles := [], windows := [], lists := [], running := none, waiting := none,
    runSeq := 0, lastStatus := 0, lastList := 4, lastIndex := 0, lastTag := 0, exec := Exec.start, saved := [], moved := 0,
    quantumUsed := 0, ended := false, endReq := none, abortReq := none, endAtRun := 0, links := [], linkScales := [] }

/-- Its number again, as a group job whose JOB_SUBMIT waits for member 1. -/
def waitingJob : Job :=
  { aloneJob with
    index := 0x8000, admitLeft := [1]
    admitReq := some
      { port := 0, addr := 7, udp := 9, reqId := 1, role := 0, flags := 0, status := 0, reserved15 := 0, epoch := 0, deadline := 0,
        reserved30 := 0, authLen := 0, trailer := { keySlot := 0, reserved := 0, counter := 0, signature := [] }, payload := [] } }

/-- Member 0 leads a formed group of two, its port 0 is up, and both jobs stand. -/
def twinJobs : State :=
  { State.reset with
    ctl :=
      { State.reset.ctl with
        params := [(0x0E00, 0), (0x0E01, 3)]
        jobs := [aloneJob, waitingJob]
        group :=
          { Group.reset with
            formed := true, lead := 0, state := [0, 0, 0xFF, 0xFF]
            ports := { XwPort.reset with up := true, idle := false } :: List.replicate 3 XwPort.reset } } }

/-- After member 1 has said that it stands refused, job 1 is the one that was not of the group, and it has not ended. -/
theorem twinJobs_heartbeat_keeps_job :
    (((twinJobs.run (heartbeat 0 1 0 1 [])).ctl.job? 1).map (·.ended)) = some false := by
  decide +kernel

/-- Refutes O55: in `twinJobs` a heartbeat that takes member 1 out of service should leave no job under the group job's number but an
ended one, and leaves `aloneJob` as it stands. -/
theorem not_crosswindControlBlocks : ¬ Obligations.CrosswindControlBlocks := by
  intro h
  obtain ⟨-, -, -, -, -, hbeat, -, -⟩ := h twinJobs 0 ⟨rfl, rfl⟩ rfl
  obtain ⟨hformed, -⟩ := hbeat 1 0 1 [] (by decide) (by decide) (by decide)
  obtain ⟨-, hlost, -⟩ := hformed rfl
  obtain ⟨_, hrun, -, -, hended, -⟩ := hlost rfl le_rfl (by decide)
  obtain rfl := Host.Outcome.next.inj hrun
  obtain ⟨k, hk, hnot⟩ := Option.map_eq_some_iff.mp twinJobs_heartbeat_keeps_job
  have hend := hended waitingJob (List.mem_cons_of_mem _ (List.mem_singleton_self _)) rfl rfl k hk
  rw [hnot] at hend
  cases hend

end Sys2Proof.Machine
end

section
/-! PROOF of O44. Correction windows, holds and the hold alarm (03 R100, R101, R104; 17 R501). -/

namespace Sys2Proof.Machine

/-- Of finitely many counts one is the largest, and the search of R501 finds it. -/
theorem exists_max_on_range (f : Nat → Nat) (n : Nat) :
    ∃ t, (List.range (n + 1)).find? (fun t => (List.range (n + 1)).all fun u => decide (f u ≤ f t)) = some t := by
  obtain ⟨t, ht, hmax⟩ := Finset.exists_max_image (Finset.range (n + 1)) f ⟨0, by simp⟩
  refine Option.isSome_iff_exists.mp (List.find?_isSome.mpr ⟨t, by simpa using ht, ?_⟩)
  simpa using hmax

theorem alarmWindow_of_few {c : Ctl} (h : c.plane.windowSignals < 100) :
    alarmWindow c = { c with plane := { c.plane with windowSignals := 0, windowExcess := [] } } := by
  simp [alarmWindow, h, Ctl.withPlane]

theorem alarmWindow_of_many {c : Ctl} (h : 100 ≤ c.plane.windowSignals) :
    ∃ u < 16, (∀ v < 16, SMap.get 0 c.plane.windowExcess v ≤ SMap.get 0 c.plane.windowExcess u) ∧
      alarmWindow c = (c.withStore fun s => { s with bankDue := (s.bankDue ++ banksOver c u).eraseDups }).withPlane
        fun p => { p with windowSignals := 0, windowExcess := [] } := by
  obtain ⟨u, hu⟩ := exists_max_on_range (SMap.get 0 c.plane.windowExcess) 15
  have hmax := List.find?_some hu
  have hmem := List.mem_of_find?_eq_some hu
  refine ⟨u, by simpa using hmem, by simpa using hmax, ?_⟩
  simp only [alarmWindow, if_neg (not_lt.mpr h), hu]

/-- Settles O44: each of the five events answers its own effect; only the alarm's limits have something to choose. -/
theorem holdsAndAlarmWindows : Obligations.HoldsAndAlarmWindows := by
  intro s hs c
  refine ⟨exec_eq_withCtl rfl rfl hs.2 rfl, exec_eq_withCtl rfl rfl hs.2 rfl, fun h => ?_, fun h => ?_, fun h => ?_, fun h => ?_⟩
  · exact exec_eq_self hs rfl (if_pos h)
  · have hends : holdEnds c = count .plnHoldClk 0 4 (c.withPlane fun p => { p with holds := p.holds - 1 }) := if_neg h.ne'
    have hwq : (holdEnds c).wq = [] := by rw [hends, count_wq]; exact hs.2
    refine ⟨reaches_of_run rfl hwq ((congrArg Ctl.quiet hends).trans (count_quiet ..)), _, rfl, ?_⟩
    exact counted_of_run rfl ((congrArg (Ctl.counter · _ _) hends).trans (count_counter_self rfl 0 (by decide) _))
  · have hw : alarmWindow c = _ := alarmWindow_of_few h
    exact exec_eq_withCtl rfl hw hs.2 rfl
  · obtain ⟨u, hu, hmax, hw⟩ := alarmWindow_of_many h
    have hwq : (alarmWindow c).wq = [] := by rw [hw]; exact hs.2
    have hq : (s.run fun _ c => alarmWindow c).ctl.quiet = (alarmWindow c).quiet := State.run_quiet_of_wq hwq
    have hplane := Ctl.plane_of_quiet hq
    have hstore := Ctl.store_of_quiet hq
    refine ⟨_, rfl, sameMem_of_run hwq, ?_, fun k hk => ?_, u, hu, hmax, fun k hk => ?_⟩
    · rw [hplane, hw]; rfl
    · rw [hstore, hw]
      exact List.mem_eraseDups.mpr (List.mem_append_left _ hk)
    · rw [hstore, hw]
      exact List.mem_eraseDups.mpr (List.mem_append_right _ hk)

end Sys2Proof.Machine
end

section
/-! REFUTATION of O42. The statement is made of every ready state, also of one that lists an intake context behind one of a higher
number. There the write of a context that still waits for its slot is noted again in front of both, and so an access that is not
granted does not leave the state as it was (12 R390). The device keeps its contexts in the order of their numbers; the statement
does not say so. -/

namespace Sys2Proof.Machine

/-- A context with one write to tile store 0 parked. -/
def parkedIntake : Intake := { Intake.off with blocked := some 0, parked := [(tileBase 0, [], 0, false)] }

/-- Contexts 1 and 0 wait, listed in this order, while the store copy of tile 0 holds their writes back. -/
def swappedIntakes : State :=
  { State.reset with
    ctl := { State.reset.ctl with
      intakes := [(1, parkedIntake), (0, parkedIntake)]
      plane := { State.reset.ctl.plane with copying := some 0 } } }

/-- What context 0 still waits with is listed a second time. -/
theorem swappedIntakes_grant_lists_three :
    (swappedIntakes.run (granted (.intake 0))).ctl.intakes.length = 3 := by
  decide +kernel

/-- Refutes O42: in `swappedIntakes` the parked write of context 0 is still held, so that granting its access should leave the state as
it is, and leaves one context listed more. -/
theorem not_blockedAccessesAreGranted : ¬ Obligations.BlockedAccessesAreGranted := by
  intro h
  obtain ⟨-, -, -, -, -, -, -, hheld, -⟩ := h swappedIntakes ⟨rfl, rfl⟩
  have hkept := hheld 0 _ [] rfl rfl rfl (by decide +kernel)
  have hlisted := congrArg (fun t => t.ctl.intakes.length) (Host.Outcome.next.inj hkept)
  exact absurd (swappedIntakes_grant_lists_three.symm.trans hlisted) (by decide)

end Sys2Proof.Machine
end

section
/-! REFUTATION of O50. The statement is made of every ready state, also of one in which a tile has three retired columns. Such a tile
serves 255 columns, so its active column 255 is none that was built, and a Plane test that finds a cell of it failing takes that
cell to lie in a column that is retired already: it retires no row (03 R105; 17 R500). The device retires at most two columns of a
tile; the statement does not say so. -/

namespace Sys2Proof.Machine

/-- Physical tile 0 as the factory left it, but with the built columns 0 to 2 retired. -/
def narrowTile : Tile := { Tile.factory 0 with retCols := [0, 1, 2] }

/-- The device after reset, with that tile. -/
def narrowed : State := { State.reset with ctl := State.reset.ctl.setTile 0 narrowTile }

theorem narrowed_may_test :
    narrowed.ctl.mayRetire = true ∧ narrowed.ctl.galeIdle = true ∧ narrowed.ctl.tilesServe = true ∧
      narrowed.ctl.physical 0 = some 0 := by
  decide +kernel

/-- A failing cell of its column 255 retires none of its rows. -/
theorem narrowed_test_retires_no_row :
    ((narrowed.run (planeTest [(0, 0, 255)])).ctl.tile 0).retRows = [] := by
  decide +kernel

/-- Refutes O50: in `narrowed`, whose tile 0 has no retired row, a failing cell in row 0 and column 255 should retire row 0, and
retires none. -/
theorem not_sparesTakeOver : ¬ Obligations.SparesTakeOver := by
  intro h
  obtain ⟨hretire, hidle, hserve, hphysical⟩ := narrowed_may_test
  obtain ⟨-, -, -, -, -, htest, -⟩ := h narrowed ⟨rfl, rfl⟩
  obtain ⟨-, -, -, hcell⟩ := htest hretire hidle hserve rfl
  obtain ⟨hrow, -⟩ := hcell 0 0 0 255 hphysical (by decide) (by decide) (by decide)
  obtain ⟨_, hrun, -, htile⟩ := hrow (by decide)
  obtain rfl := Host.Outcome.next.inj hrun
  have hrows := narrowed_test_retires_no_row.symm.trans (congrArg Tile.retRows htile)
  exact absurd hrows (by simp [narrowed, narrowTile, Ctl.setTile, Ctl.tile, Tile.factory, State.reset, Ctl.reset])

end Sys2Proof.Machine
end

section
/-! SUPPORT. What the Plane's commands share: jobs found by their number after a change, what a command's end leaves of the Plane and
of the jobs, and what reads and writes of the memories leave of the control state (03 R94, R97; 04 R143 to R145). -/

namespace Sys2Proof.Machine

/-! ### Jobs by number -/

theorem Ctl.no_of_job? {c : Ctl} {no : Nat} {j : Job} (h : c.job? no = some j) : j.no = no := by
  simpa using List.find?_some h

/-- A change of the jobs of one number, which keeps that number, is seen under it and nowhere else. -/
theorem Ctl.job?_mapJob (c : Ctl) (no : Nat) {f : Job → Job} (hf : ∀ k, (f k).no = k.no) (n : Nat) :
    (c.mapJob no f).job? n = (c.job? n).map fun k => if k.no = no then f k else k := by
  have hno : ∀ k : Job, (if k.no = no then f k else k).no = k.no := fun k => by split <;> simp [hf]
  simp only [Ctl.job?, Ctl.mapJob_jobs, List.find?_map, Function.comp_def, hno]

theorem Ctl.job?_mapJob_self {c : Ctl} {no : Nat} {j : Job} (h : c.job? no = some j) {f : Job → Job}
    (hf : ∀ k, (f k).no = k.no) : (c.mapJob no f).job? no = some (f j) := by
  rw [job?_mapJob c no hf, h, Option.map_some, if_pos (no_of_job? h)]

theorem Ctl.job?_of_jobs {a b : Ctl} (h : b.jobs = a.jobs) (no : Nat) : b.job? no = a.job? no := by
  rw [Ctl.job?, Ctl.job?, h]

theorem Ctl.withPlane_job? (c : Ctl) (f : Plane → Plane) (no : Nat) : (c.withPlane f).job? no = c.job? no := rfl

/-- A list goes on: its job's place changes, and a master of its run has moved. -/
theorem onExec_job? {c : Ctl} {no : Nat} {j : Job} (h : c.job? no = some j) (f : Exec → Exec) :
    (onExec no f c).job? no = some { j with exec := f j.exec, moved := c.clk.ns } :=
  Ctl.job?_mapJob_self (Ctl.job?_mapJob_self h (f := fun k => { k with exec := f k.exec }) fun _ => rfl) fun _ => rfl

@[simp] theorem onExec_plane (no : Nat) (f : Exec → Exec) (c : Ctl) : (onExec no f c).plane = c.plane := rfl
@[simp] theorem onExec_wq (no : Nat) (f : Exec → Exec) (c : Ctl) : (onExec no f c).wq = c.wq := rfl
@[simp] theorem onExec_slotTags (no : Nat) (f : Exec → Exec) (c : Ctl) : (onExec no f c).slotTags = c.slotTags := rfl

/-- The list that holds the Plane is found under its number, and its run goes on. -/
theorem Ctl.holding_eq_some {c : Ctl} {j : Job} : c.holding = some j ↔
    c.plane.holder = some j.no ∧ c.job? j.no = some j ∧ j.running.isSome = true ∧ j.ended = false := by
  simp only [Ctl.holding, Option.filter_eq_some_iff, Option.bind_eq_some_iff, Bool.and_eq_true, Bool.not_eq_true']
  constructor
  · rintro ⟨⟨no, hh, hj⟩, hr, he⟩
    obtain rfl := no_of_job? hj
    exact ⟨hh, hj, hr, he⟩
  · rintro ⟨hh, hj, hr, he⟩
    exact ⟨⟨_, hh, hj⟩, hr, he⟩

/-! ### The end of a command -/

@[simp] theorem reportOverflows_plane (b : Ctl) (n : Nat) (c : Ctl) : (reportOverflows b n c).plane = c.plane :=
  Ctl.plane_of_quiet (reportOverflows_quiet b n c)
@[simp] theorem reportOverflows_ctxs (b : Ctl) (n : Nat) (c : Ctl) : (reportOverflows b n c).ctxs = c.ctxs :=
  Ctl.ctxs_of_quiet (reportOverflows_quiet b n c)
@[simp] theorem reportOverflows_proto_epoch (b : Ctl) (n : Nat) (c : Ctl) :
    (reportOverflows b n c).proto.epoch = c.proto.epoch := Ctl.proto_epoch_of_quiet (reportOverflows_quiet b n c)

section
variable {f : Mem → Ctl → Ctl} {s : State}

theorem State.run_plane : (s.run f).ctl.plane = (f s.mem s.ctl).plane := by simp
theorem State.run_jobs : (s.run f).ctl.jobs = (f s.mem s.ctl).jobs := by simp
theorem State.run_ctxs : (s.run f).ctl.ctxs = (f s.mem s.ctl).ctxs := by simp
theorem State.run_slotTags : (s.run f).ctl.slotTags = (f s.mem s.ctl).slotTags := by simp
theorem State.run_slotFull (k : Nat) : (s.run f).ctl.slotFull k = (f s.mem s.ctl).slotFull k := by simp [Ctl.slotFull]
theorem State.run_epoch : (s.run f).ctl.proto.epoch = (f s.mem s.ctl).proto.epoch := by simp
theorem State.run_job? (no : Nat) : (s.run f).ctl.job? no = (f s.mem s.ctl).job? no := Ctl.job?_of_jobs State.run_jobs no

theorem withJob_run {no : Nat} {P : Job → Prop} {k : Job} (hk : (f s.mem s.ctl).job? no = some k) (h : P k) :
    withJob (s.run f) no P := ⟨k, (State.run_job? no).trans hk, h⟩

end

/-! ### Reads of the memories -/

/-- The control state without what reads of the memories leave in it: the banks, write-backs and logs of the store, counters and
packets. -/
def Ctl.unread (c : Ctl) : Ctl := { c.quiet with store := Store.reset }

theorem Ctl.unread_of_quiet {a b : Ctl} (h : a.quiet = b.quiet) : a.unread = b.unread := by rw [Ctl.unread, h, Ctl.unread]

section
variable {a b : Ctl} (h : a.unread = b.unread)
include h
theorem Ctl.slotTags_of_unread : a.slotTags = b.slotTags := (congrArg Ctl.slotTags h : a.unread.slotTags = b.unread.slotTags)
theorem Ctl.plane_of_unread : a.plane = b.plane := (congrArg Ctl.plane h : a.unread.plane = b.unread.plane)
theorem Ctl.jobs_of_unread : a.jobs = b.jobs := (congrArg Ctl.jobs h : a.unread.jobs = b.unread.jobs)
theorem Ctl.wq_of_unread : a.wq = b.wq := (congrArg Ctl.wq h : a.unread.wq = b.unread.wq)
end

@[simp] theorem Ctl.unread_ite (p : Prop) [Decidable p] (a b : Ctl) :
    (if p then a else b).unread = if p then a.unread else b.unread := apply_ite Ctl.unread p a b
@[simp] theorem Ctl.withStore_unread (c : Ctl) (f : Store → Store) : (c.withStore f).unread = c.unread := rfl
@[simp] theorem Ctl.setBank_unread (c : Ctl) (k : Nat) (b : Bank) : (c.setBank k b).unread = c.unread := rfl
@[simp] theorem count_unread (k : Cnt) (i n : Nat) (c : Ctl) : (count k i n c).unread = c.unread :=
  Ctl.unread_of_quiet (count_quiet k i n c)

theorem foldl_unread {α : Type} {f : Ctl → α → Ctl} (h : ∀ c x, (f c x).unread = c.unread) (l : List α) (c : Ctl) :
    (l.foldl f c).unread = c.unread := foldl_keeps Ctl.unread h l c

@[simp] theorem countEvents_unread (ev : Events) (c : Ctl) : (countEvents ev c).unread = c.unread :=
  foldl_unread (fun c _ => count_unread _ _ _ c) ev c
@[simp] theorem countSums_unread (l : List (Nat × Nat)) (c : Ctl) : (countSums l c).unread = c.unread :=
  foldl_unread (fun c _ => count_unread _ _ _ c) l c

@[simp] theorem noteRead_unread (m : Mem) (w : Nat) (c : Ctl) : (noteRead m w c).unread = c.unread := by
  unfold noteRead
  dsimp only
  split
  · rfl
  · split <;> simp only [Ctl.unread_ite, Ctl.withStore_unread, count_unread, ite_self]

@[simp] theorem noteReads_unread (m : Mem) (ws : List Nat) (c : Ctl) : (noteReads m ws c).unread = c.unread :=
  foldl_unread (fun c w => noteRead_unread m w c) ws c

@[simp] theorem touchRow_unread (pc bk row n : Nat) (c : Ctl) : (touchRow pc bk row n c).unread = c.unread := by
  simp [touchRow]
@[simp] theorem touchHbm_unread (a n : Nat) (c : Ctl) : (touchHbm a n c).unread = c.unread :=
  foldl_unread (fun c _ => touchRow_unread _ _ _ _ c) _ c
@[simp] theorem touchFrames_unread (ws : List Nat) (c : Ctl) : (touchFrames ws c).unread = c.unread :=
  foldl_unread (f := fun c (r : Resident) => touchPage r.flashAddr r.big c) (fun _ _ => rfl) _ c

/-! ### Writes of the memories -/

theorem emit_append (a b : List Wr) (c : Ctl) : emit (a ++ b) c = emit b (emit a c) := by
  simp [emit]
theorem emit_unread (ws : List Wr) {a b : Ctl} (h : a.unread = b.unread) : (emit ws a).unread = (emit ws b).unread := by
  have hemit (c : Ctl) : (emit ws c).unread = emit ws c.unread := rfl
  rw [hemit, hemit, h]

/-- Runs that are written are issued as writes, and the memories after them are those that the writes leave. -/
theorem writeRuns_emits (qs : List (Nat × OutRun)) (m : Mem) (c : Ctl) :
    ∃ ws, (writeRuns qs m c).1 = m.apply ws ∧ (writeRuns qs m c).2.1.unread = (emit ws c).unread := by
  induction qs generalizing m c with
  | nil => exact ⟨[], rfl, by simp [writeRuns, emit]⟩
  | cons q qs ih =>
    obtain ⟨a, q⟩ := q
    unfold writeRuns
    extract_lets ws back touched noted
    have hnoted : noted.unread = c.unread := by simp [noted, touched]
    obtain ⟨rest, hmem, hctl⟩ := ih (m.apply ws) (emit ws noted)
    refine ⟨ws ++ rest, ?_, ?_⟩
    · rw [Mem.apply_append]
      exact hmem
    · rw [emit_append]
      exact hctl.trans (emit_unread rest (emit_unread ws hnoted))

theorem putRuns_emits {j : Job} {op : Nat} {want : Option Nat → Bool} {qs : List OutRun} {tagged : Bool} {m m' : Mem}
    {c c' : Ctl} {w : List Wr} (h : putRuns j op want qs tagged m c = .ok (m', c', w)) :
    ∃ ws, m' = m.apply ws ∧ c'.unread = (emit ws c).unread := by
  unfold putRuns at h
  dsimp only at h
  split at h
  · cases h
  · split at h
    · cases h
    · obtain ⟨ws, hmem, hctl⟩ := writeRuns_emits _ m c
      have hw := Except.ok.inj h
      obtain rfl : _ = m' := congrArg (·.1) hw
      obtain rfl : _ = c' := congrArg (·.2.1) hw
      exact ⟨ws, hmem, hctl⟩

end Sys2Proof.Machine
end

section
/-! SUPPORT. Streams that start or resume, the job that takes the Plane and the one that leaves it at a stop (03 R97; 04 R143 to R145;
09 R275, R300). -/

namespace Sys2Proof.Machine

/-! ### Streams that start and resume -/

/-- A job without what its streams leave in it: the saved ones, and the time of their last move. -/
def Job.unstreamed (j : Job) : Job := { j with saved := [], moved := 0 }
/-- The control state without the contexts and what streams leave in the jobs. -/
def Ctl.unstreamed (c : Ctl) : Ctl := { c with ctxs := [], jobs := c.jobs.map Job.unstreamed }

section
variable {a b : Ctl} (h : a.unstreamed = b.unstreamed)
include h
theorem Ctl.plane_of_unstreamed : a.plane = b.plane := (congrArg Ctl.plane h : a.unstreamed.plane = b.unstreamed.plane)
theorem Ctl.wq_of_unstreamed : a.wq = b.wq := (congrArg Ctl.wq h : a.unstreamed.wq = b.unstreamed.wq)
theorem Ctl.slotTags_of_unstreamed : a.slotTags = b.slotTags :=
  (congrArg Ctl.slotTags h : a.unstreamed.slotTags = b.unstreamed.slotTags)
theorem Ctl.counters_of_unstreamed : a.counters = b.counters :=
  (congrArg Ctl.counters h : a.unstreamed.counters = b.unstreamed.counters)

/-- The same jobs stand under the same numbers, but for their streams. -/
theorem Ctl.job?_of_unstreamed {no : Nat} {j : Job} (hj : b.job? no = some j) :
    ∃ k, a.job? no = some k ∧ k.unstreamed = j.unstreamed := by
  have hfind (c : Ctl) : (c.unstreamed.jobs.find? (·.no = no)) = (c.job? no).map Job.unstreamed := List.find?_map ..
  have hmap : (a.job? no).map Job.unstreamed = some j.unstreamed := by rw [← hfind, h, hfind, hj, Option.map_some]
  simpa using hmap
end

theorem Ctl.mapJob_unstreamed (no : Nat) (f : Job → Job) (c : Ctl) (hf : ∀ k, (f k).unstreamed = k.unstreamed) :
    (c.mapJob no f).unstreamed = c.unstreamed := by
  have hif (k : Job) : (if k.no = no then f k else k).unstreamed = k.unstreamed := by split <;> simp [hf]
  simp only [Ctl.unstreamed, Ctl.mapJob, List.map_map, Function.comp_def, hif]

@[simp] theorem noteMove_unstreamed (no : Nat) (c : Ctl) : (noteMove no c).unstreamed = c.unstreamed :=
  Ctl.mapJob_unstreamed no _ c fun _ => rfl

@[simp] theorem openCtx_unstreamed (j : Job) (p : StreamPos) (refetch : List Nat) (c : Ctl) :
    (openCtx j p refetch c).unstreamed = c.unstreamed := by
  unfold openCtx
  dsimp only
  split
  · rfl
  · exact Ctl.mapJob_unstreamed j.no _ c fun _ => rfl

@[simp] theorem startStreams_unstreamed (j : Job) (pick : Nat → Bool) (c : Ctl) :
    (startStreams j pick c).unstreamed = c.unstreamed :=
  foldl_keeps Ctl.unstreamed (fun c i => by split <;> simp) _ c

@[simp] theorem resumeStream_unstreamed (m : Mem) (no : Nat) (p : StreamPos) (c : Ctl) :
    (resumeStream m no p c).unstreamed = c.unstreamed := by
  unfold resumeStream
  split
  · rfl
  · split
    · rfl
    · extract_lets halted moved
      have hmoved : moved.unstreamed = c.unstreamed := by
        unfold moved
        split <;> simp
      rw [openCtx_unstreamed, hmoved]

@[simp] theorem resumeStreams_unstreamed (m : Mem) (no : Nat) (pick : StreamPos → Bool) (c : Ctl) :
    (resumeStreams m no pick c).unstreamed = c.unstreamed := by
  unfold resumeStreams
  split
  · rfl
  · rw [foldl_keeps Ctl.unstreamed fun c p => resumeStream_unstreamed m no p c]
    exact Ctl.mapJob_unstreamed no _ c fun _ => rfl

/-! ### A job takes the Plane (R144, R145) -/

/-- A save area that goes back into the drain registers changes the registers and what reads leave. -/
theorem installCut_changes (m : Mem) (no : Nat) (c : Ctl) :
    ∃ x, (installCut m no c).plane = { c.plane with drain := x } ∧ (installCut m no c).wq = c.wq := by
  unfold installCut
  split
  · split
    · exact ⟨c.plane.drain, rfl, rfl⟩
    · rename_i d _
      extract_lets r
      split
      · split
        rename_i vals p _
        refine ⟨some { d with vals := vals }, ?_, ?_⟩
        · rw [Ctl.withPlane_plane, Ctl.plane_of_unread (noteReads_unread ..)]
        · rw [Ctl.withPlane_wq, Ctl.wq_of_unread (noteReads_unread ..)]
      · exact ⟨some d, rfl, rfl⟩
  · exact ⟨c.plane.drain, rfl, rfl⟩

/-- With nothing cut off in the list, or with the registers in use, nothing goes back into them. -/
theorem installCut_of_uncut {m : Mem} {no : Nat} {c : Ctl} (h : ∀ j, c.job? no = some j → j.exec.cut = none) :
    installCut m no c = c := by
  unfold installCut
  split
  · rename_i hj _ _
    rw [h _ hj]
  · rfl

theorem installCut_of_drain {m : Mem} {no : Nat} {c : Ctl} (h : c.plane.drain.isSome = true) : installCut m no c = c := by
  unfold installCut
  split
  · rename_i hd _
    rw [hd] at h
    cases h
  · rfl

/-- The job holds the Plane, no switch and no stop is left, and nothing is written. -/
theorem takePlane_changes (m : Mem) (no : Nat) (c : Ctl) :
    ∃ x y, (takePlane m no c).plane =
        { c.plane with holder := some no, switch := none, last := some no, stopReq := false, drain := x, waitFull := y } ∧
      (takePlane m no c).wq = c.wq := by
  unfold takePlane
  extract_lets seated resumed
  obtain ⟨x, hplane, hwq⟩ : ∃ x, resumed.plane = { seated.plane with drain := x } ∧ resumed.wq = c.wq := by
    have hstreams := resumeStreams_unstreamed m no (fun _ => true) (seated.mapJob no fun j => { j with quantumUsed := 0 })
    obtain ⟨x, hplane, hwq⟩ := installCut_changes m no
      (resumeStreams m no (fun _ => true) (seated.mapJob no fun j => { j with quantumUsed := 0 }))
    rw [Ctl.plane_of_unstreamed hstreams] at hplane
    rw [Ctl.wq_of_unstreamed hstreams] at hwq
    exact ⟨x, hplane, hwq⟩
  split
  · split
    · exact ⟨x, _, by rw [Ctl.withPlane_plane, hplane]; rfl, hwq⟩
    · exact ⟨x, _, hplane, hwq⟩
  · exact ⟨x, _, hplane, hwq⟩

/-! ### The Plane stops (R97, R143, R300) -/

/-- Turning to the next run leaves all but a switch that begins. -/
theorem nextRun_changes (c : Ctl) : ∃ w, nextRun c = c.withPlane fun p => { p with switch := w } := by
  unfold nextRun
  split
  · exact ⟨_, rfl⟩
  · exact ⟨c.plane.switch, rfl⟩

/-- What a stop does with the sums of the pass, and of a drain that waits. -/
def stopSums (m : Mem) (j : Job) (at' : StopAt) (c : Ctl) : Ctl :=
  match at' with
  | .inside => onExec j.no (fun e => { e with sums := [], saved := [], savedState := 1, phase := 1 }) (toDrain j true c)
  | .abandon =>
    let again (e : Exec) : Exec := { e with step := 0, grp := 0, sums := [], saved := [], savedState := 0, blocks := [] }
    let c := if j.kind = .array ∧ j.exec.phase = 1 ∧ j.exec.cut = none then count .plnAbandon 0 1 (onExec j.no again c) else c
    if c.plane.drainWait.isSome ∨ (j.kind = .vector ∧ c.plane.operandWait.isSome) then cutDrain m c else c
  | _ => c

/-- The list and its streams leave the Plane, which nothing holds and in which nothing waits. -/
def standDown (j : Job) (c : Ctl) : Ctl :=
  (onExec j.no (fun e => { e with stopped := e.phase = 2, band := [] }) (saveStreams j.no (count .plnStop j.cls 1 c))).withPlane fun p =>
    { p with holder := none, stopReq := false, operandWait := none, drainWait := none, passWait := false, atPassEnd := false,
             waitFull := none, heldFaults := [] }

theorem stopPlane_eq (m : Mem) (j : Job) (at' : StopAt) (c : Ctl) :
    stopPlane m j at' c = nextRun (standDown j (stopSums m j at' c)) := by
  cases at' <;> rfl

@[simp] theorem saveStreams_plane (no : Nat) (c : Ctl) : (saveStreams no c).plane = c.plane := rfl
@[simp] theorem saveStreams_wq (no : Nat) (c : Ctl) : (saveStreams no c).wq = c.wq := rfl

theorem standDown_plane (j : Job) (c : Ctl) : (standDown j c).plane =
    { c.plane with holder := none, stopReq := false, operandWait := none, drainWait := none, passWait := false, atPassEnd := false,
                   waitFull := none, heldFaults := [] } := by
  rw [standDown, Ctl.withPlane_plane, onExec_plane, saveStreams_plane, count_plane]

theorem standDown_wq (j : Job) (c : Ctl) : (standDown j c).wq = c.wq := by
  rw [standDown, Ctl.withPlane_wq, onExec_wq, saveStreams_wq, count_wq]

theorem standDown_ctxs {j : Job} {c : Ctl} : ∀ x ∈ (standDown j c).ctxs, x.job ≠ j.no := by
  intro x hx
  simpa using List.of_mem_filter hx

theorem standDown_job? {j k : Job} {c : Ctl} (hk : c.job? j.no = some k) :
    ∃ x, (standDown j c).job? j.no = some x ∧ x.exec = { k.exec with stopped := k.exec.phase == 2, band := [] } := by
  have hcount : (count .plnStop j.cls 1 c).job? j.no = some k := (Ctl.job?_of_jobs (count_jobs ..) _).trans hk
  have hsaved : (saveStreams j.no (count .plnStop j.cls 1 c)).job? j.no =
      some { k with saved := k.saved ++ ((count .plnStop j.cls 1 c).ctxs.filter fun x => x.job = j.no).map (·.pos) } :=
    Ctl.job?_mapJob_self hcount fun _ => rfl
  have hstood := onExec_job? hsaved fun e => { e with stopped := e.phase = 2, band := [] }
  exact ⟨_, hstood, rfl⟩

/-- A pass that gives its sums to the drain registers leaves all else as it was. -/
theorem toDrain_changes (j : Job) (save : Bool) (c : Ctl) :
    (toDrain j save c).unread = (c.withPlane fun p => { p with
      drain := some
        { job := j.no, idx := j.exec.pc, pass := j.exec.pass,
          vals := if j.exec.savedState = 2 then (joinSums j.exec.saved j.exec.sums).1 else j.exec.sums,
          toSave := save, table := j.exec.table, paid := [], filled := [], rows := 0, undo := [] }
      passWait := false, atPassEnd := !save }).unread := by
  unfold toDrain
  by_cases h : j.exec.savedState = 2
  · simp only [if_pos h]
    exact countSums_unread _ _
  · simp only [if_neg h]
    exact countSums_unread _ _

theorem toDrain_job? (j : Job) (save : Bool) (c : Ctl) (no : Nat) : (toDrain j save c).job? no = c.job? no :=
  Ctl.job?_of_jobs (Ctl.jobs_of_unread (toDrain_changes j save c)) no

end Sys2Proof.Machine
end

section
/-! SUPPORT. What the end of a job leaves of the Plane and of the packets: no operation of it gives the Plane to a job or fills the
drain registers, and packets only join those sent (03 R94; 04 R139, R148; 13 R394, R412). -/

namespace Sys2Proof.Machine

/-- What decides where packets go, and the packets sent. -/
def Ctl.post (c : Ctl) : List Bool × Nat × Nat × List Packet :=
  (c.proto.sa, c.proto.active, c.proto.epoch, c.proto.sent)

/-- From `a` to `b` the same job holds the Plane, no other job's drain has come into the drain registers, packets are sent as before,
and those sent are still there. -/
structure Ctl.Unwinds (a b : Ctl) : Prop where
  holder : b.plane.holder = a.plane.holder
  drain : ∀ d, b.plane.drain = some d → ∃ d', a.plane.drain = some d' ∧ d'.job = d.job
  sa : b.proto.sa = a.proto.sa
  active : b.proto.active = a.proto.active
  epoch : b.proto.epoch = a.proto.epoch
  sent : ∃ l, b.proto.sent = a.proto.sent ++ l

namespace Ctl.Unwinds

theorem refl (a : Ctl) : a.Unwinds a := ⟨rfl, fun d hd => ⟨d, hd, rfl⟩, rfl, rfl, rfl, [], by simp⟩

theorem trans {a b c : Ctl} (h : a.Unwinds b) (h' : b.Unwinds c) : a.Unwinds c := by
  refine ⟨h'.holder.trans h.holder, fun d hd => ?_, h'.sa.trans h.sa, h'.active.trans h.active, h'.epoch.trans h.epoch, ?_⟩
  · obtain ⟨d', hd', hjob'⟩ := h'.drain d hd
    obtain ⟨d'', hd'', hjob⟩ := h.drain d' hd'
    exact ⟨d'', hd'', hjob.trans hjob'⟩
  · obtain ⟨l, hl⟩ := h.sent
    obtain ⟨l', hl'⟩ := h'.sent
    exact ⟨l ++ l', by rw [hl', hl, List.append_assoc]⟩

variable {a c : Ctl} (h : a.Unwinds c)
include h

/-- What touches neither the Plane nor the packets. -/
theorem of_eq {d : Ctl} (hplane : d.plane = c.plane) (hpost : d.post = c.post) : a.Unwinds d := by
  obtain ⟨hsa, hactive, hepoch, hsent⟩ := by simpa [Ctl.post] using hpost
  refine ⟨?_, ?_, hsa.trans h.sa, hactive.trans h.active, hepoch.trans h.epoch, ?_⟩
  · rw [hplane, h.holder]
  · rw [hplane]
    exact h.drain
  · rw [hsent]
    exact h.sent

theorem ite {p : Prop} [Decidable p] {d : Ctl} (h' : a.Unwinds d) : a.Unwinds (if p then c else d) := by
  split
  · exact h
  · exact h'

theorem foldl {α : Type} {f : Ctl → α → Ctl} (hf : ∀ (c : Ctl) x, a.Unwinds c → a.Unwinds (f c x)) (l : List α) :
    a.Unwinds (l.foldl f c) := by
  induction l generalizing c with
  | nil => exact h
  | cons x l ih => exact ih (hf c x h)

/-! ### Fields -/

theorem withStore (f : Store → Store) : a.Unwinds (c.withStore f) := h.of_eq rfl rfl
theorem setBank (k : Nat) (b : Bank) : a.Unwinds (c.setBank k b) := h.of_eq rfl rfl
theorem setPort (p : Nat) (x : XwPort) : a.Unwinds (c.setPort p x) := h.of_eq rfl rfl
theorem mapJob (no : Nat) (f : Job → Job) : a.Unwinds (c.mapJob no f) := h.of_eq rfl rfl
theorem noteMove (no : Nat) : a.Unwinds (noteMove no c) := h.of_eq rfl rfl
theorem onExec (no : Nat) (f : Exec → Exec) : a.Unwinds (onExec no f c) := h.of_eq rfl rfl
theorem emit (ws : List Wr) : a.Unwinds (emit ws c) := h.of_eq rfl rfl
theorem setTag (k v : Nat) : a.Unwinds (setTag k v c) := h.of_eq rfl rfl
theorem countRaw (k : Cnt) (i n : Nat) : a.Unwinds (countRaw k i n c) := h.of_eq rfl rfl
theorem takeFree : a.Unwinds (takeFree c).2 := h.of_eq rfl rfl
theorem saveStreams (no : Nat) : a.Unwinds (saveStreams no c) := h.of_eq rfl rfl
theorem freeFrames (j : Job) : a.Unwinds (freeFrames j c) := h.of_eq rfl rfl
theorem dropLinks (no : Nat) : a.Unwinds (dropLinks no c) := h.of_eq rfl rfl
theorem reap (m : Mem) (x : Xfer) : a.Unwinds (reap m x c) := h.of_eq rfl rfl
theorem touchPage (fa : Nat) (big : Bool) : a.Unwinds (touchPage fa big c) := h.of_eq rfl rfl
theorem chargeEngine (tile cls hbm noc : Nat) : a.Unwinds (chargeEngine tile cls hbm noc c) := h.of_eq rfl rfl

/-! ### Packets and counters -/

theorem send (p : Packet) : a.Unwinds (send p c) := by
  refine ⟨?_, ?_, ?_, ?_, ?_, ?_⟩
  · rw [send_plane, h.holder]
  · rw [send_plane]
    exact h.drain
  · rw [send_proto_sa, h.sa]
  · rw [send_proto_active, h.active]
  · rw [send_proto_epoch, h.epoch]
  · obtain ⟨l, hl⟩ := h.sent
    exact ⟨_, by rw [send_sent, hl, List.append_assoc]⟩

theorem event (code job status list idx tag : Nat) (detail : List Byte) (more : List Peer) :
    a.Unwinds (event code job status list idx tag detail more c) :=
  h.takeFree.foldl (fun _ _ hc => hc.send _) _

theorem serviceEvent (kind block inst value : Nat) : a.Unwinds (serviceEvent kind block inst value c) := by
  unfold Machine.serviceEvent
  extract_lets k noted reported detail
  have hreported : a.Unwinds reported := h.of_eq rfl rfl
  split
  · exact h
  · exact (hreported.countRaw _ _ _).event ..

theorem count (k : Cnt) (i n : Nat) : a.Unwinds (count k i n c) := by
  unfold Machine.count
  extract_lets full counted
  have hcounted : a.Unwinds counted := h.countRaw k i n
  split
  · exact h
  · split
    · exact (hcounted.serviceEvent ..).countRaw ..
    · exact hcounted

theorem countEvents (ev : Events) : a.Unwinds (countEvents ev c) := h.foldl (fun _ _ hc => hc.count ..) ev

theorem answer (r : Req) (kind : Nat) (st : KS) (body : List Byte) : a.Unwinds (answer r kind st body c) := by
  unfold Machine.answer answerAll
  extract_lets ps hit copy sent copied
  have hsent : a.Unwinds sent := h.foldl (fun _ _ hc => hc.send _) ps
  have hcopied : a.Unwinds copied := by
    unfold copied
    cases copy with
    | some q => exact hsent.foldl (fun _ _ hc => hc.send _) ps
    | none => exact hsent
  exact hcopied.of_eq rfl rfl

/-! ### Slot tags -/

theorem setAll {f : Nat → Ctl → Ctl} (hf : ∀ k c, a.Unwinds c → a.Unwinds (f k c)) (ks : List Nat) :
    a.Unwinds (setAll f ks c) := h.foldl (fun c k => hf k c) ks

theorem setFull (k : Nat) : a.Unwinds (setFull k c) := h.ite (h.setTag k 1)
theorem setEmpty (k : Nat) : a.Unwinds (setEmpty k c) := (h.setTag k 0).ite h
theorem setAllFull (ks : List Nat) : a.Unwinds (Machine.setAll Machine.setFull ks c) := h.setAll (fun _ _ hc => hc.setFull _) ks
theorem setAllEmpty (ks : List Nat) : a.Unwinds (Machine.setAll Machine.setEmpty ks c) := h.setAll (fun _ _ hc => hc.setEmpty _) ks
theorem voidPart (e : Handle) (s k : Nat) : a.Unwinds (voidPart e s k c) :=
  h.ite ((h.setTag k 3).ite ((h.setTag k 3).count ..))

/-! ### Reads of the memories -/

theorem noteRead (m : Mem) (w : Nat) : a.Unwinds (noteRead m w c) := by
  unfold Machine.noteRead
  dsimp only
  split
  · exact h
  · split <;> apply_rules [withStore, count, ite]

theorem noteReads (m : Mem) (ws : List Nat) : a.Unwinds (noteReads m ws c) := h.foldl (fun _ _ hc => hc.noteRead m _) ws
theorem touchRow (pc bk row n : Nat) : a.Unwinds (touchRow pc bk row n c) := ((h.count ..).count ..).setBank ..
theorem touchHbm (addr n : Nat) : a.Unwinds (touchHbm addr n c) := h.foldl (fun _ _ hc => hc.touchRow ..) _
theorem touchFrames (ws : List Nat) : a.Unwinds (touchFrames ws c) := h.foldl (fun _ _ hc => hc.touchPage ..) _

theorem noteVector (m : Mem) (no idx : Nat) (p : Port) : a.Unwinds (noteVector m no idx p c) :=
  (((((h.noteReads ..).foldl (fun _ _ hc => hc.touchHbm ..) _).touchFrames _).foldl (fun _ _ hc => hc.count ..) _)).mapJob ..

/-! ### Transfers of the stream engines -/

theorem leaveSlots (m : Mem) (j : Job) (x : Xfer) (rest : List Xfer) : a.Unwinds (leaveSlots m j x rest c) := by
  have tags (b : Bool) (ks : List Nat) (c : Ctl) (hc : a.Unwinds c) :
      a.Unwinds (Machine.setAll (if b then Machine.setFull else Machine.setEmpty) ks c) ∧
      a.Unwinds (Machine.setAll (if b then Machine.setEmpty else Machine.setFull) ks c) := by
    cases b
    · exact ⟨hc.setAllEmpty ks, hc.setAllFull ks⟩
    · exact ⟨hc.setAllFull ks, hc.setAllEmpty ks⟩
  unfold Machine.leaveSlots
  extract_lets r
  split
  · exact h
  · dsimp only
    have hleft (p : Prop) [Decidable p] (ks : List Nat) :
        a.Unwinds (if p then Machine.setAll (if tStore r then Machine.setEmpty else Machine.setFull) ks c else c) :=
      ((tags _ _ c h).2).ite h
    split
    · split
      · exact (tags _ _ _ (hleft ..)).1
      · exact hleft ..
    · exact hleft ..

theorem deliver (m : Mem) (x : Xfer) : a.Unwinds (deliver m x c) := by
  unfold Machine.deliver
  extract_lets rest flying moved noted
  have hnoted : a.Unwinds noted := ((h.of_eq rfl rfl : a.Unwinds flying).noteMove _).noteReads ..
  split
  · exact hnoted
  · dsimp only
    split
    · refine reap ?_ m x
      exact (hnoted.touchHbm x.src x.words).of_eq rfl rfl
    · have hwritten (ws : List Wr) : a.Unwinds (Machine.emit ws noted) := hnoted.emit ws
      have hsrc (ws : List Wr) := ((hwritten ws).touchHbm x.src x.words).ite (p := regionOf x.src = .hbm) (hwritten ws)
      have hdst (ws : List Wr) := ((hsrc ws).touchHbm x.dst x.words).ite (p := regionOf x.dst = .hbm) (hsrc ws)
      exact ((((hdst _).mapJob ..).count ..).leaveSlots ..).reap ..

theorem deliverAll (no n : Nat) (m : Mem) : a.Unwinds (deliverAll no n m c) := by
  induction n generalizing m c with
  | zero => exact h
  | succ n ih =>
    rw [Machine.deliverAll]
    split
    · exact h
    · rename_i x _
      refine ih ?_ _
      exact ((h.of_eq rfl rfl : a.Unwinds { c with wq := [] }).deliver m x).of_eq rfl rfl

theorem voidParts (m : Mem) (no : Nat) : a.Unwinds (voidParts m no c) := by
  unfold Machine.voidParts
  split
  · exact h
  · exact h.foldl (fun _ _ hc => hc.voidPart ..) _

/-! ### Drains of the Plane -/

theorem freeRegisters : a.Unwinds (freeRegisters c) :=
  ⟨h.holder, fun _ hd => absurd hd (by simp [Machine.freeRegisters]), h.sa, h.active, h.epoch, h.sent⟩

theorem freeDrain : a.Unwinds (freeDrain c) := by
  unfold Machine.freeDrain
  split
  · exact h.freeRegisters
  · exact (h.ite (h.mapJob ..)).freeRegisters

/-- A charge is noted in the drain registers, whose drain stays that of its job. -/
theorem payFor (cls : Nat) (need : List (Nat × Nat × Nat)) : a.Unwinds (payFor cls need c).2 := by
  have hpaid {c : Ctl} (hc : a.Unwinds c) (f : Drain → Drain) (hf : ∀ d, (f d).job = d.job) :
      a.Unwinds (c.withPlane fun p => { p with drain := p.drain.map f }) := by
    refine ⟨hc.holder, fun d hd => ?_, hc.sa, hc.active, hc.epoch, hc.sent⟩
    obtain ⟨d', hd', rfl⟩ := Option.map_eq_some_iff.mp hd
    rw [hf]
    exact hc.drain d' hd'
  unfold Machine.payFor
  suffices hall : ∀ (l : List Nat) (g : Bool × Ctl → Nat → Bool × Ctl), (∀ x t, a.Unwinds x.2 → a.Unwinds (g x t).2) →
      ∀ x : Bool × Ctl, a.Unwinds x.2 → a.Unwinds (l.foldl g x).2 by
    refine hall _ _ (fun x t hx => ?_) _ h
    extract_lets mine paid hbm noc grantHbm grantNoc charged
    have hcharged : a.Unwinds charged := hpaid (hx.chargeEngine ..) _ fun _ => rfl
    split
    · exact hx
    · split
      · dsimp only
        exact hcharged.count ..
      · exact hcharged
  intro l g hg
  induction l with
  | nil => exact fun x hx => hx
  | cons t l ih => exact fun x hx => ih _ (hg x t hx)

theorem writeRuns (qs : List (Nat × OutRun)) (m : Mem) : a.Unwinds (writeRuns qs m c).2.1 := by
  induction qs generalizing m c with
  | nil => exact h
  | cons q qs ih =>
    unfold Machine.writeRuns
    exact ih ((((h.touchHbm ..).ite h).noteReads ..).emit _) _

theorem putRuns {j : Job} {op : Nat} {want : Option Nat → Bool} {qs : List OutRun} {tagged : Bool} {m m' : Mem}
    {c' : Ctl} {w : List Wr} (hput : putRuns j op want qs tagged m c = .ok (m', c', w)) : a.Unwinds c' := by
  unfold Machine.putRuns at hput
  dsimp only at hput
  split at hput
  · cases hput
  · split at hput
    · cases hput
    · obtain rfl : _ = c' := congrArg (·.2.1) (Except.ok.inj hput)
      exact h.writeRuns _ m

theorem writeRows {m : Mem} {d : Drain} {j : Job} {xs : List RowAt} {want : Option Nat → Bool} {c' : Ctl}
    {w : List Wr} (hrows : writeRows m d j xs want c = .ok (c', w)) : a.Unwinds c' := by
  unfold Machine.writeRows at hrows
  dsimp only at hrows
  split at hrows
  · cases hrows
  · split at hrows
    · cases hrows
    · rename_i hpay
      have hpaid : a.Unwinds _ := congrArg Prod.snd hpay ▸ h.payFor ..
      split at hrows
      · cases hrows
      · rename_i hput
        split at hrows
        · cases hrows
        · rename_i hput'
          obtain rfl : _ = c' := congrArg (·.1) (Except.ok.inj hrows)
          exact (((hpaid.putRuns hput).putRuns hput').noteVector ..).countEvents _

theorem scatterRows {j : Job} {r : Nat} {d : Drain} {xs : List RowAt} {need need' : List (Nat × Nat × Nat)}
    {u u' : List Wr} {m : Mem} {c0 c' : Ctl} (hrows : scatterRows j r d xs need u m c c0 = .ok (c', need', u')) :
    a.Unwinds c' := by
  induction xs generalizing need u m c with
  | nil =>
    cases hrows
    exact h
  | cons x xs ih =>
    rw [Machine.scatterRows] at hrows
    dsimp only at hrows
    split at hrows
    split at hrows
    · cases hrows
    · split at hrows
      · cases hrows
      · rename_i hput
        exact ih (((h.putRuns hput).noteVector ..).countEvents _) hrows

theorem completeDrain {m : Mem} {d : Drain} {j : Job} {c' : Ctl} (hdone : completeDrain m d j c = .ok c') : a.Unwinds c' := by
  unfold Machine.completeDrain at hdone
  dsimp only at hdone
  split at hdone
  · split at hdone
    · rename_i hput
      cases hdone
      exact (h.putRuns hput).freeDrain
    · cases hdone
  · split at hdone
    · split at hdone
      · cases hdone
      · rename_i hrows
        split at hdone
        · cases hdone
        · cases hdone
          refine freeDrain (setAllFull ?_ _)
          exact (h.scatterRows hrows).of_eq rfl rfl
    · split at hdone
      · cases hdone
      · rename_i hrows
        cases hdone
        exact ((h.writeRows hrows).setAllFull _).freeDrain

theorem finishDrain (m : Mem) : a.Unwinds (finishDrain m c) := by
  unfold Machine.finishDrain
  split
  · exact h
  · split
    · exact h.freeDrain
    · split
      · rename_i hdone
        exact h.completeDrain hdone
      · exact h

theorem undoDrain : a.Unwinds (undoDrain c) := by
  unfold Machine.undoDrain
  split
  · exact h
  · exact ((h.emit _).setAllEmpty _).freeDrain

theorem settleCut (m : Mem) (no idx : Nat) : a.Unwinds (settleCut m no idx c) := by
  unfold Machine.settleCut
  split
  · exact h
  · split
    · exact h
    · extract_lets c0 m' vals
      have hc0 : a.Unwinds c0 := h.mapJob ..
      split
      · exact (hc0.emit _).setAllEmpty _
      · split
        · rename_i hdone
          have hdone := (Unwinds.mk hc0.holder (fun _ hd => by cases hd) hc0.sa hc0.active hc0.epoch hc0.sent :
            a.Unwinds (c0.withPlane fun p => { p with drain := none })).completeDrain hdone
          exact ⟨hdone.holder, h.drain, hdone.sa, hdone.active, hdone.epoch, hdone.sent⟩
        · exact h

theorem closeCommand (j : Job) (i : Nat) : a.Unwinds (closeCommand j i c) := by
  unfold Machine.closeCommand
  extract_lets r read release relA relAux signalled done counted stepped
  have hrelease (n : Nat) {c : Ctl} (hc : a.Unwinds c) : a.Unwinds (release n c) := by
    unfold release
    split
    · exact hc.setAllEmpty _
    · exact hc
  have hrelA : a.Unwinds relA := (hrelease _ h).ite h
  have hrelAux : a.Unwinds relAux := (hrelease _ hrelA).ite hrelA
  have hsignalled : a.Unwinds signalled := by
    unfold signalled
    split
    · exact hrelAux.setAllFull _
    · exact hrelAux
  have hdone : a.Unwinds done := hsignalled.count ..
  have hcounted : a.Unwinds counted := (hdone.count ..).ite hdone
  exact ((hcounted.count ..).ite hcounted).onExec ..

theorem closeEarlier (no idx : Nat) : a.Unwinds (closeEarlier no idx c) := by
  unfold Machine.closeEarlier
  split
  · exact h
  · refine h.foldl (fun c i hc => ?_) _
    split
    · exact (hc.closeCommand ..).ite hc
    · exact hc

theorem settleDrain (m : Mem) (no idx : Nat) : a.Unwinds (settleDrain m no idx c) := by
  unfold Machine.settleDrain
  extract_lets from' settled
  have hsettled : a.Unwinds settled := by
    unfold settled
    split
    · exact h.ite ((h.finishDrain m).ite h.undoDrain)
    · exact h
  exact (hsettled.settleCut ..).closeEarlier ..

theorem dropDrain (no : Nat) : a.Unwinds (dropDrain no c) := by
  unfold Machine.dropDrain
  extract_lets dropped
  have hdropped : a.Unwinds dropped := by
    unfold dropped
    split
    · exact h.undoDrain.ite h
    · exact h
  split
  · exact ((hdropped.mapJob ..).emit _).setAllEmpty _
  · exact hdropped

/-! ### Links, host transfers and results -/

theorem pushPacket (port type : Nat) (pk : XwPacket) : a.Unwinds (pushPacket port type pk c) :=
  (h.setPort ..).ite (h.setPort ..)

theorem tellMembers (type : Nat) (j : Job) (words : List XwWord) : a.Unwinds (tellMembers type j words c) := by
  refine h.foldl (fun c k hc => ?_) _
  split
  · exact hc
  · exact hc.pushPacket ..

theorem voidXfer (x : HostXfer) : a.Unwinds (voidXfer x c) := by
  unfold Machine.voidXfer
  extract_lets dropped
  have hdropped : a.Unwinds dropped := h.of_eq rfl rfl
  split
  · exact hdropped.voidPart ..
  · exact hdropped

theorem voidHost (j : Job) : a.Unwinds (voidHost j c) := h.foldl (fun _ _ hc => hc.voidXfer _) _

theorem endSlots (j : Job) : a.Unwinds (endSlots j c) := h.foldl (fun _ _ hc => hc.ite (hc.setAllEmpty _)) _

theorem sendResult (m : Mem) (j : Job) (rp : Reply) : a.Unwinds (sendResult m j rp c) := by
  unfold Machine.sendResult
  extract_lets release parts read all max trunc counted body sizes pieces
  have hrelease {c : Ctl} (hc : a.Unwinds c) : a.Unwinds (release c) := by
    unfold release
    refine Unwinds.ite (hc.foldl (fun c n hc => ?_) _) hc
    split
    · exact hc.setAllEmpty _
    · exact hc
  have hread : a.Unwinds read := h.noteReads ..
  have hcounted : a.Unwinds counted := (hread.count ..).ite hread
  split
  · exact hrelease (h.count ..)
  · exact hrelease (hcounted.takeFree.foldl (fun _ _ hc => hc.send _) _)

theorem flushReplies (m : Mem) (j : Job) : a.Unwinds (flushReplies m j c) := by
  refine h.foldl (fun c rp hc => ite ?_ hc) _
  exact (hc.sendResult m j rp).of_eq rfl rfl

end Ctl.Unwinds

end Sys2Proof.Machine
end

section
/-! SUPPORT. The end of a job: what it leaves of the Plane, and the EVENT and the reply that it sends (13 R148, R407, R412). -/

namespace Sys2Proof.Machine

/-! ### Every job of a number has ended -/

/-- Every job numbered `no` that is left has ended. -/
def Ctl.allOver (c : Ctl) (no : Nat) : Prop := ∀ k ∈ c.jobs, k.no = no → k.ended = true

theorem Ctl.allOver_iff (c : Ctl) (no : Nat) : c.allOver no ↔ ∀ x ∈ c.roster, x.1 = no → x.2.2 = true := by
  simp [allOver, roster, Job.face]

theorem Ctl.allOver_of_roster {a b : Ctl} (h : b.roster = a.roster) {no : Nat} : b.allOver no ↔ a.allOver no := by
  rw [allOver_iff, allOver_iff, h]

theorem endedJob_run {f : Mem → Ctl → Ctl} {s : State} {no : Nat} : endedJob (s.run f) no ↔ (f s.mem s.ctl).allOver no := by
  rw [endedJob, State.run_jobs, Ctl.allOver]

theorem Ctl.EndsJob.allOver {no : Nat} {a b : Ctl} (h : a.EndsJob no b) : b.allOver no := by
  rw [Ctl.allOver_iff]
  obtain ⟨-, hr | hr⟩ := h <;> rw [hr]
  · intro x hx hno
    exact absurd hno (by simpa using List.of_mem_filter hx)
  · intro x hx hno
    obtain ⟨y, -, rfl⟩ := List.mem_map.mp hx
    rw [markEnded_fst] at hno
    exact markEnded_ended (.inl hno)

/-- The end of one job ends none anew: those that have ended still have. -/
theorem Ctl.EndsJob.allOver_of_allOver {no n : Nat} {a b : Ctl} (h : a.EndsJob no b) (hn : a.allOver n) : b.allOver n := by
  rw [Ctl.allOver_iff] at hn ⊢
  obtain ⟨-, hr | hr⟩ := h <;> rw [hr]
  · exact fun x hx => hn x (List.mem_of_mem_filter hx)
  · intro x hx hno
    obtain ⟨y, hy, rfl⟩ := List.mem_map.mp hx
    rw [markEnded_fst] at hno
    exact markEnded_ended (.inr (hn y hy hno))

/-! ### The Plane that the job leaves -/

@[simp] theorem freeDrain_drain (c : Ctl) : (freeDrain c).plane.drain = none := by
  unfold freeDrain
  split <;> rfl
@[simp] theorem undoDrain_drain (c : Ctl) : (undoDrain c).plane.drain = none := by
  unfold undoDrain
  split
  · assumption
  · exact freeDrain_drain _

/-- The drain of the command that is hit, or of a later one, is gone. -/
theorem settleDrain_drain (m : Mem) {no idx : Nat} {c : Ctl} (h : ∀ d, c.plane.drain = some d → d.job = no → idx ≤ d.idx) :
    ∀ d, (settleDrain m no idx c).plane.drain = some d → d.job ≠ no := by
  unfold settleDrain
  extract_lets from' settled
  have hfrom : from' ≤ idx := by
    unfold from'
    split
    · unfold Exec.hitFrom
      split
      · exact min_le_right ..
      · exact le_rfl
    · exact le_rfl
  have hsettled : ∀ d, settled.plane.drain = some d → d.job ≠ no := by
    unfold settled
    split
    · rename_i d hd
      split
      · rename_i hjob
        intro d' hd'
        obtain rfl := Option.some.inj (hd.symm.trans hd')
        exact hjob
      · rename_i hjob
        have hlater : ¬ d.idx < from' := by have := h d hd (not_not.mp hjob); omega
        simp [if_neg hlater]
    · rename_i hd
      intro d' hd'
      rw [hd] at hd'
      cases hd'
  intro d hd
  obtain ⟨d', hd', hjob⟩ := (((Ctl.Unwinds.refl settled).settleCut m no from').closeEarlier no from').drain d hd
  exact hjob ▸ hsettled d' hd'

theorem leavePlane_drain (m : Mem) {j : Job} {idx : Nat} {c : Ctl} (h : ∀ d, c.plane.drain = some d → d.job = j.no → idx ≤ d.idx) :
    ∀ d, (leavePlane m j idx c).plane.drain = some d → d.job ≠ j.no := settleDrain_drain m h

theorem leavePlane_holder (m : Mem) (j : Job) (idx : Nat) (c : Ctl) :
    (leavePlane m j idx c).plane.holder = if c.plane.holder = some j.no then none else c.plane.holder := by
  have h := ((Ctl.Unwinds.refl c).settleDrain m j.no idx).holder
  simp [leavePlane, h]

/-- Leaving the Plane is all that the Plane sees of a job's end, and the job's EVENT and the reply to its abort come last. -/
theorem endJobWith_course (detail : List Byte) (m : Mem) {no : Nat} (st : KS) (list idx tag : Nat) {c : Ctl} {j : Job}
    (hj : c.job? no = some j) (he : j.ended = false) : ∃ ended admitted,
      (leavePlane m j idx c).Unwinds ended ∧ (event 1 no st.code list idx tag detail [j.submitter] ended).Unwinds admitted ∧
      endJobWith detail m no st list idx tag c =
        match j.abortReq with | some r => answer r 0x12 st [] admitted | none => admitted := by
  unfold endJobWith
  simp -zeta only [hj, he, Bool.false_eq_true, if_false]
  extract_lets left hit faulted delivered saved flushed seq told unlinked voided kept emptied dropped freed mark ended sent
    endAnswered admitAnswered
  have hfaulted : left.Unwinds faulted := ((Ctl.Unwinds.refl left).count ..).ite (.refl left)
  have hflushed : left.Unwinds flushed := (((hfaulted.deliverAll ..).voidParts ..).saveStreams _).flushReplies ..
  have htold : left.Unwinds told := (hflushed.tellMembers ..).ite hflushed
  have hunlinked : left.Unwinds unlinked := (htold.dropLinks _).ite htold
  have hvoided : left.Unwinds voided := hunlinked.voidHost _
  have hemptied : left.Unwinds emptied := hvoided.ite (hvoided.endSlots _)
  have hdropped : left.Unwinds dropped := (hemptied.settleDrain ..).dropDrain _
  have hfreed : left.Unwinds freed := hdropped.ite ((hdropped.endSlots _).freeFrames _)
  have hended : left.Unwinds ended := (hfreed.mapJob ..).ite (hfreed.of_eq rfl rfl)
  have hend : sent.Unwinds endAnswered := by
    unfold endAnswered
    split
    · exact (Ctl.Unwinds.refl sent).answer ..
    · exact .refl sent
  have hadmit : sent.Unwinds admitAnswered := by
    unfold admitAnswered
    split
    · exact hend.answer ..
    · exact hend
  exact ⟨ended, admitAnswered, hended, hadmit, rfl⟩

/-! ### What is sent -/

/-- A fold of packets sends each of them whose port has an association. -/
theorem foldl_send_mem {ps : List Peer} {f : Ctl → Peer → Packet} (hf : ∀ c d, (f c d).dst = d) {p : Peer} (hp : p ∈ ps) {c : Ctl}
    (hsa : c.proto.sa.getD p.port false = true) :
    ∃ c' a b, (ps.foldl (fun c d => send (f c d) c) c).proto.sent = c.proto.sent ++ (a ++ f c' p :: b) := by
  induction ps generalizing c with
  | nil => cases hp
  | cons d ps ih =>
    rw [List.foldl_cons]
    obtain rfl | hp := List.mem_cons.mp hp
    · obtain ⟨l, hl⟩ := ((Ctl.Unwinds.refl (send (f c p) c)).foldl (f := fun c d => send (f c d) c) (fun _ _ h => h.send _) ps).sent
      have hthis : (send (f c p) c).proto.sent = c.proto.sent ++ [f c p] := by rw [send_sent, hf, if_pos hsa]
      exact ⟨c, [], l, by rw [hl, hthis]; simp⟩
    · obtain ⟨c', a, b, hl⟩ := ih hp (c := send (f c d) c) (by simpa using hsa)
      exact ⟨c', (if c.proto.sa.getD (f c d).dst.port false then [f c d] else []) ++ a, b,
        by rw [hl, send_sent, List.append_assoc, List.append_assoc]⟩

/-- An EVENT goes to each further peer on the active port (R396, R412). -/
theorem event_sent (code job status list idx tag : Nat) (detail : List Byte) {more : List Peer} {p : Peer} (hp : p ∈ more) {c : Ctl}
    (hsa : c.proto.sa.getD c.proto.active false = true) :
    ∃ a b q, (event code job status list idx tag detail more c).proto.sent = c.proto.sent ++ (a ++ q :: b) ∧ q.kind = 0x21 ∧
      q.status = status ∧ q.dst = { p with port := c.proto.active } := by
  have hdest : ({ p with port := c.proto.active } : Peer) ∈
      (eventDest (takeFree c).2 ++ more.map fun p => ({ p with port := c.proto.active } : Peer)).eraseDups := by
    rw [List.mem_eraseDups]
    exact List.mem_append_right _ (List.mem_map_of_mem hp)
  obtain ⟨c', a, b, hsent⟩ := foldl_send_mem (c := (takeFree c).2) (f := fun c' d =>
    { dst := d, src := portAddr c' d.port d.addr, srcUdp := c'.param 0x0D00, kind := 0x21, flags := 6,
      reqId := (takeFree c).1 % 2 ^ 32, status := status, role := 0, epoch := c'.proto.epoch,
      payload := eventPayload c code job status list idx tag detail }) (fun _ _ => rfl) hdest hsa
  exact ⟨a, b, _, hsent, rfl, rfl, rfl⟩

/-- What a command's end reports joins the packets sent. -/
theorem Ctl.Unwinds.reportOverflows {a c : Ctl} (h : a.Unwinds c) (b : Ctl) (n : Nat) : a.Unwinds (reportOverflows b n c) := by
  induction n generalizing b c with
  | zero => exact h
  | succ n ih =>
    unfold Machine.reportOverflows
    dsimp only
    split
    · exact h
    · exact ih (h.foldl (fun _ _ hc => (hc.serviceEvent ..).countRaw ..) _) c

theorem State.run_sent (f : Mem → Ctl → Ctl) (s : State) :
    ∃ l, (s.run f).ctl.proto.sent = (f s.mem s.ctl).proto.sent ++ l :=
  ((Ctl.Unwinds.refl (f s.mem s.ctl)).reportOverflows s.ctl 4).sent

/-! ### A job ends -/

section
variable (detail : List Byte) (m : Mem) {no : Nat} (st : KS) (list idx tag : Nat) {c : Ctl} {j : Job}
  (hj : c.job? no = some j) (he : j.ended = false)
include hj he

/-- What a job's end does to the Plane is what leaving it does. -/
theorem endJobWith_unwinds : (leavePlane m j idx c).Unwinds (endJobWith detail m no st list idx tag c) := by
  obtain ⟨ended, admitted, hended, hadmitted, hend⟩ := endJobWith_course detail m st list idx tag hj he
  have hevent : (leavePlane m j idx c).Unwinds admitted := (hended.event ..).trans hadmitted
  rw [hend]
  split
  · exact hevent.answer ..
  · exact hevent

theorem endJobWith_holder (hh : c.plane.holder = some no) : (endJobWith detail m no st list idx tag c).plane.holder = none := by
  obtain rfl := Ctl.no_of_job? hj
  rw [(endJobWith_unwinds detail m st list idx tag hj he).holder, leavePlane_holder, if_pos hh]

theorem endJobWith_drain (h : ∀ d, c.plane.drain = some d → d.job = no → idx ≤ d.idx) :
    ∀ d, (endJobWith detail m no st list idx tag c).plane.drain = some d → d.job ≠ no := by
  obtain rfl := Ctl.no_of_job? hj
  intro d hd
  obtain ⟨d', hd', hjob⟩ := (endJobWith_unwinds detail m st list idx tag hj he).drain d hd
  exact hjob ▸ leavePlane_drain m h d' hd'
end

theorem leavePlane_post (m : Mem) (j : Job) (idx : Nat) (c : Ctl) :
    (leavePlane m j idx c).proto.sa = c.proto.sa ∧ (leavePlane m j idx c).proto.active = c.proto.active ∧
    (leavePlane m j idx c).proto.epoch = c.proto.epoch ∧ ∃ l, (leavePlane m j idx c).proto.sent = c.proto.sent ++ l := by
  have h := (Ctl.Unwinds.refl c).settleDrain m j.no idx
  exact ⟨h.sa, h.active, h.epoch, h.sent⟩

section
variable (detail : List Byte) (m : Mem) {no : Nat} (st : KS) (list idx tag : Nat) {c : Ctl} {j : Job}
  (hj : c.job? no = some j) (he : j.ended = false)
include hj he

/-- The end of a job is told its submitter (R148, R412). -/
theorem endJobWith_tells (hsa : c.proto.sa.getD c.proto.active false = true) :
    ∃ a b q, (endJobWith detail m no st list idx tag c).proto.sent = c.proto.sent ++ (a ++ q :: b) ∧ q.kind = 0x21 ∧
      q.status = st.code ∧ q.dst = { j.submitter with port := c.proto.active } := by
  obtain ⟨ended, admitted, hended, hadmitted, hend⟩ := endJobWith_course detail m st list idx tag hj he
  obtain ⟨hlsa, hlact, -, l, hl⟩ := leavePlane_post m j idx c
  have hactive : ended.proto.active = c.proto.active := hended.active.trans hlact
  obtain ⟨l', hl'⟩ := hended.sent
  obtain ⟨a, b, q, hsent, hkind, hstatus, hdst⟩ := event_sent 1 no st.code list idx tag detail
    (List.mem_singleton_self j.submitter) (c := ended) (by rw [hactive, hended.sa, hlsa]; exact hsa)
  have hanswered : admitted.Unwinds (endJobWith detail m no st list idx tag c) := by
    rw [hend]
    split
    · exact (Ctl.Unwinds.refl admitted).answer ..
    · exact .refl admitted
  obtain ⟨r, hr⟩ := (hadmitted.trans hanswered).sent
  refine ⟨l ++ l' ++ a, b ++ r, q, ?_, hkind, hstatus, by rw [hdst, hactive]⟩
  rw [hr, hsent, hl', hl]
  simp

/-- A job that ends with an abort due answers it (R418). -/
theorem endJobWith_answersAbort {r : Req} (hr : j.abortReq = some r) (hsa : c.proto.sa.getD r.port false = true) :
    ∃ a b, (endJobWith detail m no st list idx tag c).proto.sent =
      c.proto.sent ++ (a ++ (replyPackets r 0x12 st [[]] c.proto.epoch r.port ++ b)) ∧
      (endJobWith detail m no st list idx tag c).proto.epoch = c.proto.epoch := by
  obtain ⟨ended, admitted, hended, hadmitted, hend⟩ := endJobWith_course detail m st list idx tag hj he
  obtain ⟨hlsa, -, hlepoch, l, hl⟩ := leavePlane_post m j idx c
  have htold : (leavePlane m j idx c).Unwinds admitted := (hended.event ..).trans hadmitted
  have hepoch : admitted.proto.epoch = c.proto.epoch := htold.epoch.trans hlepoch
  obtain ⟨l', hl'⟩ := htold.sent
  replace hend : endJobWith detail m no st list idx tag c = answer r 0x12 st [] admitted := by rw [hend, hr]
  obtain ⟨b, hsent⟩ := answerAll_sent r 0x12 st [[]] admitted (by rw [htold.sa, hlsa]; exact hsa)
  refine ⟨l ++ l', b, ?_, ?_⟩
  · rw [hend, answer, hsent, hepoch, hl', hl]
    simp
  · rw [hend, ← hepoch]
    exact ((Ctl.Unwinds.refl admitted).answer ..).epoch
end

end Sys2Proof.Machine
end

section
/-! SUPPORT. A tile that leaves service, and the entry into Lee mode that it may cause, give the Plane to no job, fill no drain register
and leave ended jobs ended; with it what a parity mismatch does (03 R80, R107 to R109; 17 R506 to R510). -/

namespace Sys2Proof.Machine

/-- From `a` to `b` a free Plane stays free, no other job's drain has come into the drain registers, and the jobs of a number that had
all ended still have. -/
structure Ctl.Retreats (a b : Ctl) : Prop where
  free : a.plane.holder = none → b.plane.holder = none
  drain : ∀ d, b.plane.drain = some d → ∃ d', a.plane.drain = some d' ∧ d'.job = d.job
  ended : ∀ no, a.allOver no → b.allOver no

namespace Ctl.Retreats

theorem refl (a : Ctl) : a.Retreats a := ⟨id, fun d hd => ⟨d, hd, rfl⟩, fun _ => id⟩

theorem trans {a b c : Ctl} (h : a.Retreats b) (h' : b.Retreats c) : a.Retreats c := by
  refine ⟨h'.free ∘ h.free, fun d hd => ?_, fun no => h'.ended no ∘ h.ended no⟩
  obtain ⟨d', hd', hjob'⟩ := h'.drain d hd
  obtain ⟨d'', hd'', hjob⟩ := h.drain d' hd'
  exact ⟨d'', hd'', hjob.trans hjob'⟩

/-- What unwinds the Plane and leaves each job running or ended as it was. -/
theorem of_unwinds {a b : Ctl} (h : a.Unwinds b) (hu : b.underway = a.underway) : a.Retreats b :=
  ⟨fun hfree => h.holder.trans hfree, h.drain, fun _ => (allOver_of_roster (roster_of_underway hu)).mpr⟩

theorem of_eq {a b : Ctl} (hplane : b.plane = a.plane) (hjobs : b.jobs = a.jobs) : a.Retreats b := by
  refine ⟨fun hfree => hplane ▸ hfree, fun d hd => ⟨d, hplane ▸ hd, rfl⟩, fun no hno => ?_⟩
  rwa [Ctl.allOver, hjobs]

/-- What touches neither the Plane nor the jobs may come first. -/
theorem from_eq {a b c : Ctl} (h : b.Retreats c) (hplane : b.plane = a.plane) (hjobs : b.jobs = a.jobs) : a.Retreats c :=
  (of_eq hplane hjobs).trans h

/-- The end of one job (R407). -/
theorem of_endsJob {a b : Ctl} {no : Nat} (h : a.EndsJob no b) (hfree : a.plane.holder = none → b.plane.holder = none)
    (hdrain : ∀ d, b.plane.drain = some d → ∃ d', a.plane.drain = some d' ∧ d'.job = d.job) : a.Retreats b :=
  ⟨hfree, hdrain, fun _ => h.allOver_of_allOver⟩

theorem foldl {α : Type} {f : Ctl → α → Ctl} (hf : ∀ (c : Ctl) x, c.Retreats (f c x)) (l : List α) (c : Ctl) :
    c.Retreats (l.foldl f c) := by
  induction l generalizing c with
  | nil => exact refl c
  | cons x l ih => exact (hf c x).trans (ih (f c x))

/-- A change of the jobs of one number that ends none and runs none anew. -/
theorem mapJob (c : Ctl) (no : Nat) {f : Job → Job} (hno : ∀ k, (f k).no = k.no) (hended : ∀ k, (f k).ended = k.ended) :
    c.Retreats (c.mapJob no f) := by
  refine ⟨id, fun d hd => ⟨d, hd, rfl⟩, fun n hn k hk hkn => ?_⟩
  obtain ⟨x, hx, rfl⟩ := List.mem_map.mp hk
  by_cases hxn : x.no = no
  · rw [if_pos hxn, hno] at hkn
    rw [if_pos hxn, hended]
    exact hn x hx hkn
  · rw [if_neg hxn] at hkn ⊢
    exact hn x hx hkn

theorem ite {p : Prop} [Decidable p] {a b c : Ctl} (hb : a.Retreats b) (hc : a.Retreats c) : a.Retreats (if p then b else c) := by
  split
  · exact hb
  · exact hc

end Ctl.Retreats

/-! ### Ends of jobs and runs -/

theorem leavePlane_retreats (m : Mem) (j : Job) (idx : Nat) (c : Ctl) : c.Retreats (leavePlane m j idx c) := by
  refine ⟨fun hfree => ?_, ((Ctl.Unwinds.refl c).settleDrain m j.no idx).drain, fun _ => ?_⟩
  · rw [leavePlane_holder, hfree]
    exact ite_self _
  · exact (Ctl.allOver_of_roster (Ctl.roster_of_underway (leavePlane_underway m j idx c))).mpr

theorem endJob_retreats (m : Mem) (no : Nat) (st : KS) (list idx tag : Nat) (c : Ctl) :
    c.Retreats (endJob m no st list idx tag c) := by
  cases hj : c.job? no with
  | none =>
    have hsame : endJob m no st list idx tag c = c := by simp [endJob, endJobWith, hj]
    rw [hsame]
    exact .refl c
  | some j =>
    cases he : j.ended with
    | true =>
      have hsame : endJob m no st list idx tag c = c := by simp [endJob, endJobWith, hj, he]
      rw [hsame]
      exact .refl c
    | false =>
      have hleft := leavePlane_retreats m j idx c
      have hend := endJobWith_unwinds [] m st list idx tag hj he
      refine .of_endsJob (endJobWith_endsJob [] m st list idx tag hj he) (fun hfree => ?_) fun d hd => ?_
      · rw [endJob, hend.holder, hleft.free hfree]
      · obtain ⟨d', hd', hjob'⟩ := hend.drain d hd
        obtain ⟨d'', hd'', hjob⟩ := hleft.drain d' hd'
        exact ⟨d'', hd'', hjob.trans hjob'⟩

theorem failJob_retreats (m : Mem) (no : Nat) (st : KS) (c : Ctl) : c.Retreats (failJob m no st c) := by
  unfold failJob
  split
  · exact endJob_retreats ..
  · exact .refl c

/-- The end of a run leaves its job, which ends with it where an abort or an end is due (R507). -/
theorem endRun_retreats (m : Mem) (no : Nat) (st : KS) (c : Ctl) : c.Retreats (endRun m no st c) := by
  unfold endRun
  split
  · exact .refl c
  · rename_i j hj
    extract_lets waits faulted left delivered saved rested
    have hfaulted : c.Unwinds faulted := ((Ctl.Unwinds.refl c).count ..).ite (.refl c)
    have hleft : c.Retreats left := (Ctl.Retreats.of_unwinds hfaulted (by simp [faulted])).trans (leavePlane_retreats ..)
    have hsaved : left.Unwinds saved := (((Ctl.Unwinds.refl left).deliverAll ..).voidParts ..).saveStreams _
    have hrested : c.Retreats rested := by
      exact (hleft.trans (.of_unwinds hsaved (by simp [saved, delivered]))).trans (.mapJob saved no (fun _ => rfl) fun _ => rfl)
    split
    · exact .refl c
    · split
      · exact hrested.trans (endJob_retreats ..)
      · split
        · exact hrested.trans (endJob_retreats ..)
        · exact (hrested.trans (endJob_retreats ..)).ite hrested

/-! ### Groups and staged changes that go (R361, R413, R440, R445) -/

theorem forgetChange_retreats (x : Staged) (c : Ctl) : c.Retreats (forgetChange x c) := by
  unfold forgetChange
  split
  · dsimp only
    split
    · split <;> exact .of_eq rfl rfl
    · exact .of_eq rfl rfl
  · exact .of_eq rfl rfl

theorem sendConfig_retreats (k e code jobNo : Nat) (payload : List Byte) (c : Ctl) (number : Nat) :
    c.Retreats (sendConfig k e code jobNo payload c number) := by
  unfold sendConfig
  extract_lets words
  split
  · exact .refl c
  · exact .of_unwinds ((Ctl.Unwinds.refl c).pushPacket ..) (by simp)

theorem relayConfig_retreats (code jobNo : Nat) (payload : List Byte) (c : Ctl) (number : Nat) :
    c.Retreats (relayConfig code jobNo payload c number) := .foldl (fun _ _ => sendConfig_retreats ..) _ c

theorem withdrawJob_retreats (no : Nat) (c : Ctl) : c.Retreats (withdrawJob no c) := by
  unfold withdrawJob
  split
  · exact .refl c
  · rename_i j _
    have hfreed : c.Retreats (dropLinks no (freeFrames j (endSlots j c))) :=
      .of_unwinds ((((Ctl.Unwinds.refl c).endSlots j).freeFrames j).dropLinks no) (by simp)
    exact hfreed.trans ⟨id, fun d hd => ⟨d, hd, rfl⟩, fun n hn k hk => hn k (List.mem_of_mem_filter hk)⟩

theorem refuseAdmission_retreats (no member : Nat) (st : KS) (c : Ctl) : c.Retreats (refuseAdmission no member st c) := by
  unfold refuseAdmission
  split
  · exact .refl c
  · exact ((relayConfig_retreats ..).trans (withdrawJob_retreats ..)).trans
      (Ctl.Retreats.of_unwinds ((Ctl.Unwinds.refl _).answer ..) (by simp))

theorem endGroupJobs_retreats (m : Mem) (c : Ctl) : c.Retreats (endGroupJobs m c) := by
  refine .foldl (fun c j => ?_) _ c
  split
  · exact .refl c
  · exact (refuseAdmission_retreats ..).ite (failJob_retreats ..)

theorem dropRelayed_retreats (c : Ctl) : c.Retreats (dropRelayed c) :=
  Ctl.Retreats.trans (b := c.withGroup _) (.of_eq rfl rfl) (.foldl (fun c x => forgetChange_retreats x c) _ _)

theorem leave_retreats (m : Mem) (c : Ctl) : c.Retreats (leave m c) :=
  have hended : c.Retreats ((endGroupJobs m c).withGroup _) := (endGroupJobs_retreats m c).trans (.of_eq rfl rfl)
  hended.trans (dropRelayed_retreats _)

/-! ### Lee mode (R506 to R510) -/

theorem balls_retreats (c : Ctl) : c.Retreats (balls c) := by
  unfold balls
  split <;> exact .of_eq rfl rfl

theorem leeJobs_retreats (m : Mem) (c : Ctl) : c.Retreats (leeJobs m c) := by
  unfold leeJobs
  extract_lets counted ended
  have hcounted : c.Retreats counted := (Ctl.Retreats.of_eq (count_plane ..) (count_jobs ..)).ite (Ctl.Retreats.refl c)
  have hended : c.Retreats ended :=
    hcounted.trans (Ctl.Retreats.foldl (fun c j => (endRun_retreats ..).ite ((failJob_retreats ..).ite (endJob_retreats ..))) _ _)
  exact hended.trans ⟨id, fun d hd => ⟨d, hd, rfl⟩, fun _ => id⟩

theorem switchPoint_retreats (op : Nat) (c : Ctl) : c.Retreats (switchPoint op c) := by
  unfold switchPoint
  extract_lets counted switched
  have hcounted : c.Retreats counted := (Ctl.Retreats.refl c).ite (Ctl.Retreats.of_eq (count_plane ..) (count_jobs ..))
  exact hcounted.trans (Ctl.Retreats.of_eq rfl rfl)

theorem holdContext_retreats (n : Nat) (c : Ctl) : c.Retreats (holdContext n c) := by
  unfold holdContext disableContext
  dsimp only
  split
  · split <;> exact .of_eq rfl rfl
  · exact .refl c

theorem dropInstalls_retreats (c : Ctl) : c.Retreats (dropInstalls c) :=
  .foldl (fun c t => by dsimp only; split <;> exact .of_eq rfl rfl) _ c

theorem enterLee_retreats (m : Mem) (c : Ctl) : c.Retreats (enterLee m c) := by
  unfold enterLee
  extract_lets lee inLee ended left switched bound held off
  have hended : c.Retreats ended := (leeJobs_retreats m inLee).from_eq rfl rfl
  have hleft : c.Retreats left := (hended.trans (leave_retreats ..)).ite hended
  have hswitched : c.Retreats switched := hleft.ite (hleft.trans (switchPoint_retreats ..))
  have hheld : c.Retreats held :=
    hswitched.trans (Ctl.Retreats.foldl (fun c n => (Ctl.Retreats.refl c).ite (holdContext_retreats ..)) _ _)
  have hoff : held.Retreats off := .of_eq (Ctl.withPins_plane ..) (Ctl.withPins_jobs ..)
  have hballs : c.Retreats (balls off) := (hheld.trans hoff).trans (balls_retreats off)
  have hidle : c.Retreats (idlePorts (balls off)) := hballs.trans (.of_eq (Ctl.withGroup_plane ..) (Ctl.withGroup_jobs ..))
  exact (hidle.trans (dropInstalls_retreats ..)).trans (.of_eq (event_plane ..) (event_jobs ..))

theorem raiseLee_retreats (b : Nat) (m : Mem) (c : Ctl) : c.Retreats (raiseLee b m c) := by
  unfold raiseLee
  extract_lets had service raised
  have hraised : c.Retreats raised := (balls_retreats _).from_eq rfl rfl
  split
  · exact hraised
  · exact (hraised.trans (Ctl.Retreats.of_eq (count_plane ..) (count_jobs ..))).trans (enterLee_retreats ..)

/-! ### Tiles that leave service (R107 to R109) -/

theorem serviceEvent_retreats (kind block inst value : Nat) (c : Ctl) : c.Retreats (serviceEvent kind block inst value c) :=
  have hquiet := serviceEvent_quiet kind block inst value c
  .of_eq (Ctl.plane_of_quiet hquiet) (Ctl.jobs_of_quiet hquiet)

theorem wearEvent_retreats (code block inst value : Nat) (c : Ctl) : c.Retreats (wearEvent code block inst value c) := by
  unfold wearEvent
  split
  · exact .refl c
  · dsimp only
    split
    · exact (serviceEvent_retreats ..).from_eq rfl rfl
    · exact .of_eq rfl rfl

theorem tileEvent_retreats (p q t : Nat) (c : Ctl) : c.Retreats (tileEvent p q t c) := by
  have hevent := serviceEvent_retreats 1 0 (p + 256 * q + 65536 * t) c.spares.length c
  unfold tileEvent tileWear
  extract_lets n low
  have hlow : c.Retreats low := (hevent.trans (wearEvent_retreats ..)).ite hevent
  exact (hlow.trans (wearEvent_retreats ..)).ite hlow

theorem planeStops_retreats (p : Nat) (m : Mem) (c : Ctl) : c.Retreats (planeStops p m c) := by
  unfold planeStops
  extract_lets t tile retired undue
  have hretired : c.Retreats retired := .of_eq rfl rfl
  have hundue : retired.Retreats undue := ⟨id, fun d hd => ⟨d, hd, rfl⟩, fun _ => id⟩
  exact ((hretired.trans hundue).trans (tileEvent_retreats ..)).trans (raiseLee_retreats ..)

theorem retireTile_retreats (p : Nat) (m : Mem) (c : Ctl) : c.Retreats (retireTile p m c) := by
  unfold retireTile
  refine (Ctl.Retreats.refl c).ite (.ite ?_ (.ite ?_ ?_))
  · exact (tileEvent_retreats ..).from_eq rfl rfl
  · exact planeStops_retreats ..
  · exact ⟨id, fun d hd => ⟨d, hd, rfl⟩, fun _ => id⟩

/-! ### Parity mismatches (R80) -/

theorem parityFault_retreats (t no idx : Nat) (m : Mem) (c : Ctl) :
    (failAt m no .planeFault idx c).Retreats (parityFault t no idx m c) := by
  unfold parityFault
  extract_lets failed
  split
  · exact .refl failed
  · extract_lets noted
    have hnoted : failed.Retreats noted := ⟨id, fun d hd => ⟨d, hd, rfl⟩, fun _ => id⟩
    exact (hnoted.trans (retireTile_retreats ..)).ite hnoted

section
variable (t idx : Nat) (m : Mem) {no : Nat} {c : Ctl} {j : Job} (hj : c.job? no = some j) (he : j.ended = false)
include hj he

/-- A parity mismatch ends its job. -/
theorem parityFault_over : (parityFault t no idx m c).allOver no := by
  refine (parityFault_retreats t no idx m c).ended no ?_
  have hfail : failAt m no .planeFault idx c = endJobWith [] m no .planeFault 4 idx (rTag (j.cmds.getD idx 0)) c := by
    simp [failAt, hj, endJob]
  rw [hfail]
  exact (endJobWith_endsJob [] m _ _ _ _ hj he).allOver

theorem parityFault_holder (hh : c.plane.holder = some no) : (parityFault t no idx m c).plane.holder = none := by
  refine (parityFault_retreats t no idx m c).free ?_
  simp [failAt, hj, endJob, endJobWith_holder [] m .planeFault 4 idx _ hj he hh]

theorem parityFault_drain (h : ∀ d, c.plane.drain = some d → d.job = no → idx ≤ d.idx) :
    ∀ d, (parityFault t no idx m c).plane.drain = some d → d.job ≠ no := by
  intro d hd
  obtain ⟨d', hd', hjob⟩ := (parityFault_retreats t no idx m c).drain d hd
  have hfail : failAt m no .planeFault idx c = endJobWith [] m no .planeFault 4 idx (rTag (j.cmds.getD idx 0)) c := by
    simp [failAt, hj, endJob]
  rw [hfail] at hd'
  exact hjob ▸ endJobWith_drain [] m _ _ _ _ hj he h d' hd'
end

end Sys2Proof.Machine
end

section
/-! SUPPORT. What a group that is granted leaves as it was: the slot tags, the writes, who holds the Plane and its drain, the packets,
and the jobs but for what the group notes in them (03 R93, R98 to R104, R131; 10 R324, R327). -/

namespace Sys2Proof.Machine

/-- A job without what the reads of its groups note in it. -/
def Job.unnoted (j : Job) : Job := { j with exec := { j.exec with blocks := [], band := [], readSlots := [] } }
/-- The slot tags, the writes, and the jobs without what reads note in them. -/
def Ctl.unnoted (c : Ctl) : List (Nat × Nat) × List Wr × List Job := (c.slotTags, c.wq, c.jobs.map Job.unnoted)

theorem Ctl.unnoted_of_eq {a b : Ctl} (htags : a.slotTags = b.slotTags) (hwq : a.wq = b.wq) (hjobs : a.jobs = b.jobs) :
    a.unnoted = b.unnoted := by rw [Ctl.unnoted, htags, hwq, hjobs, Ctl.unnoted]

/-- From `a` to `b` reads are noted, and only packets join. -/
structure Ctl.Notes (a b : Ctl) : Prop extends a.Unwinds b where
  unnoted : b.unnoted = a.unnoted

namespace Ctl.Notes

theorem slotTags {a b : Ctl} (h : a.Notes b) : b.slotTags = a.slotTags := congrArg Prod.fst h.unnoted
theorem wq {a b : Ctl} (h : a.Notes b) : b.wq = a.wq := congrArg (·.2.1) h.unnoted

/-- The same jobs stand under the same numbers, but for what is noted. -/
theorem job? {a b : Ctl} (h : a.Notes b) {no : Nat} {j : Job} (hj : a.job? no = some j) :
    ∃ k, b.job? no = some k ∧ k.unnoted = j.unnoted := by
  have hfind (c : Ctl) : ((c.jobs.map Job.unnoted).find? (·.no = no)) = (c.job? no).map Job.unnoted := List.find?_map ..
  have hjobs : b.jobs.map Job.unnoted = a.jobs.map Job.unnoted := congrArg (·.2.2) h.unnoted
  have hmap : (b.job? no).map Job.unnoted = some j.unnoted := by rw [← hfind, hjobs, hfind, hj, Option.map_some]
  simpa using hmap

theorem refl (a : Ctl) : a.Notes a := ⟨.refl a, rfl⟩

variable {a c : Ctl} (h : a.Notes c)
include h

/-- What keeps the slot tags, the writes and the jobs. -/
theorem of_unwinds {d : Ctl} (hd : a.Unwinds d) (htags : d.slotTags = c.slotTags) (hwq : d.wq = c.wq) (hjobs : d.jobs = c.jobs) :
    a.Notes d := ⟨hd, (unnoted_of_eq htags hwq hjobs).trans h.unnoted⟩

/-- A change of the Plane that leaves its holder and its drain. -/
theorem withPlane (f : Plane → Plane) (hholder : (f c.plane).holder = c.plane.holder) (hdrain : (f c.plane).drain = c.plane.drain) :
    a.Notes (c.withPlane f) := by
  refine ⟨⟨hholder.trans h.holder, fun d hd => h.drain d (hdrain ▸ hd), h.sa, h.active, h.epoch, h.sent⟩, h.unnoted⟩

theorem mapJob (no : Nat) {f : Job → Job} (hf : ∀ k, (f k).unnoted = k.unnoted) : a.Notes (c.mapJob no f) := by
  refine ⟨h.toUnwinds.mapJob no f, ?_⟩
  have hif (k : Job) : (if k.no = no then f k else k).unnoted = k.unnoted := by split <;> simp [hf]
  have hjobs : (c.mapJob no f).jobs.map Job.unnoted = c.jobs.map Job.unnoted := by
    simp only [Ctl.mapJob_jobs, List.map_map, Function.comp_def, hif]
  rw [← h.unnoted, Ctl.unnoted, hjobs]
  rfl

theorem ite {p : Prop} [Decidable p] {d : Ctl} (h' : a.Notes d) : a.Notes (if p then c else d) := by
  split
  · exact h
  · exact h'

theorem foldl {α : Type} {f : Ctl → α → Ctl} (hf : ∀ (c : Ctl) x, a.Notes c → a.Notes (f c x)) (l : List α) :
    a.Notes (l.foldl f c) := by
  induction l generalizing c with
  | nil => exact h
  | cons x l ih => exact ih (hf c x h)

theorem count (k : Cnt) (i n : Nat) : a.Notes (count k i n c) :=
  h.of_unwinds (h.toUnwinds.count k i n) (count_slotTags ..) (count_wq ..) (count_jobs ..)

theorem countSums (l : List (Nat × Nat)) : a.Notes (countSums l c) := h.foldl (fun _ _ hc => hc.count ..) l

theorem noteReads (m : Mem) (ws : List Nat) : a.Notes (noteReads m ws c) :=
  have hread := noteReads_unread m ws c
  h.of_unwinds (h.toUnwinds.noteReads m ws) (slotTags_of_unread hread) (wq_of_unread hread) (jobs_of_unread hread)

theorem takeFree : a.Notes (takeFree c).2 := h.of_unwinds h.toUnwinds.takeFree rfl rfl rfl

theorem raiseHolds (n : Nat) : a.Notes (raiseHolds n c) := by
  induction n generalizing c with
  | zero => exact h
  | succ n ih =>
    unfold Machine.raiseHolds
    extract_lets counted held signalled
    have hheld : a.Notes held := (h.count ..).withPlane _ rfl rfl
    exact ih (((hheld.withPlane _ rfl rfl).count ..).ite hheld)

theorem corrections (m : Mem) (reads : List (Nat × Nat)) : a.Notes (corrections m reads c) := by
  unfold Machine.corrections
  extract_lets hit step
  have hstep (x : Ctl × List Nat) (y : Nat × Nat) (hx : a.Notes x.1) : a.Notes (step x y).1 := by
    unfold step
    extract_lets scrubbed corrected n seen excess
    have hseen : a.Notes seen := ((((hx.count ..).ite hx).count ..).withPlane _ rfl rfl)
    split
    · exact hseen
    · dsimp only
      exact (hseen.count ..).withPlane _ rfl rfl
  have hall (l : List (Nat × Nat)) (x : Ctl × List Nat) (hx : a.Notes x.1) : a.Notes (l.foldl step x).1 := by
    induction l generalizing x with
    | nil => exact hx
    | cons y l ih => exact ih _ (hstep x y hx)
  have hhit := hall hit (c, []) h
  split
  rename_i ex heq
  rw [heq] at hhit
  split
  · exact hhit
  · extract_lets most
    split
    rename_i f c' hfree
    refine raiseHolds ?_ _
    split at hfree
    · cases hfree
      exact hhit
    · obtain rfl : _ = c' := congrArg Prod.snd hfree
      exact hhit.takeFree

theorem noteReadsOf (m : Mem) (no idx : Nat) (p : Port) : a.Notes (noteReadsOf m no idx p c) := by
  unfold Machine.noteReadsOf
  extract_lets read voids sats
  have hvoids : a.Notes voids := ((h.corrections ..).noteReads ..).foldl (fun _ _ hc => hc.count ..) _
  exact (hvoids.foldl (fun _ _ hc => hc.count ..) _).mapJob no fun _ => rfl

theorem shareCount (r n : Nat) : a.Notes (shareCount r n c) := (h.foldl (fun _ _ hc => hc.count ..) _).ite h

theorem noteBlocks (no : Nat) (old new : List Nat) : a.Notes (noteBlocks no old new c) :=
  (h.foldl (fun _ _ hc => hc.count ..) _).mapJob no fun _ => rfl

end Ctl.Notes

end Sys2Proof.Machine
end

section
/-! SUPPORT. Slot tags that are set full or empty, what the rows of a drain leave as it was, and one attempt of the drain (03 R94;
04 R130, R131; 08 R256, R257). -/

namespace Sys2Proof.Machine

/-! ### Slot tags (R256, R257) -/

/-- The control state without the slot tags. -/
def Ctl.untagged (c : Ctl) : Ctl := { c with slotTags := [], tagTimes := [] }

section
variable {a b : Ctl} (h : a.untagged = b.untagged)
include h
theorem Ctl.plane_of_untagged : a.plane = b.plane := (congrArg Ctl.plane h : a.untagged.plane = b.untagged.plane)
theorem Ctl.jobs_of_untagged : a.jobs = b.jobs := (congrArg Ctl.jobs h : a.untagged.jobs = b.untagged.jobs)
theorem Ctl.wq_of_untagged : a.wq = b.wq := (congrArg Ctl.wq h : a.untagged.wq = b.untagged.wq)
theorem Ctl.counters_of_untagged : a.counters = b.counters := (congrArg Ctl.counters h : a.untagged.counters = b.untagged.counters)
end

theorem setFull_untagged (k : Nat) (c : Ctl) : (setFull k c).untagged = c.untagged := by
  unfold setFull
  split <;> rfl
theorem setEmpty_untagged (k : Nat) (c : Ctl) : (setEmpty k c).untagged = c.untagged := by
  unfold setEmpty
  split <;> rfl
theorem setAllFull_untagged (ks : List Nat) (c : Ctl) : (setAll setFull ks c).untagged = c.untagged :=
  foldl_keeps Ctl.untagged (fun c k => setFull_untagged k c) ks c
theorem setAllEmpty_untagged (ks : List Nat) (c : Ctl) : (setAll setEmpty ks c).untagged = c.untagged :=
  foldl_keeps Ctl.untagged (fun c k => setEmpty_untagged k c) ks c

theorem Ctl.slotFull_of_slotTags {a b : Ctl} (h : a.slotTags = b.slotTags) (k : Nat) : a.slotFull k = b.slotFull k := by
  rw [slotFull, slotFull, h]

theorem setTag_slotFull (k v : Nat) (c : Ctl) (k' : Nat) :
    (setTag k v c).slotFull k' = if k' = k then bit v 0 else c.slotFull k' := by
  simp only [Ctl.slotFull, setTag_slotTags, SMap.get_put]
  split <;> rfl

theorem setFull_slotFull (k : Nat) (c : Ctl) (k' : Nat) : (setFull k c).slotFull k' = (k' == k || c.slotFull k') := by
  unfold setFull
  split
  · rename_i hfull
    by_cases hk : k' = k
    · simp [hk, hfull]
    · simp [hk]
  · rw [setTag_slotFull]
    by_cases hk : k' = k
    · simp [hk, bit]
    · simp [hk]

theorem setEmpty_slotFull (k : Nat) (c : Ctl) (k' : Nat) : (setEmpty k c).slotFull k' = (k' != k && c.slotFull k') := by
  unfold setEmpty
  split
  · rw [setTag_slotFull]
    by_cases hk : k' = k
    · simp [hk, bit]
    · simp [hk]
  · rename_i hempty
    by_cases hk : k' = k
    · simp [hk, hempty]
    · simp [hk]

/-- Of slots set full, each is full, and the others are as they were. -/
theorem setAllFull_slotFull (ks : List Nat) (c : Ctl) (k : Nat) :
    (setAll setFull ks c).slotFull k = (ks.contains k || c.slotFull k) := by
  induction ks generalizing c with
  | nil => rfl
  | cons x ks ih =>
    have hstep := ih (setFull x c)
    rw [setFull_slotFull] at hstep
    rw [List.contains_cons, Bool.or_assoc, Bool.or_left_comm, ← hstep]
    rfl

/-- Of slots set empty, none is full, and the others are as they were. -/
theorem setAllEmpty_slotFull (ks : List Nat) (c : Ctl) (k : Nat) :
    (setAll setEmpty ks c).slotFull k = (!ks.contains k && c.slotFull k) := by
  induction ks generalizing c with
  | nil => rfl
  | cons x ks ih =>
    have hstep := ih (setEmpty x c)
    rw [setEmpty_slotFull] at hstep
    rw [List.contains_cons, Bool.not_or, Bool.and_assoc, Bool.and_left_comm, ← bne, ← hstep]
    rfl

/-! ### What the rows of a drain leave (R94, R130) -/

/-- The control state without what reads leave in it: in the store and counters, and in the jobs. -/
def Ctl.undrained (c : Ctl) : Ctl := { c.unread with jobs := c.jobs.map Job.unnoted }

theorem Ctl.undrained_of_unread {a b : Ctl} (h : a.unread = b.unread) : a.undrained = b.undrained := by
  rw [undrained, h, jobs_of_unread h, undrained]

section
variable {a b : Ctl} (h : a.undrained = b.undrained)
include h
theorem Ctl.plane_of_undrained : a.plane = b.plane := (congrArg Ctl.plane h : a.undrained.plane = b.undrained.plane)
theorem Ctl.slotTags_of_undrained : a.slotTags = b.slotTags := (congrArg Ctl.slotTags h : a.undrained.slotTags = b.undrained.slotTags)
theorem Ctl.wq_of_undrained : a.wq = b.wq := (congrArg Ctl.wq h : a.undrained.wq = b.undrained.wq)
theorem Ctl.charges_of_undrained : a.charges = b.charges := (congrArg Ctl.charges h : a.undrained.charges = b.undrained.charges)
theorem Ctl.jobs_of_undrained : a.jobs.map Job.unnoted = b.jobs.map Job.unnoted :=
  (congrArg Ctl.jobs h : a.undrained.jobs = b.undrained.jobs)
end

theorem emit_undrained (ws : List Wr) {a b : Ctl} (h : a.undrained = b.undrained) : (emit ws a).undrained = (emit ws b).undrained := by
  have hemit (c : Ctl) : (emit ws c).undrained = emit ws c.undrained := rfl
  rw [hemit, hemit, h]

theorem Ctl.mapJob_undrained (no : Nat) (f : Job → Job) (c : Ctl) (hf : ∀ k, (f k).unnoted = k.unnoted) :
    (c.mapJob no f).undrained = c.undrained := by
  have hif (k : Job) : (if k.no = no then f k else k).unnoted = k.unnoted := by split <;> simp [hf]
  have hjobs : (c.mapJob no f).jobs.map Job.unnoted = c.jobs.map Job.unnoted := by
    simp only [Ctl.mapJob_jobs, List.map_map, Function.comp_def, hif]
  rw [Ctl.undrained, hjobs]
  rfl

theorem noteVector_undrained (m : Mem) (no idx : Nat) (p : Port) (c : Ctl) : (noteVector m no idx p c).undrained = c.undrained := by
  unfold noteVector
  extract_lets read touched framed voids
  have hvoids : voids.unread = c.unread := by
    rw [foldl_unread (fun c t => count_unread _ _ _ c), touchFrames_unread, foldl_unread (fun c x => touchHbm_unread _ _ c),
      noteReads_unread]
  refine Eq.trans ?_ (Ctl.undrained_of_unread hvoids)
  exact Ctl.mapJob_undrained no _ voids fun _ => rfl

theorem countEvents_undrained (ev : Events) (c : Ctl) : (countEvents ev c).undrained = c.undrained :=
  Ctl.undrained_of_unread (countEvents_unread ev c)

/-- Runs that are written are issued as writes, and the memories after them are those that the writes leave. -/
theorem putRuns_writes {j : Job} {op : Nat} {want : Option Nat → Bool} {qs : List OutRun} {tagged : Bool} {m m' : Mem}
    {c c' : Ctl} {w : List Wr} (h : putRuns j op want qs tagged m c = .ok (m', c', w)) :
    ∃ ws, m' = m.apply ws ∧ c'.undrained = (emit ws c).undrained := by
  obtain ⟨ws, hmem, hctl⟩ := putRuns_emits h
  exact ⟨ws, hmem, Ctl.undrained_of_unread hctl⟩

/-! ### Rows whose reads and charges are granted (R130, R168) -/

theorem Port.stop_eq_none_iff {p : Port} {op : Nat} {inputs : Bool} :
    p.stop op inputs = none ↔ p.outside = none ∧ p.badVa = none ∧ p.hbmBad = false ∧ p.wait = false := by
  unfold Port.stop
  cases p.outside with
  | some t => simp
  | none =>
    cases p.badVa with
    | some t => simp
    | none =>
      cases p.hbmBad <;> cases p.wait <;> simp
      split <;> simp

/-- Series of reads that stop nothing stop nothing together. -/
theorem Port.foldl_join_stop {α : Type} (f : α → Port) {l : List α} {op op' : Nat} {inputs inputs' : Bool}
    (h : ∀ y ∈ l, (f y).stop op inputs = none) {p : Port} (hp : p.stop op' inputs' = none) :
    (l.foldl (fun p y => p.join (f y)) p).stop op' inputs' = none := by
  induction l generalizing p with
  | nil => exact hp
  | cons y l ih =>
    refine ih (fun z hz => h z (List.mem_cons_of_mem _ hz)) ?_
    obtain ⟨hout, hva, hbad, hwait⟩ := Port.stop_eq_none_iff.mp hp
    obtain ⟨hout', hva', hbad', hwait'⟩ := Port.stop_eq_none_iff.mp (h y List.mem_cons_self)
    exact Port.stop_eq_none_iff.mpr (by simp [Port.join, hout, hva, hbad, hwait, hout', hva', hbad', hwait'])

/-- Engines that have nothing to take are granted all of it. -/
theorem payFor_of_free (cls : Nat) {need : List (Nat × Nat × Nat)} (h : ∀ x ∈ need, x.2 = (0, 0)) (c : Ctl) :
    payFor cls need c = (true, c) := by
  have hzero (t : Nat) : ((need.filter fun x => x.1 == t).map (·.2.1)).sum = 0 ∧
      ((need.filter fun x => x.1 == t).map (·.2.2)).sum = 0 := by
    constructor <;> refine List.sum_eq_zero fun n hn => ?_ <;>
      obtain ⟨x, hx, rfl⟩ := List.mem_map.mp hn <;> rw [h x (List.mem_of_mem_filter hx)]
  unfold payFor
  refine List.foldlRecOn (motive := fun a => a = (true, c)) _ _ rfl fun a ha t _ => ?_
  simp only [(hzero t).1, (hzero t).2, Nat.zero_sub, and_self, if_true]
  exact ha

section
variable {m : Mem} {d : Drain} {j : Job} {c : Ctl} {xs : List RowAt} {want : Option Nat → Bool}
  (hgranted : ∀ y ∈ computeRows m c j (j.cmds.getD d.idx 0) d xs,
    y.2.2.stop (rOp (j.cmds.getD d.idx 0)) true = none ∧ y.2.2.cost = (0, 0))
include hgranted

/-- The reads of the rows stop nothing. -/
theorem granted_stop (inputs : Bool) :
    ((computeRows m c j (j.cmds.getD d.idx 0) d xs).foldl (fun p y => p.join y.2.2) Port.empty).stop (rOp (j.cmds.getD d.idx 0))
      inputs = none :=
  Port.foldl_join_stop (fun y : RowAt × RowOut × Port => y.2.2) (fun y hy => (hgranted y hy).1)
    (Port.stop_eq_none_iff.mpr ⟨rfl, rfl, rfl, rfl⟩)

/-- The engines have nothing to take for those of the rows that are computed the first time. -/
theorem granted_paid (fresh : RowAt × RowOut × Port → Bool) :
    payFor j.cls (((computeRows m c j (j.cmds.getD d.idx 0) d xs).filter fresh).map fun y => (y.1.tile, y.2.2.cost)) c = (true, c) := by
  refine payFor_of_free j.cls (fun x hx => ?_) c
  obtain ⟨y, hy, rfl⟩ := List.mem_map.mp hx
  exact (hgranted y (List.mem_of_mem_filter hy)).2

/-- Rows that are granted write what their runs do; beside it, only reads are noted. -/
theorem writeRows_granted {m₁ m₂ : Mem} {c₁ c₂ : Ctl} {w₁ w₂ : List Wr}
    (h₁ : putRuns j (rOp (j.cmds.getD d.idx 0)) want (splitTagged (j.cmds.getD d.idx 0)
      ((computeRows m c j (j.cmds.getD d.idx 0) d xs).flatMap fun y => y.2.1.1)).1 true m c = .ok (m₁, c₁, w₁))
    (h₂ : putRuns j (rOp (j.cmds.getD d.idx 0)) (fun _ => true) (splitTagged (j.cmds.getD d.idx 0)
      ((computeRows m c j (j.cmds.getD d.idx 0) d xs).flatMap fun y => y.2.1.1)).2 false m₁ c₁ = .ok (m₂, c₂, w₂)) :
    ∃ c₃, writeRows m d j xs want c = .ok (c₃, w₂ ++ w₁) ∧ c₃.undrained = c₂.undrained := by
  unfold writeRows
  simp only [granted_stop hgranted, granted_paid hgranted, h₁, h₂]
  exact ⟨_, rfl, (countEvents_undrained ..).trans (noteVector_undrained ..)⟩

/-- Rows that are granted wait where one of their slots is full. -/
theorem writeRows_waits {on : List (Nat × Nat)}
    (h : putRuns j (rOp (j.cmds.getD d.idx 0)) want (splitTagged (j.cmds.getD d.idx 0)
      ((computeRows m c j (j.cmds.getD d.idx 0) d xs).flatMap fun y => y.2.1.1)).1 true m c = .error (.drainWait on)) :
    writeRows m d j xs want c = .error (.drainWait on, c) := by
  unfold writeRows
  simp only [granted_stop hgranted, granted_paid hgranted, h]
  rfl

end

/-- List positions of OP_SCATTER write what their runs do; beside it, only reads are noted. -/
theorem scatterRows_writes {j : Job} {r : Nat} {d : Drain} {xs : List RowAt} {need need' : List (Nat × Nat × Nat)} {u u' : List Wr}
    {m : Mem} {c c0 c' : Ctl} (h : scatterRows j r d xs need u m c c0 = .ok (c', need', u')) :
    ∃ ws, c'.undrained = (emit ws c).undrained := by
  induction xs generalizing need u m c with
  | nil =>
    cases h
    exact ⟨[], by simp [emit]⟩
  | cons x xs ih =>
    rw [scatterRows] at h
    dsimp only at h
    split at h
    split at h
    · cases h
    · split at h
      · cases h
      · rename_i hput
        obtain ⟨ws, -, hrun⟩ := putRuns_writes hput
        obtain ⟨ws', hrest⟩ := ih h
        refine ⟨ws ++ ws', ?_⟩
        rw [hrest, emit_append]
        exact emit_undrained ws' (((countEvents_undrained ..).trans (noteVector_undrained ..)).trans hrun)

end Sys2Proof.Machine
end

section
/-! SUPPORT. One attempt of the drain: what follows it, and what its end leaves (03 R80, R94; 04 R130, R145). -/

namespace Sys2Proof.Machine

/-! ### Sums cut off at a stop (R145) -/

/-- Nothing is cut off in the list that holds the Plane. -/
def Ctl.uncut (c : Ctl) : Prop := ∀ h, c.holding = some h → h.exec.cut = none

/-- From `x` to `y` a job keeps its number and its run, and nothing of it is cut off anew. -/
structure Job.Keeps (x y : Job) : Prop where
  no : y.no = x.no
  running : y.running = x.running
  ended : y.ended = x.ended
  cut : x.exec.cut = none → y.exec.cut = none

theorem Job.Keeps.refl (x : Job) : x.Keeps x := ⟨rfl, rfl, rfl, id⟩
theorem Job.Keeps.of_unnoted {x y : Job} (h : y.unnoted = x.unnoted) : x.Keeps y :=
  ⟨(congrArg Job.no h : y.unnoted.no = x.unnoted.no), (congrArg Job.running h : y.unnoted.running = x.unnoted.running),
    (congrArg Job.ended h : y.unnoted.ended = x.unnoted.ended),
    fun hx => (congrArg (·.exec.cut) h : y.unnoted.exec.cut = x.unnoted.exec.cut).trans hx⟩

theorem Job.Keeps.find? {l l' : List Job} (h : List.Forall₂ Job.Keeps l l') {no : Nat} {y : Job}
    (hy : l'.find? (fun k => decide (k.no = no)) = some y) : ∃ x, l.find? (fun k => decide (k.no = no)) = some x ∧ x.Keeps y := by
  induction h with
  | nil => cases hy
  | cons hk _ ih =>
    rename_i x z _ _ _
    by_cases hx : x.no = no
    · have hz : z.no = no := hk.no.trans hx
      rw [List.find?_cons_of_pos (by simpa using hz)] at hy
      rw [List.find?_cons_of_pos (by simpa using hx)]
      exact ⟨x, rfl, Option.some.inj hy ▸ hk⟩
    · have hz : ¬z.no = no := fun hz => hx (hk.no.symm.trans hz)
      rw [List.find?_cons_of_neg (by simpa using hz)] at hy
      rw [List.find?_cons_of_neg (by simpa using hx)]
      exact ih hy

/-- The same job holds the Plane, and the jobs keep their numbers and runs, with nothing cut off anew. -/
structure Ctl.Seats (a b : Ctl) : Prop where
  holder : b.plane.holder = a.plane.holder
  jobs : List.Forall₂ Job.Keeps a.jobs b.jobs

namespace Ctl.Seats

theorem of_undrained {a b : Ctl} (h : b.undrained = a.undrained) : a.Seats b := by
  refine ⟨congrArg Plane.holder (plane_of_undrained h), ?_⟩
  have hjobs : List.Forall₂ (fun x y : Job => y.unnoted = x.unnoted) a.jobs b.jobs := by
    have heq : List.Forall₂ (· = ·) (a.jobs.map Job.unnoted) (b.jobs.map Job.unnoted) :=
      List.forall₂_eq_eq_eq ▸ (jobs_of_undrained h).symm
    rw [List.forall₂_map_left_iff, List.forall₂_map_right_iff] at heq
    exact heq.imp fun _ _ => Eq.symm
  exact hjobs.imp fun _ _ => Job.Keeps.of_unnoted

theorem of_eq {a b : Ctl} (hholder : b.plane.holder = a.plane.holder) (hjobs : b.jobs = a.jobs) : a.Seats b :=
  ⟨hholder, hjobs ▸ List.forall₂_same.mpr fun x _ => Job.Keeps.refl x⟩

theorem mapJob (c : Ctl) (no : Nat) {f : Job → Job} (hf : ∀ x : Job, x.Keeps (f x)) : c.Seats (c.mapJob no f) := by
  refine ⟨rfl, ?_⟩
  rw [Ctl.mapJob_jobs, List.forall₂_map_right_iff]
  refine List.forall₂_same.mpr fun x _ => ?_
  split
  · exact hf x
  · exact Job.Keeps.refl x

/-- A job found under its number afterwards stood under it before. -/
theorem job? {a b : Ctl} (h : a.Seats b) {no : Nat} {y : Job} (hy : b.job? no = some y) : ∃ x, a.job? no = some x ∧ x.Keeps y :=
  Job.Keeps.find? h.jobs hy

theorem uncut {a b : Ctl} (h : a.Seats b) (ha : a.uncut) : b.uncut := by
  intro y hy
  obtain ⟨hholder, hjob, hrun, hend⟩ := Ctl.holding_eq_some.mp hy
  obtain ⟨x, hx, hk⟩ := h.job? hjob
  refine hk.cut (ha x (Ctl.holding_eq_some.mpr ⟨?_, ?_, ?_, ?_⟩))
  · rw [← h.holder, hholder, hk.no]
  · rwa [← hk.no]
  · rwa [← hk.running]
  · rwa [← hk.ended]

end Ctl.Seats

/-! ### The drain registers are free (R94, R130) -/

theorem freeDrain_frees (c : Ctl) : (freeDrain c).plane = { c.plane with drain := none, drainWait := none, atPassEnd := false } ∧
    (freeDrain c).wq = c.wq ∧ (freeDrain c).slotTags = c.slotTags ∧ c.Seats (freeDrain c) := by
  unfold freeDrain
  split
  · exact ⟨rfl, rfl, rfl, .of_eq rfl rfl⟩
  · rename_i d _
    dsimp only
    split
    · exact ⟨rfl, rfl, rfl, .of_eq rfl rfl⟩
    · refine ⟨rfl, rfl, rfl, ?_⟩
      have hpast := Ctl.Seats.mapJob c d.job (f := fun j => { j with exec := { j.exec with
        cut := j.exec.cut.filter fun x => x.idx ≠ d.idx || x.pass ≠ d.pass } })
        fun x => ⟨rfl, rfl, rfl, fun h => congrArg (Option.filter _) h⟩
      exact ⟨hpast.holder, hpast.jobs⟩

/-! ### One attempt -/

/-- What follows an attempt that goes on: its job has moved, and a vector-only command waits no more. -/
def drainMoved (d : Drain) (j : Job) (c : Ctl) : Ctl :=
  noteMove j.no (if opKind (rOp (j.cmd d.idx)) = .vector then c.withPlane fun p => { p with operandWait := none } else c)

theorem drainMoved_leaves (d : Drain) (j : Job) (c : Ctl) :
    (∃ w, (drainMoved d j c).plane = { c.plane with operandWait := w }) ∧ (drainMoved d j c).wq = c.wq ∧
    (drainMoved d j c).slotTags = c.slotTags ∧ c.Seats (drainMoved d j c) := by
  unfold drainMoved
  split
  · refine ⟨⟨none, rfl⟩, rfl, rfl, ?_⟩
    have hmoved := Ctl.Seats.mapJob c j.no (f := fun k => { k with moved := c.clk.ns }) fun x => ⟨rfl, rfl, rfl, id⟩
    exact ⟨hmoved.holder, hmoved.jobs⟩
  · exact ⟨⟨c.plane.operandWait, rfl⟩, rfl, rfl, .mapJob c j.no fun x => ⟨rfl, rfl, rfl, id⟩⟩

section
variable {m : Mem} {c : Ctl} {d : Drain} {j : Job} (hd : c.plane.drain = some d) (hj : c.job? d.job = some j)
  (hcopy : c.plane.copying = none) (f : Mem → Drain → Job → Ctl → Attempt Ctl)
include hd hj hcopy

theorem drainOnce_parity (t : Nat) : drainOnce f (some t) m c = parityFault t d.job d.idx m c := by
  simp [drainOnce, hd, hj, hcopy]

variable (htable : opKind (rOp (j.cmds.getD d.idx 0)) = .vector → d.table = [] →
  ∃ knots p, loadTable m c j (j.cmds.getD d.idx 0) = .ready knots p ∧ knots = [])
include htable

omit hd hj hcopy in
theorem vectorTable_of_no_table : vectorTable m d j c = .ok (d, c) := by
  unfold vectorTable
  split
  · rfl
  · rename_i hload
    rw [not_or, not_not, not_not] at hload
    obtain ⟨knots, p, hready, rfl⟩ := htable hload.1 hload.2
    have hready : loadTable m c j (j.cmd d.idx) = .ready [] p := hready
    rw [hready]

variable {f}

/-- An attempt that goes on, after which nothing that was cut off goes back into the registers. -/
theorem drainOnce_ok {c₁ : Ctl} (hf : f m d j c = .ok c₁)
    (h : (drainMoved d j c₁).plane.drain.isSome = true ∨ (drainMoved d j c₁).uncut) :
    drainOnce f none m c = drainMoved d j c₁ := by
  have hstill (m : Mem) {x : Job} (hx : (drainMoved d j c₁).holding = some x) :
      installCut m x.no (drainMoved d j c₁) = drainMoved d j c₁ := by
    obtain hdrain | hcut := h
    · exact installCut_of_drain hdrain
    · refine installCut_of_uncut fun y hy => ?_
      obtain ⟨-, hjob, -, -⟩ := Ctl.holding_eq_some.mp hx
      obtain rfl := Option.some.inj (hjob.symm.trans hy)
      exact hcut x hx
  simp only [drainOnce, hd, hj, hcopy, Option.isSome_none, Bool.false_eq_true, if_false, vectorTable_of_no_table htable, hf]
  change (match (drainMoved d j c₁).holding with
    | some h => installCut (m.apply (drainMoved d j c₁).wq) h.no (drainMoved d j c₁)
    | none => drainMoved d j c₁) = drainMoved d j c₁
  split
  · rename_i hx
    exact hstill _ hx
  · rfl

/-- An attempt that meets a full slot waits. -/
theorem drainOnce_waits {on : List (Nat × Nat)} (hf : f m d j c = .error (.drainWait on, c)) :
    drainOnce f none m c = c.withPlane fun p => { p with drainWait := since c p.drainWait } := by
  simp [drainOnce, hd, hj, hcopy, vectorTable_of_no_table htable, hf]

end

end Sys2Proof.Machine
end

section
/-! PROOF of O37. Dispatch, the quantum, preemption, the class switch, saved sums and the abort between commands (03 R96, R97;
04 R143 to R147; 09 R300; 13 R418). -/

namespace Sys2Proof.Machine

section
variable {s : State} (hs : s.ready)

/-! ### Dispatch (R418) -/

section
variable {j : Job} (hw : s.ctl.plane.switch = none) (ht : s.ctl.tilesServe = true) (hb : s.ctl.bestReady none = some j)
include hw ht hb

theorem dispatch_of_held {h : Job} (hh : s.ctl.holding = some h) : dispatch s.mem s.ctl =
    if j.cls < h.cls then s.ctl.withPlane fun p => { p with stopReq := true } else s.ctl := by
  simp [dispatch, hw, ht, hb, hh]

theorem dispatch_of_free (hh : s.ctl.holding = none) : dispatch s.mem s.ctl =
    if s.ctl.plane.last = none ∨ s.ctl.plane.last = some j.no then takePlane s.mem j.no s.ctl
    else s.ctl.withPlane fun p => { p with switch := some { job := j.no } } := by
  simp [dispatch, hw, ht, hb, hh]
end

include hs

theorem exec_runDispatch_takes {j : Job} (hd : dispatch s.mem s.ctl = takePlane s.mem j.no s.ctl) :
    completes .runDispatch s fun t => t.ctl.plane.holder = some j.no ∧ t.ctl.plane.last = some j.no ∧
      t.ctl.plane.switch = none ∧ t.ctl.plane.stopReq = false ∧ sameMem s t := by
  obtain ⟨x, y, hplane, hwq⟩ := takePlane_changes s.mem j.no s.ctl
  rw [← hd] at hplane hwq
  have hrun : (s.run dispatch).ctl.plane = _ := State.run_plane.trans hplane
  exact ⟨_, rfl, by rw [hrun], by rw [hrun], by rw [hrun], by rw [hrun], sameMem_of_run (hwq.trans hs.2)⟩

/-- The quantum is used up (R418). -/
theorem exec_quantumExpiry_of_used {h : Job} (hh : s.ctl.holding = some h) (hc : h.cls ≠ 0)
    (hq : quantum s.ctl h.cls ≤ h.quantumUsed) (hk : ∃ k ∈ s.ctl.readyJobs, k.cls = h.cls ∧ k.no ≠ h.no) :
    exec .quantumExpiry s = .next (s.withCtl { s.ctl with
      jobs := s.ctl.jobs.map fun j =>
        if j.no = h.no then { j with running := j.running.map fun r => { r with readyAt := s.ctl.clk.ns } } else j
      plane := { s.ctl.plane with stopReq := true } }) := by
  have hother : (s.ctl.readyJobs.any fun j => j.cls == h.cls && j.no != h.no) = true := by simpa [List.any_eq_true] using hk
  have hstay : ¬(h.cls = 0 ∨ h.quantumUsed < quantum s.ctl h.cls ∨
      (!s.ctl.readyJobs.any fun j => j.cls == h.cls && j.no != h.no) = true) := by simp [hc, not_lt.mpr hq, hother]
  refine exec_eq_withCtl (f := quantumOver) rfl ?_ hs.2 rfl
  simp only [quantumOver, hh, if_neg hstay]
  rfl

/-! ### Preemption (R97, R143) -/

omit hs in
/-- The sums of a pass that is stopped inside are in the drain registers, to be saved. -/
theorem stopSums_inside_drain (m : Mem) (j : Job) (c : Ctl) :
    ∃ d, (stopSums m j .inside c).plane.drain = some d ∧ d.job = j.no ∧ d.idx = j.exec.pc ∧ d.toSave = true :=
  ⟨_, congrArg Plane.drain (Ctl.plane_of_unread (toDrain_changes j true c)), rfl, rfl, rfl⟩

omit hs in
/-- A list that is stopped inside a pass keeps its place. -/
theorem stopSums_inside_job? (m : Mem) {j : Job} {c : Ctl} (hj : c.job? j.no = some j) :
    ∃ k, (stopSums m j .inside c).job? j.no = some k ∧
      k.exec = { j.exec with sums := [], saved := [], savedState := 1, phase := 1 } :=
  ⟨_, onExec_job? ((toDrain_job? ..).trans hj) _, rfl⟩

section
variable {j : Job} (hh : s.ctl.holding = some j) (hr : s.ctl.plane.stopReq = true) (hc : j.cls ≠ 0) (ha : stopAt s.ctl j ≠ .no)
include hh hr hc ha

omit hs in
theorem preempt_stops : ∃ w, preempt s.mem s.ctl =
    (standDown j (stopSums s.mem j (stopAt s.ctl j) s.ctl)).withPlane fun p => { p with switch := w } := by
  obtain ⟨w, hnext⟩ := nextRun_changes (standDown j (stopSums s.mem j (stopAt s.ctl j) s.ctl))
  refine ⟨w, ?_⟩
  rw [← hnext, ← stopPlane_eq]
  simp [preempt, hh, hr, hc, ha]

omit hs in
theorem preempt_plane : ∃ w, (s.run preempt).ctl.plane = { (stopSums s.mem j (stopAt s.ctl j) s.ctl).plane with
    holder := none, switch := w, stopReq := false, operandWait := none, drainWait := none, passWait := false, atPassEnd := false
    waitFull := none, heldFaults := [] } := by
  obtain ⟨w, hstop⟩ := preempt_stops hh hr hc ha
  exact ⟨w, by rw [State.run_plane, hstop, Ctl.withPlane_plane, standDown_plane]⟩

omit hs in
theorem preempt_job {k : Job} (hk : (stopSums s.mem j (stopAt s.ctl j) s.ctl).job? j.no = some k) :
    withJob (s.run preempt) j.no fun x => x.exec = { k.exec with stopped := k.exec.phase == 2, band := [] } := by
  obtain ⟨w, hstop⟩ := preempt_stops hh hr hc ha
  obtain ⟨x, hx, he⟩ := standDown_job? hk
  refine withJob_run ?_ he
  rw [hstop, Ctl.withPlane_job?]
  exact hx

theorem preempt_clean (hat : stopAt s.ctl j = .clean) : (s.run preempt).ctl.plane.drain = s.ctl.plane.drain ∧
    sameMem s (s.run preempt) ∧ withJob (s.run preempt) j.no fun k =>
      k.exec = { j.exec with stopped := j.exec.phase == 2, band := [] } := by
  have hsums : stopSums s.mem j (stopAt s.ctl j) s.ctl = s.ctl := by rw [hat]; rfl
  obtain ⟨w, hstop⟩ := preempt_stops hh hr hc ha
  obtain ⟨w', hplane⟩ := preempt_plane hh hr hc ha
  obtain ⟨-, hj, -, -⟩ := Ctl.holding_eq_some.mp hh
  refine ⟨by rw [hplane, hsums], sameMem_of_run ?_, preempt_job hh hr hc ha ((congrArg (Ctl.job? · j.no) hsums).trans hj)⟩
  rw [hstop, Ctl.withPlane_wq, standDown_wq, hsums]
  exact hs.2

omit hs in
theorem preempt_inside (hat : stopAt s.ctl j = .inside) :
    (∃ d, (s.run preempt).ctl.plane.drain = some d ∧ d.job = j.no ∧ d.idx = j.exec.pc ∧ d.toSave = true) ∧
    withJob (s.run preempt) j.no fun k =>
      k.exec.savedState = 1 ∧ k.exec.sums = [] ∧ k.exec.step = j.exec.step ∧ k.exec.pass = j.exec.pass := by
  obtain ⟨w, hplane⟩ := preempt_plane hh hr hc ha
  obtain ⟨-, hj, -, -⟩ := Ctl.holding_eq_some.mp hh
  obtain ⟨d, hd, hdrain⟩ := stopSums_inside_drain s.mem j s.ctl
  obtain ⟨k, hk, hexec⟩ := stopSums_inside_job? s.mem hj
  obtain ⟨x, hx, he⟩ := preempt_job hh hr hc ha (hat ▸ hk)
  rw [hexec] at he
  refine ⟨⟨d, ?_, hdrain⟩, x, hx, by rw [he], by rw [he], by rw [he], by rw [he]⟩
  rw [hplane, hat]
  exact hd

theorem exec_preemptionStop_of_stopAt :
    completes .preemptionStop s fun t => t.ctl.plane.holder = none ∧ t.ctl.plane.stopReq = false ∧ t.ctl.plane.operandWait = none ∧
      t.ctl.plane.waitFull = none ∧ (∀ x ∈ t.ctl.ctxs, x.job ≠ j.no) ∧
      (stopAt s.ctl j = .clean → t.ctl.plane.drain = s.ctl.plane.drain ∧ sameMem s t ∧ withJob t j.no fun k =>
        k.exec = { j.exec with stopped := j.exec.phase == 2, band := [] }) ∧
      (stopAt s.ctl j = .inside → (∃ d, t.ctl.plane.drain = some d ∧ d.job = j.no ∧ d.idx = j.exec.pc ∧ d.toSave = true) ∧
        withJob t j.no fun k => k.exec.savedState = 1 ∧ k.exec.sums = [] ∧ k.exec.step = j.exec.step ∧ k.exec.pass = j.exec.pass) := by
  obtain ⟨w, hstop⟩ := preempt_stops hh hr hc ha
  obtain ⟨w', hplane⟩ := preempt_plane hh hr hc ha
  refine ⟨s.run preempt, rfl, by rw [hplane], by rw [hplane], by rw [hplane], by rw [hplane], ?_,
    preempt_clean hs hh hr hc ha, preempt_inside hh hr hc ha⟩
  rw [State.run_ctxs, hstop, Ctl.withPlane_ctxs]
  exact standDown_ctxs
end

/-- A switch ends (R144). -/
theorem exec_classSwitchComplete_of_runs {w : Switch} {j : Job} (hw : s.ctl.plane.switch = some w) (hj : s.ctl.job? w.job = some j)
    (hr : j.running.isSome = true) (he : j.ended = false) :
    completes .classSwitchComplete s fun t => t.ctl.plane.holder = some j.no ∧ t.ctl.plane.switch = none ∧
      t.ctl.plane.last = some j.no ∧ sameMem s t := by
  obtain ⟨x, y, hplane, hwq⟩ := takePlane_changes s.mem j.no s.ctl
  have hdone : switchDone s.mem s.ctl = count .plnSwitch 0 1 (takePlane s.mem j.no s.ctl) := by
    simp [switchDone, hw, hj, Option.filter, hr, he]
  have hrun : (s.run switchDone).ctl.plane = (takePlane s.mem j.no s.ctl).plane := by rw [State.run_plane, hdone, count_plane]
  rw [hplane] at hrun
  refine ⟨_, rfl, by rw [hrun], by rw [hrun], by rw [hrun], sameMem_of_run ?_⟩
  rw [hdone, count_wq, hwq]
  exact hs.2

/-- Saved sums are loaded (R97, R145). -/
theorem exec_savedSumsLoaded_of_saved {j : Job} (hh : s.ctl.holding = some j) (hsaved : j.exec.savedState = 1) (hp : j.exec.phase = 1)
    (hd : s.ctl.plane.drain = none) (hc : s.ctl.plane.copying = none) :
    completes .savedSumsLoaded s fun t => sameMem s t ∧ t.ctl.plane.passWait = false ∧
      withJob t j.no fun k => k.exec.savedState = 2 ∧ k.exec.pc = j.exec.pc ∧ k.exec.step = j.exec.step ∧ k.exec.sums = j.exec.sums := by
  obtain ⟨-, hj, -, -⟩ := Ctl.holding_eq_some.mp hh
  let r := (loadSums s.mem s.ctl j j.now j.exec.pass).run Port.empty
  have hread := noteReads_unread s.mem (r.2.reads.map (·.2)) s.ctl
  have hload : sumsLoaded s.mem s.ctl = onExec j.no (fun e => { e with saved := r.1, savedState := 2 })
      ((noteReads s.mem (r.2.reads.map (·.2)) s.ctl).withPlane fun pl => { pl with passWait := false }) := by
    simp [sumsLoaded, hh, hsaved, hp, hd, hc]
    rfl
  have hjob : ((noteReads s.mem (r.2.reads.map (·.2)) s.ctl).withPlane fun pl => { pl with passWait := false }).job? j.no = some j :=
    (Ctl.withPlane_job? ..).trans ((Ctl.job?_of_jobs (Ctl.jobs_of_unread hread) j.no).trans hj)
  obtain ⟨k, hk, he⟩ : ∃ k, (sumsLoaded s.mem s.ctl).job? j.no = some k ∧ k.exec = { j.exec with saved := r.1, savedState := 2 } := by
    rw [hload]
    exact ⟨_, onExec_job? hjob _, rfl⟩
  refine ⟨s.run sumsLoaded, rfl, sameMem_of_run ?_, ?_, withJob_run hk ⟨by rw [he], by rw [he], by rw [he], by rw [he]⟩⟩
  · rw [hload, onExec_wq, Ctl.withPlane_wq, Ctl.wq_of_unread hread]
    exact hs.2
  · rw [State.run_plane, hload]
    rfl

omit hs in
/-- An abort between commands (R147). -/
theorem exec_abortEffect_between {j : Job} {r : Req} (hh : s.ctl.holding = some j) (ha : j.abortReq = some r)
    (hp : j.exec.phase = 0) (hi : j.exec.incomplete = []) (hwait : s.ctl.plane.waitFull = none) :
    completes .abortEffect s fun t => endedJob t j.no ∧ t.ctl.plane.holder = none ∧
      (s.ctl.proto.sa.getD r.port false = true → replies s t r 0x12 .aborted [[]]) := by
  obtain ⟨hholder, hj, -, he⟩ := Ctl.holding_eq_some.mp hh
  have hend : abortNow s.mem s.ctl = endJobWith [] s.mem j.no .aborted 4 j.exec.pc (rTag (j.cmds.getD j.exec.pc 0)) s.ctl := by
    simp [abortNow, hh, ha, hp, hi, hwait, failAt, hj, endJob]
  refine ⟨s.run abortNow, rfl, ?_, ?_, fun hsa => ?_⟩
  · rw [endedJob_run, hend]
    exact (endJobWith_endsJob _ _ _ _ _ _ hj he).allOver
  · rw [State.run_plane, hend]
    exact endJobWith_holder _ _ _ _ _ _ hj he hholder
  · obtain ⟨a, b, hsent, hepoch⟩ :=
      endJobWith_answersAbort [] s.mem .aborted 4 j.exec.pc (rTag (j.cmds.getD j.exec.pc 0)) hj he ha hsa
    rw [← hend] at hsent hepoch
    obtain ⟨b', hrun⟩ := State.run_sent abortNow s
    refine ⟨a, b ++ b', ?_⟩
    rw [State.run_epoch, hepoch, hrun, hsent]
    simp

end

/-- Settles O37: each event by the lemma on it; the job that takes the Plane, or leaves it at a stop or an end, is followed through
the state that its streams and its drain change. -/
theorem dispatchAndPreemption : Obligations.DispatchAndPreemption := by
  intro s hs c
  refine ⟨fun j hw ht hb => ⟨fun h hh hlt => ?_, fun h hh hle => ?_, fun hh hlast => ?_, fun k hh hlast hne => ?_⟩,
    fun h => exec_quantumExpiry_of_used hs, fun j => exec_preemptionStop_of_stopAt hs,
    fun w j => exec_classSwitchComplete_of_runs hs, fun j => exec_savedSumsLoaded_of_saved hs,
    fun j r => exec_abortEffect_between⟩
  · exact exec_eq_withCtl (f := dispatch) rfl ((dispatch_of_held hw ht hb hh).trans (if_pos hlt)) hs.2 rfl
  · exact exec_eq_self (f := dispatch) hs rfl ((dispatch_of_held hw ht hb hh).trans (if_neg (not_lt.mpr hle)))
  · exact exec_runDispatch_takes hs ((dispatch_of_free hw ht hb hh).trans (if_pos hlast))
  · have hother : ¬(s.ctl.plane.last = none ∨ s.ctl.plane.last = some j.no) := by simp [show s.ctl.plane.last = some k from hlast, hne]
    exact exec_eq_withCtl (f := dispatch) rfl ((dispatch_of_free hw ht hb hh).trans (if_neg hother)) hs.2 rfl

end Sys2Proof.Machine
end

section
/-! PROOF of O40. Groups, steps and the ends of passes, parity mismatches and packing faults (03 R78, R80, R90, R93, R94, R97;
10 R324, R329, R331). -/

namespace Sys2Proof.Machine

variable {s : State} {j : Job}

/-! ### Parity mismatches (R80) -/

/-- A parity mismatch of the list on the Plane ends it, and the Plane is free. -/
theorem parityFault_of_holding {f : Mem → Ctl → Ctl} {t idx : Nat} {m : Mem} {c : Ctl} (hf : f s.mem s.ctl = parityFault t j.no idx m c)
    (hh : c.holding = some j) : endedJob (s.run f) j.no ∧ (s.run f).ctl.plane.holder = none := by
  obtain ⟨hholder, hj, -, he⟩ := Ctl.holding_eq_some.mp hh
  constructor
  · rw [endedJob_run, hf]
    exact parityFault_over t idx m hj he
  · rw [State.run_plane, hf]
    exact parityFault_holder t idx m hj he hholder

/-! ### Groups (R78, R93) -/

/-- What a group that is granted notes: blocks decoded void, those that the tiles have decoded, reads, void rows, rows that share
decoders, and saturations. -/
def groupNoted (m : Mem) (j : Job) (p : Port) (sat : List (Nat × Nat)) (c : Ctl) : Ctl :=
  let keep (e : Exec) : Exec := { e with band := e.band ++ p.decoded }
  let decoded := (noteBlocks j.no j.exec.blocks p.blocks c).mapJob j.no fun j => { j with exec := keep j.exec }
  let read := noteReadsOf m j.no j.exec.pc p decoded
  countSums sat (shareCount j.now (rG j.now) ((p.voids.eraseDups).foldl (fun c x => count .plnVoidRow x.1 1 c) read))

theorem groupNoted_notes (m : Mem) (j : Job) (p : Port) (sat : List (Nat × Nat)) (c : Ctl) : c.Notes (groupNoted m j p sat c) := by
  unfold groupNoted
  extract_lets keep decoded read
  have hdecoded : c.Notes decoded := ((Ctl.Notes.refl c).noteBlocks ..).mapJob _ fun _ => rfl
  have hread : c.Notes read := hdecoded.noteReadsOf ..
  exact ((hread.foldl (fun _ _ hc => hc.count ..) _).shareCount ..).countSums _

section
variable {m : Mem} {c : Ctl} (hh : c.holding = some j) (hk : j.kind = .array) (hp : j.exec.phase = 1) (hholds : c.plane.holds = 0)
  (hfaults : c.plane.heldFaults = []) (hcut : j.exec.cut = none) (hcopy : c.plane.copying = none)
  (hstep : j.exec.step < rSteps j.now) (hgrp : j.exec.grp < rStepGroups j.now j.exec.step) (hstop : c.stopsHere j = false)
include hh hk hp hholds hfaults hcut hcopy hstep hgrp hstop

omit hh in
theorem group_may_enter : ¬(j.kind ≠ .array ∨ j.exec.phase ≠ 1 ∨ c.plane.holds ≠ 0 ∨ c.plane.heldFaults ≠ [] ∨ j.exec.cut.isSome ∨
    c.plane.copying.isSome ∨ rSteps j.now ≤ j.exec.step ∨ rStepGroups j.now j.exec.step ≤ j.exec.grp ∨ c.stopsHere j) := by
  simp [hk, hp, hholds, hfaults, hcut, hcopy, hstep, hgrp, hstop]

theorem groupBoundary_parity (t : Nat) : groupBoundary (some t) m c = parityFault t j.no j.exec.pc m c := by
  have henters := group_may_enter hk hp hholds hfaults hcut hcopy hstep hgrp hstop
  simp only [groupBoundary, hh, if_neg henters]

/-- A group whose operands are granted and whole enters the cells: its reads are noted, and the list goes on. -/
theorem groupBoundary_granted (hpro : prologue m j c = .ok c) {l : List (Nat × F32 × Nat)} {p : Port}
    (hgroup : (allGroups m c j j.now j.exec).run Port.empty = (l, p)) (hout : p.outside = none) (hwait : p.wait = false)
    (hblocks : p.faults = []) : groupBoundary none m c =
      onExec j.no (fun e => { e with sums := (addContributions j.exec.sums l).1, grp := e.grp + 1 })
        ((groupNoted m j p (addContributions j.exec.sums l).2 c).withPlane fun pl =>
          { pl with operandWait := none, atPassEnd := false }) := by
  have henters := group_may_enter hk hp hholds hfaults hcut hcopy hstep hgrp hstop
  simp only [groupBoundary, hh, if_neg henters, hpro, hgroup, hout, hwait, hblocks, ne_eq, not_true_eq_false, if_false,
    Bool.false_eq_true]
  rfl

end

/-- No table is to be loaded ahead of a group that is not the command's first, that has its table, or whose command has none. -/
theorem prologue_of_no_table {m : Mem} {c : Ctl}
    (h : j.exec.pass = 0 ∧ j.exec.step = 0 ∧ j.exec.grp = 0 ∧ j.exec.table = [] →
      ∃ knots p, loadTable m c j j.now = .ready knots p ∧ knots = []) : prologue m j c = .ok c := by
  unfold prologue
  dsimp only
  split
  · rfl
  · rename_i hfirst
    obtain ⟨knots, p, hload, rfl⟩ := h (by simpa [not_or] using hfirst)
    rw [hload]

/-! ### Steps and passes (R90, R94, R97) -/

section
variable (hh : s.ctl.holding = some j) (hk : j.kind = .array) (hp : j.exec.phase = 1) (hholds : s.ctl.plane.holds = 0)
include hh hk hp hholds

theorem exec_stepBoundary_of_groups (hs : s.ready) (hcopy : s.ctl.plane.copying = none) (hstep : j.exec.step < rSteps j.now)
    (hgrp : rStepGroups j.now j.exec.step ≤ j.exec.grp) {mem : Mem}
    (hring : if rMap j.now = 1 ∨ 15 ≤ j.exec.step then mem = s.mem
      else ∃ c' w, putRuns j (rOp j.now) (fun _ => true) (gatherRuns (rotate s.mem s.ctl j j.now j.exec)) false s.mem s.ctl =
        .ok (mem, c', w)) :
    completes .stepBoundary s fun t => t.ctl.slotTags = s.ctl.slotTags ∧ t.mem = mem ∧
      withJob t j.no fun k => k.exec.step = j.exec.step + 1 ∧ k.exec.grp = 0 ∧ k.exec.pass = j.exec.pass ∧ k.exec.sums = j.exec.sums := by
  obtain ⟨-, hj, -, -⟩ := Ctl.holding_eq_some.mp hh
  have hends : ¬(j.kind ≠ .array ∨ j.exec.phase ≠ 1 ∨ rSteps j.now ≤ j.exec.step ∨ j.exec.grp < rStepGroups j.now j.exec.step ∨
      s.ctl.plane.holds ≠ 0 ∨ s.ctl.plane.copying.isSome) := by simp [hk, hp, hholds, hcopy, hstep, hgrp]
  obtain ⟨c', ws, hgoes, hmem, hwritten⟩ : ∃ c' ws, stepBoundary s.mem s.ctl =
      onExec j.no (fun e => { e with step := e.step + 1, grp := 0 }) c' ∧ mem = s.mem.apply ws ∧
      c'.unread = (emit ws s.ctl).unread := by
    simp only [stepBoundary, hh, if_neg hends]
    split at hring
    · rename_i hstill
      exact ⟨s.ctl, [], if_pos hstill, hring.trans (by simp), by simp [emit]⟩
    · rename_i hrotates
      obtain ⟨c', w, hput⟩ := hring
      obtain ⟨ws, hmem, hctl⟩ := putRuns_emits hput
      exact ⟨c', ws, by rw [if_neg hrotates, hput], hmem, hctl⟩
  have hwq : c'.wq = ws := by
    rw [Ctl.wq_of_unread hwritten, emit_wq, hs.2, List.nil_append]
  obtain ⟨k, hk, he⟩ : ∃ k, (stepBoundary s.mem s.ctl).job? j.no = some k ∧ k.exec = { j.exec with step := j.exec.step + 1, grp := 0 } := by
    rw [hgoes]
    exact ⟨_, onExec_job? ((Ctl.job?_of_jobs (Ctl.jobs_of_unread hwritten) j.no).trans hj) _, rfl⟩
  refine ⟨s.run stepBoundary, rfl, ?_, ?_, withJob_run hk ⟨by rw [he], by rw [he], by rw [he], by rw [he]⟩⟩
  · rw [State.run_slotTags, hgoes, onExec_slotTags, Ctl.slotTags_of_unread hwritten, emit_slotTags]
  · rw [State.run_mem, hgoes, onExec_wq, hwq, hmem]

section
variable (hstep : rSteps j.now ≤ j.exec.step)
include hstep

omit hh in
theorem pass_may_end : ¬(j.kind ≠ .array ∨ j.exec.phase ≠ 1 ∨ j.exec.step < rSteps j.now ∨ s.ctl.plane.holds ≠ 0) := by
  simp [hk, hp, hholds, hstep]

theorem passEnd_parity (t : Nat) : passEnd (some t) s.mem s.ctl = parityFault t j.no j.exec.pc s.mem s.ctl := by
  simp only [passEnd, hh, if_neg (pass_may_end hk hp hholds hstep)]

theorem passEnd_of_steps : passEnd none s.mem s.ctl =
    if s.ctl.plane.drain.isSome ∨ j.exec.savedState = 1 then s.ctl.withPlane fun p => { p with passWait := true }
    else onExec j.no (fun e => { e with
        sums := [], saved := [], savedState := 0, blocks := [], band := [], step := 0, grp := 0
        pass := if e.pass + 1 < rPasses j.now then e.pass + 1 else e.pass
        phase := if e.pass + 1 < rPasses j.now then 1 else 2 }) (toDrain j false s.ctl) := by
  simp only [passEnd, hh, if_neg (pass_may_end hk hp hholds hstep)]

theorem exec_passEnd_to_drain (hs : s.ready) (hd : s.ctl.plane.drain = none) (hsaved : j.exec.savedState ≠ 1) :
    completes (.passEnd none) s fun t => sameMem s t ∧ t.ctl.plane.passWait = false ∧
      (∃ d, t.ctl.plane.drain = some d ∧ d.job = j.no ∧ d.idx = j.exec.pc ∧ d.pass = j.exec.pass ∧ d.toSave = false ∧
        d.vals = (if j.exec.savedState = 2 then (joinSums j.exec.saved j.exec.sums).1 else j.exec.sums) ∧ d.table = j.exec.table ∧
        d.filled = []) ∧
      withJob t j.no fun k => k.exec.sums = [] ∧ k.exec.step = 0 ∧ k.exec.grp = 0 ∧
        (j.exec.pass + 1 < rPasses j.now → k.exec.pass = j.exec.pass + 1 ∧ k.exec.phase = 1) ∧
        (rPasses j.now ≤ j.exec.pass + 1 → k.exec.pass = j.exec.pass ∧ k.exec.phase = 2) := by
  obtain ⟨-, hj, -, -⟩ := Ctl.holding_eq_some.mp hh
  have hends := passEnd_of_steps hh hk hp hholds hstep
  simp only [hd, Option.isSome_none, Bool.false_eq_true, hsaved, or_self, if_false] at hends
  have hdrain := toDrain_changes j false s.ctl
  have hplane : (s.run (passEnd none)).ctl.plane = (toDrain j false s.ctl).plane := by rw [State.run_plane, hends, onExec_plane]
  rw [Ctl.plane_of_unread hdrain] at hplane
  obtain ⟨k, hk, he⟩ : ∃ k, (passEnd none s.mem s.ctl).job? j.no = some k ∧ k.exec = { j.exec with
      sums := [], saved := [], savedState := 0, blocks := [], band := [], step := 0, grp := 0
      pass := if j.exec.pass + 1 < rPasses j.now then j.exec.pass + 1 else j.exec.pass
      phase := if j.exec.pass + 1 < rPasses j.now then 1 else 2 } := by
    rw [hends]
    exact ⟨_, onExec_job? ((toDrain_job? ..).trans hj) _, rfl⟩
  refine ⟨s.run (passEnd none), rfl, sameMem_of_run ?_, by rw [hplane]; rfl,
    ⟨_, by rw [hplane]; rfl, rfl, rfl, rfl, rfl, rfl, rfl, rfl⟩,
    withJob_run hk ⟨by rw [he], by rw [he], by rw [he], fun hmore => ?_, fun hlast => ?_⟩⟩
  · rw [hends, onExec_wq, Ctl.wq_of_unread hdrain]
    exact hs.2
  · rw [he]
    simp [hmore]
  · rw [he]
    simp [not_lt.mpr hlast]
end
end

theorem stopsHere_emit (ws : List Wr) (c : Ctl) (j : Job) : (emit ws c).stopsHere j = c.stopsHere j := by
  have hat : stopAt (emit ws c) j = stopAt c j := by
    unfold stopAt
    rfl
  rw [Ctl.stopsHere, Ctl.stopsHere, hat]
  rfl

/-- A group enters the cells of the list that holds the Plane, with the upsets of its reads in place (R78, R93). -/
theorem exec_groupBoundary_granted (hs : s.ready) {ups : List Upset} (hh : s.ctl.holding = some j) (hk : j.kind = .array)
    (hp : j.exec.phase = 1) (hholds : s.ctl.plane.holds = 0) (hfaults : s.ctl.plane.heldFaults = []) (hcut : j.exec.cut = none)
    (hcopy : s.ctl.plane.copying = none) (hstep : j.exec.step < rSteps j.now) (hgrp : j.exec.grp < rStepGroups j.now j.exec.step)
    (hstop : s.ctl.stopsHere j = false) {m : Mem} (hm : m = s.mem.apply (upsetWrites s.mem ups)) {c₁ : Ctl}
    (hc : c₁ = emit (upsetWrites s.mem ups) s.ctl) (hpro : prologue m j c₁ = .ok c₁) {l : List (Nat × F32 × Nat)} {p : Port}
    (hgroup : (allGroups m c₁ j j.now j.exec).run Port.empty = (l, p)) (hout : p.outside = none) (hwait : p.wait = false)
    (hblocks : p.faults = []) :
    completes (.groupBoundary ups none) s fun t => t.mem = m ∧ t.ctl.plane.operandWait = none ∧ t.ctl.slotTags = s.ctl.slotTags ∧
      withJob t j.no fun k => k.exec.grp = j.exec.grp + 1 ∧ k.exec.step = j.exec.step ∧ k.exec.pass = j.exec.pass ∧
        k.exec.sums = (addContributions j.exec.sums l).1 := by
  obtain ⟨-, hj, -, -⟩ := Ctl.holding_eq_some.mp hh
  have hnotes := groupNoted_notes m j p (addContributions j.exec.sums l).2 c₁
  have hgoes : withUpsets ups (groupBoundary none) s.mem s.ctl =
      onExec j.no (fun e => { e with sums := (addContributions j.exec.sums l).1, grp := e.grp + 1 })
        ((groupNoted m j p (addContributions j.exec.sums l).2 c₁).withPlane fun pl =>
          { pl with operandWait := none, atPassEnd := false }) := by
    subst hm hc
    exact groupBoundary_granted (c := emit (upsetWrites s.mem ups) s.ctl) hh hk hp hholds hfaults hcut hcopy hstep hgrp
      ((stopsHere_emit ..).trans hstop) hpro hgroup hout hwait hblocks
  have hstill : c₁.job? j.no = some j := hc ▸ hj
  obtain ⟨k, hk, hsame⟩ := hnotes.job? hstill
  have hplace : k.exec.grp = j.exec.grp ∧ k.exec.step = j.exec.step ∧ k.exec.pass = j.exec.pass :=
    ⟨congrArg (·.exec.grp) hsame, congrArg (·.exec.step) hsame, congrArg (·.exec.pass) hsame⟩
  obtain ⟨x, hx, he⟩ : ∃ x, (withUpsets ups (groupBoundary none) s.mem s.ctl).job? j.no = some x ∧
      x.exec = { k.exec with sums := (addContributions j.exec.sums l).1, grp := k.exec.grp + 1 } := by
    rw [hgoes]
    refine ⟨_, onExec_job? ?_ _, rfl⟩
    rw [Ctl.withPlane_job?]
    exact hk
  refine ⟨s.run (withUpsets ups (groupBoundary none)), rfl, ?_, ?_, ?_, withJob_run hx ?_⟩
  · rw [State.run_mem, hgoes, onExec_wq, Ctl.withPlane_wq, hnotes.wq, hc, emit_wq, hs.2, List.nil_append, hm]
  · rw [State.run_plane, hgoes]
    rfl
  · rw [State.run_slotTags, hgoes, onExec_slotTags, Ctl.withPlane_slotTags, hnotes.slotTags, hc, emit_slotTags]
  · obtain ⟨hg, hst, hpa⟩ := hplace
    rw [he]
    exact ⟨by rw [hg], hst, hpa, rfl⟩

/-! ### Packing faults (R329 to R331) -/

/-- The fault that the cells reach first, and of these the one of the lowest tile, is found. -/
theorem find_first_fault {held : List HeldFault} {f : HeldFault} (hf : f ∈ held)
    (hfirst : ∀ g ∈ held, g ≠ f → f.pair < g.pair ∨ (f.pair = g.pair ∧ f.tile < g.tile)) :
    ((held.filter fun f => held.all fun g => decide (f.pair ≤ g.pair)).find? fun f =>
      (held.filter fun f => held.all fun g => decide (f.pair ≤ g.pair)).all fun g => decide (f.tile ≤ g.tile)) = some f := by
  set earliest := held.filter fun f => held.all fun g => decide (f.pair ≤ g.pair) with hearliest
  have hmem : f ∈ earliest := by
    simp only [hearliest, List.mem_filter, hf, List.all_eq_true, decide_eq_true_eq, true_and]
    intro g hg
    obtain rfl | hne := eq_or_ne g f
    · exact le_rfl
    · have := hfirst g hg hne
      omega
  have hpair : ∀ g ∈ earliest, g ∈ held ∧ g.pair ≤ f.pair := fun g hg => by
    simp only [hearliest, List.mem_filter, List.all_eq_true, decide_eq_true_eq] at hg
    exact ⟨hg.1, hg.2 f hf⟩
  have hlowest : (earliest.all fun g => decide (f.tile ≤ g.tile)) = true := by
    simp only [List.all_eq_true, decide_eq_true_eq]
    intro g hg
    obtain rfl | hne := eq_or_ne g f
    · exact le_rfl
    · have := hpair g hg
      have := hfirst g this.1 hne
      omega
  have hfound := List.find?_isSome (p := fun f => earliest.all fun g => decide (f.tile ≤ g.tile)).mpr ⟨f, hmem, hlowest⟩
  obtain ⟨g, hg⟩ := Option.isSome_iff_exists.mp hfound
  obtain rfl | hne := eq_or_ne g f
  · exact hg
  · have htile : g.tile ≤ f.tile := by
      have := List.find?_some hg
      simp only [List.all_eq_true, decide_eq_true_eq] at this
      exact this f hmem
    have hheld := hpair g (List.mem_of_find?_eq_some hg)
    have := hfirst g hheld.1 hne
    omega

/-- The status that a report of a packing fault gives. -/
def faultStatus (f : HeldFault) : KS :=
  if f.status = KS.packOverrun.code then .packOverrun else if f.status = KS.packPadding.code then .packPadding else .packFormat

theorem faultStatus_code {f : HeldFault} (h : f.status ∈ [KS.packOverrun.code, KS.packPadding.code, KS.packFormat.code]) :
    (faultStatus f).code = f.status := by
  simp only [List.mem_cons, List.not_mem_nil, or_false] at h
  unfold faultStatus
  split
  · exact Eq.symm ‹_›
  · split
    · exact Eq.symm ‹_›
    · exact (h.resolve_left ‹_›).resolve_left ‹_› |>.symm

/-- A packing fault ends the job on the Plane, once the row pairs before it are noted. -/
theorem packFault_ends {m : Mem} {c : Ctl} {f : HeldFault} (hh : c.holding = some j) (hstop : c.stopsHere j = false)
    (hf : f ∈ c.plane.heldFaults)
    (hfirst : ∀ g ∈ c.plane.heldFaults, g ≠ f → f.pair < g.pair ∨ (f.pair = g.pair ∧ f.tile < g.tile)) :
    ∃ detail noted, c.Notes noted ∧
      packFault m c = endJobWith detail m j.no (faultStatus f) 4 j.exec.pc (rTag j.now) noted := by
  simp only [packFault, hh, hstop, Bool.false_eq_true, if_false, find_first_fault hf hfirst]
  refine ⟨_, _, ?_, rfl⟩
  refine Ctl.Notes.foldl (Ctl.Notes.shareCount (Ctl.Notes.foldl ?_ (fun _ _ hc => hc.count ..) _) ..) (fun _ _ hc => hc.count ..) _
  exact (Ctl.Notes.refl c).noteReadsOf ..

theorem exec_packingFault_reached {f : HeldFault} (hh : s.ctl.holding = some j) (hstop : s.ctl.stopsHere j = false)
    (hf : f ∈ s.ctl.plane.heldFaults)
    (hfirst : ∀ g ∈ s.ctl.plane.heldFaults, g ≠ f → f.pair < g.pair ∨ (f.pair = g.pair ∧ f.tile < g.tile))
    (hst : f.status ∈ [KS.packOverrun.code, KS.packPadding.code, KS.packFormat.code]) :
    completes .packingFault s fun t => endedJob t j.no ∧ t.ctl.plane.holder = none ∧
      (s.ctl.proto.sa.getD s.ctl.proto.active false = true →
        ∃ (a b : List Packet) (q : Packet), t.ctl.proto.sent = s.ctl.proto.sent ++ (a ++ (q :: b)) ∧ q.kind = 0x21 ∧ q.status = f.status ∧
          q.dst = { j.submitter with port := s.ctl.proto.active }) := by
  obtain ⟨hholder, hj, -, he⟩ := Ctl.holding_eq_some.mp hh
  obtain ⟨detail, noted, hnotes, hends⟩ := packFault_ends (m := s.mem) hh hstop hf hfirst
  obtain ⟨k, hk, hsame⟩ := hnotes.job? hj
  have hended : k.ended = false := (congrArg Job.ended hsame : k.unnoted.ended = j.unnoted.ended).trans he
  have hsubmitter : k.submitter = j.submitter := (congrArg Job.submitter hsame : k.unnoted.submitter = j.unnoted.submitter)
  refine ⟨s.run packFault, rfl, ?_, ?_, fun hsa => ?_⟩
  · rw [endedJob_run, hends]
    exact (endJobWith_endsJob _ _ _ _ _ _ hk hended).allOver
  · rw [State.run_plane, hends]
    exact endJobWith_holder _ _ _ _ _ _ hk hended (hnotes.holder.trans hholder)
  · obtain ⟨a, b, q, hsent, hkind, hstatus, hdst⟩ := endJobWith_tells detail s.mem (faultStatus f) 4 j.exec.pc (rTag j.now) hk hended
      (by rw [hnotes.sa, hnotes.active]; exact hsa)
    rw [← hends] at hsent
    obtain ⟨l, hl⟩ := hnotes.sent
    obtain ⟨b', hrun⟩ := State.run_sent packFault s
    refine ⟨l ++ a, b ++ b', q, ?_, hkind, by rw [hstatus, faultStatus_code hst], by rw [hdst, hsubmitter, hnotes.active]⟩
    rw [hrun, hsent, hl]
    simp

/-- Settles O40: a group and a step leave what their lemmas say, a pass its sums in the drain registers, and the two ends of a job go
through the lemmas on parity mismatches and on the end of a job. -/
theorem passesGoOn : Obligations.PassesGoOn := by
  intro s j hs hh c e r
  refine ⟨fun ups hk hp hholds hfaults hcut hcopy hstep hgrp hstop => ⟨fun t₀ => ?_, fun htable hout hwait hblocks => ?_⟩,
    fun hk hp hstep hgrp hholds hcopy mem hring => exec_stepBoundary_of_groups hh hk hp hholds hs hcopy hstep hgrp hring,
    fun hk hp hstep hholds => ⟨fun t₀ => ?_, fun hwaits => ?_, fun hd hsaved => exec_passEnd_to_drain hh hk hp hholds hstep hs hd hsaved⟩,
    fun f hf hfirst hstop hst => exec_packingFault_reached hh hstop hf hfirst hst⟩
  · have hfault : withUpsets ups (groupBoundary (some t₀)) s.mem s.ctl = parityFault t₀ j.no j.exec.pc
        (s.mem.apply (upsetWrites s.mem ups)) (emit (upsetWrites s.mem ups) s.ctl) :=
      groupBoundary_parity (c := emit (upsetWrites s.mem ups) s.ctl) hh hk hp hholds hfaults hcut hcopy hstep hgrp
        ((stopsHere_emit ..).trans hstop) t₀
    exact ⟨_, rfl, parityFault_of_holding hfault hh⟩
  · exact exec_groupBoundary_granted (m := s.mem.apply (upsetWrites s.mem ups)) (c₁ := emit (upsetWrites s.mem ups) s.ctl) hs hh hk hp
      hholds hfaults hcut hcopy hstep hgrp hstop rfl rfl (prologue_of_no_table htable) Prod.mk.eta.symm hout hwait hblocks
  · exact ⟨_, rfl, parityFault_of_holding (passEnd_parity hh hk hp hholds hstep t₀) hh⟩
  · exact exec_eq_withCtl (f := passEnd none) rfl ((passEnd_of_steps hh hk hp hholds hstep).trans (if_pos hwaits)) hs.2 rfl

end Sys2Proof.Machine
end

section
/-! PROOF of O41. The drain fills slots in order and ends, and commands complete with their releases and their signal (03 R80, R94;
04 R130, R131, R133, R139, R153; 07 R219). -/

namespace Sys2Proof.Machine

variable {s : State} {d : Drain} {j : Job}

/-! ### A parity mismatch of the drain registers (R80) -/

theorem exec_drain_parity {i : Instr} {f : Mem → Drain → Job → Ctl → Attempt Ctl} {t₀ : Nat}
    (hi : exec i s = .next (s.run (drainOnce f (some t₀)))) (hd : s.ctl.plane.drain = some d) (hj : s.ctl.job? d.job = some j)
    (hcopy : s.ctl.plane.copying = none) (he : j.ended = false) :
    completes i s fun t => endedJob t d.job ∧ ∀ d', t.ctl.plane.drain = some d' → d'.job ≠ d.job := by
  have hfault := drainOnce_parity hd hj hcopy f t₀ (m := s.mem)
  refine ⟨_, hi, ?_, ?_⟩
  · rw [endedJob_run, hfault]
    exact parityFault_over t₀ d.idx s.mem hj he
  · rw [State.run_plane, hfault]
    refine parityFault_drain t₀ d.idx s.mem hj he fun d' hd' _ => ?_
    rw [Option.some.inj (hd.symm.trans hd')]

/-! ### Slots that fill (R94, R130, R219) -/

section
variable (hs : s.ready) (hd : s.ctl.plane.drain = some d) (hj : s.ctl.job? d.job = some j) (hcopy : s.ctl.plane.copying = none)
  (htable : opKind (rOp (j.cmds.getD d.idx 0)) = .vector → d.table = [] →
    ∃ knots p, loadTable s.mem s.ctl j (j.cmds.getD d.idx 0) = .ready knots p ∧ knots = [])
  {slot : Nat} {second : Bool}
include hs hd hj hcopy htable

/-- A slot that is not the next one changes nothing that a program sees. -/
theorem exec_drainSlotFull_not_next (hf : fillSlot s.mem d j slot second s.ctl = .ok s.ctl) :
    completes (.drainSlotFull slot second none) s fun t =>
      sameMem s t ∧ t.ctl.slotTags = s.ctl.slotTags ∧ t.ctl.plane.drain = some d := by
  obtain ⟨⟨w, hplane⟩, hwq, htags, -⟩ := drainMoved_leaves d j s.ctl
  have hdrain : (drainMoved d j s.ctl).plane.drain = some d := by rw [hplane]; exact hd
  have hrun := drainOnce_ok hd hj hcopy htable (f := fun m d j c => fillSlot m d j slot second c) hf (.inl (by rw [hdrain]; rfl))
  refine ⟨_, rfl, sameMem_of_run ?_, ?_, ?_⟩
  · rw [hrun, hwq]
    exact hs.2
  · rw [State.run_slotTags, hrun, htags]
  · rw [State.run_plane, hrun, hdrain]

/-- A full slot makes the drain wait. -/
theorem exec_drainSlotFull_waits {on : List (Nat × Nat)} (hf : fillSlot s.mem d j slot second s.ctl = .error (.drainWait on, s.ctl)) :
    completes (.drainSlotFull slot second none) s fun t =>
      (sameMem s t ∧ t.ctl.slotTags = s.ctl.slotTags ∧ t.ctl.plane.drain = some d) ∧
      t.ctl.plane.drainWait = some (s.ctl.plane.drainWait.getD s.ctl.us) := by
  have hrun := drainOnce_waits hd hj hcopy htable (f := fun m d j c => fillSlot m d j slot second c) hf
  refine ⟨_, rfl, ⟨sameMem_of_run ?_, ?_, ?_⟩, ?_⟩
  · rw [hrun]
    exact hs.2
  · rw [State.run_slotTags, hrun]
    rfl
  · rw [State.run_plane, hrun]
    exact hd
  · rw [State.run_plane, hrun]
    cases h : s.ctl.plane.drainWait <;> simp [since, h]

/-- A slot that fills: its outputs are written, it is full, and the drain remembers it. -/
theorem exec_drainSlotFull_fills {q : DoneSlot} {n : Nat} {w ws : List Wr} {c₂ : Ctl}
    (hf : fillSlot s.mem d j slot second s.ctl = .ok (slotFilled d q n w c₂)) (hc₂ : c₂.undrained = (emit ws s.ctl).undrained) :
    completes (.drainSlotFull slot second none) s fun t =>
      t.mem = s.mem.apply ws ∧ (∀ k, t.ctl.slotFull k = (q.keys.contains k || s.ctl.slotFull k)) ∧ t.ctl.plane.drainWait = none ∧
        t.ctl.plane.drain = some { d with filled := d.filled ++ q.keys, rows := n, undo := w ++ d.undo, paid := [] } := by
  obtain ⟨⟨o, hplane⟩, hwq, htags, -⟩ := drainMoved_leaves d j (slotFilled d q n w c₂)
  have hdrain : (drainMoved d j (slotFilled d q n w c₂)).plane.drain =
      some { d with filled := d.filled ++ q.keys, rows := n, undo := w ++ d.undo, paid := [] } := by rw [hplane]; rfl
  have hrun := drainOnce_ok hd hj hcopy htable (f := fun m d j c => fillSlot m d j slot second c) hf (.inl (by rw [hdrain]; rfl))
  refine ⟨_, rfl, ?_, fun k => ?_, ?_, ?_⟩
  · have hwrites : (slotFilled d q n w c₂).wq = ws := by
      rw [slotFilled, Ctl.withPlane_wq, setAllFull_wq, Ctl.wq_of_undrained hc₂, emit_wq, hs.2, List.nil_append]
    rw [State.run_mem, hrun, hwq, hwrites]
  · have hfull : (slotFilled d q n w c₂).slotFull k = (setAll setFull q.keys c₂).slotFull k := rfl
    have hbefore : c₂.slotFull k = s.ctl.slotFull k := Ctl.slotFull_of_slotTags (Ctl.slotTags_of_undrained hc₂) k
    rw [State.run_slotFull, hrun, Ctl.slotFull_of_slotTags htags, hfull, setAllFull_slotFull, hbefore]
  · rw [State.run_plane, hrun, hplane]
    rfl
  · rw [State.run_plane, hrun, hdrain]

/-- A drain that ends: what is left of it is written, its slots are full, and the registers are free. -/
theorem exec_drainComplete_ends (hcut : s.ctl.uncut) {ks : List Nat} {ws : List Wr} {c₂ : Ctl}
    (hf : completeDrain s.mem d j s.ctl = .ok (freeDrain (setAll setFull ks c₂))) (hc₂ : c₂.undrained = (emit ws s.ctl).undrained) :
    completes (.drainComplete none) s fun t => (t.ctl.plane.drain = none ∧ t.ctl.plane.drainWait = none) ∧ t.mem = s.mem.apply ws ∧
      (∀ k, t.ctl.slotFull k = (ks.contains k || s.ctl.slotFull k)) ∧ (ks = [] → t.ctl.slotTags = s.ctl.slotTags) := by
  obtain ⟨⟨o, hplane⟩, hwq, htags, hseats⟩ := drainMoved_leaves d j (freeDrain (setAll setFull ks c₂))
  obtain ⟨hfplane, hfwq, hftags, hfseats⟩ := freeDrain_frees (setAll setFull ks c₂)
  have htagged := setAllFull_untagged ks c₂
  have huncut : (drainMoved d j (freeDrain (setAll setFull ks c₂))).uncut := by
    have hwritten : c₂.uncut := (Ctl.Seats.of_undrained hc₂).uncut hcut
    have hset : (setAll setFull ks c₂).uncut :=
      (Ctl.Seats.of_eq (congrArg Plane.holder (Ctl.plane_of_untagged htagged)) (Ctl.jobs_of_untagged htagged)).uncut hwritten
    exact hseats.uncut (hfseats.uncut hset)
  have hrun := drainOnce_ok hd hj hcopy htable hf (.inr huncut)
  rw [hfplane] at hplane
  have hslots : (drainMoved d j (freeDrain (setAll setFull ks c₂))).slotTags = (setAll setFull ks c₂).slotTags := htags.trans hftags
  refine ⟨_, rfl, ⟨?_, ?_⟩, ?_, fun k => ?_, fun hnone => ?_⟩
  · rw [State.run_plane, hrun, hplane]
  · rw [State.run_plane, hrun, hplane]
  · rw [State.run_mem, hrun, hwq, hfwq, setAllFull_wq, Ctl.wq_of_undrained hc₂, emit_wq, hs.2, List.nil_append]
  · rw [State.run_slotFull, hrun, Ctl.slotFull_of_slotTags hslots, setAllFull_slotFull,
      Ctl.slotFull_of_slotTags (Ctl.slotTags_of_undrained hc₂)]
    rfl
  · rw [State.run_slotTags, hrun, hslots, hnone]
    exact (Ctl.slotTags_of_undrained hc₂ : c₂.slotTags = (emit ws s.ctl).slotTags)

end

/-! ### What an attempt writes (R94, R130, R167, R219) -/

/-- Two runs written one after the other are one series of writes. -/
theorem putRuns_both {op op' : Nat} {want want' : Option Nat → Bool} {qs qs' : List OutRun} {tagged tagged' : Bool} {m m₁ m₂ : Mem}
    {c c₁ c₂ : Ctl} {w₁ w₂ : List Wr} (h₁ : putRuns j op want qs tagged m c = .ok (m₁, c₁, w₁))
    (h₂ : putRuns j op' want' qs' tagged' m₁ c₁ = .ok (m₂, c₂, w₂)) :
    ∃ ws, m₂ = m.apply ws ∧ c₂.undrained = (emit ws c).undrained := by
  obtain ⟨ws₁, rfl, hc₁⟩ := putRuns_writes h₁
  obtain ⟨ws₂, rfl, hc₂⟩ := putRuns_writes h₂
  refine ⟨ws₁ ++ ws₂, (Mem.apply_append ..).symm, ?_⟩
  rw [hc₂, emit_append]
  exact emit_undrained ws₂ hc₁

/-- What the list positions of OP_SCATTER leave, with the charges as they were. -/
theorem scatterRows_leaves (hs : s.ready) {r : Nat} {xs : List RowAt} {c' : Ctl} {need : List (Nat × Nat × Nat)} {w : List Wr}
    (h : scatterRows j r d xs [] [] s.mem s.ctl s.ctl = .ok (c', need, w)) :
    ({ c' with charges := s.ctl.charges } : Ctl).undrained = (emit c'.wq s.ctl).undrained := by
  obtain ⟨ws, hws⟩ := scatterRows_writes h
  have hcharges : c'.charges = (emit ws s.ctl).charges := Ctl.charges_of_undrained hws
  have hsame : ({ c' with charges := (emit ws s.ctl).charges } : Ctl) = c' := by rw [← hcharges]
  have hwq : c'.wq = ws := by rw [Ctl.wq_of_undrained hws, emit_wq, hs.2, List.nil_append]
  have hwritten : c'.undrained = (emit c'.wq s.ctl).undrained := by
    rw [hwq]
    exact hws
  exact (congrArg Ctl.undrained hsame).trans hwritten

/-- The rows of its pass that the drain writes for slot `q`: those with outputs in it, and for OP_ADAPT_UPDATE all up to row `n`. -/
def slotRows (j : Job) (r : Nat) (d : Drain) (q : DoneSlot) (n : Nat) : List RowAt :=
  (rowsAt r d.pass).filter fun x =>
    if rOp r = 0x4B then decide (d.rows ≤ x.i ∧ x.i < n) else (rowKeys j r x).any q.keys.contains
/-- The tag keys under which it writes them. -/
def slotWants (r : Nat) (q : DoneSlot) (k : Option Nat) : Bool :=
  rOp r == 0x4B || match k with | some k => q.keys.contains k | none => false
/-- The rows that the drain has written once slot `q` is full. -/
def rowsAfter (r : Nat) (d : Drain) (q : DoneSlot) : Nat := if rOp r = 0x4B then max d.rows (q.last + 1) else d.rows

/-- The rows that are left at the drain's end. -/
def rowsLeft (j : Job) (r : Nat) (d : Drain) : List RowAt :=
  (rowsAt r d.pass).filter fun x =>
    if rOp r = 0x4B then decide (d.rows ≤ x.i) else spansOf r x = [] || !(rowKeys j r x).all d.filled.contains
/-- The tag keys that the drain has not filled. -/
def leftWants (d : Drain) (k : Option Nat) : Bool := match k with | some k => !d.filled.contains k | none => true

section
variable {m : Mem} {c : Ctl} {slot : Nat} {second : Bool}

section
variable (h : d.toSave = true ∨ rOp (j.cmds.getD d.idx 0) ≠ 0x49)
include h

theorem not_scatters : ¬(rOp (j.cmds.getD d.idx 0) = 0x49 ∧ (!d.toSave) = true) := by
  rintro ⟨hop, hsave⟩
  obtain h | h := h
  · simp [h] at hsave
  · exact h hop

theorem fillSlot_not_next (hnext : nextSlot j (j.cmds.getD d.idx 0) d slot second = none) : fillSlot m d j slot second c = .ok c := by
  simp only [fillSlot, if_neg (not_scatters h), hnext]

variable {q : DoneSlot} (hnext : nextSlot j (j.cmds.getD d.idx 0) d slot second = some q)
include hnext

theorem fillSlot_next : fillSlot m d j slot second c =
    (writeRows m d j (slotRows j (j.cmds.getD d.idx 0) d q (rowsAfter (j.cmds.getD d.idx 0) d q))
      (slotWants (j.cmds.getD d.idx 0) q) c).map fun x => slotFilled d q (rowsAfter (j.cmds.getD d.idx 0) d q) x.2 x.1 := by
  have hrows (n : Nat) : slotRows j (j.cmds.getD d.idx 0) d q n = (rowsAt (j.cmds.getD d.idx 0) d.pass).filter fun x =>
      if rOp (j.cmds.getD d.idx 0) = 0x4B then decide (d.rows ≤ x.i) && decide (x.i < n)
      else (rowKeys j (j.cmds.getD d.idx 0) x).any q.keys.contains := by simp only [slotRows, Bool.decide_and]
  have hwants : slotWants (j.cmds.getD d.idx 0) q = fun k =>
      rOp (j.cmds.getD d.idx 0) == 0x4B || match k with | some k => q.keys.contains k | none => false := rfl
  simp only [fillSlot, if_neg (not_scatters h), hnext, beq_iff_eq, hrows, hwants, rowsAfter]
  generalize writeRows m d j _ _ c = written
  cases written <;> rfl

end

section
variable (hsave : d.toSave = false) (hop : rOp (j.cmds.getD d.idx 0) = 0x49) {l : List (List (Nat × Nat))}
  (hl : scatterTouch m c j (j.cmds.getD d.idx 0) d = .ok l)
include hsave hop hl

theorem fillSlot_scatter_not_next
    (hnext : pickSlot (scatterSlots j (j.cmds.getD d.idx 0) d.filled l) (scatterHeld l (scatterSlots j (j.cmds.getD d.idx 0) d.filled l))
      (rHandle (j.cmds.getD d.idx 0) (if second then 7 else 6)) slot second = none) :
    fillSlot m d j slot second c = .ok c := by
  simp only [fillSlot, hop, hsave, Bool.not_false, and_self, if_true, fillScatter, hl, hnext]

/-- The list positions up to the last that writes the next slot are written, and it is full. -/
theorem fillSlot_scatter_next {q : DoneSlot}
    (hnext : pickSlot (scatterSlots j (j.cmds.getD d.idx 0) d.filled l) (scatterHeld l (scatterSlots j (j.cmds.getD d.idx 0) d.filled l))
      (rHandle (j.cmds.getD d.idx 0) (if second then 7 else 6)) slot second = some q)
    {c' : Ctl} {need : List (Nat × Nat × Nat)} {w : List Wr}
    (hrows : scatterRows j (j.cmds.getD d.idx 0) d (((rowsAt (j.cmds.getD d.idx 0) 0).take (max d.rows (q.last + 1))).drop d.rows)
      [] [] m c c = .ok (c', need, w)) (hfree : ∀ x ∈ need, x.2 = (0, 0)) :
    fillSlot m d j slot second c = .ok (slotFilled d q (max d.rows (q.last + 1)) w { c' with charges := c.charges }) := by
  simp only [fillSlot, hop, hsave, Bool.not_false, and_self, if_true, fillScatter, hl, hnext, hrows, payFor_of_free j.cls hfree]

end

/-! ### What the drain's end writes (R94, R97, R130) -/

theorem completeDrain_save (hsave : d.toSave = true) {m' : Mem} {c' : Ctl} {w : List Wr}
    (hput : putRuns j (rOp (j.cmds.getD d.idx 0)) (fun _ => true) (saveRuns (j.cmds.getD d.idx 0) d.pass d.vals) false m c =
      .ok (m', c', w)) : completeDrain m d j c = .ok (freeDrain (setAll setFull [] c')) := by
  simp only [completeDrain, hsave, if_true, hput]
  rfl

theorem completeDrain_scatter (hsave : d.toSave = false) (hop : rOp (j.cmds.getD d.idx 0) = 0x49) {c' : Ctl}
    {need : List (Nat × Nat × Nat)} {w : List Wr} {l : List (List (Nat × Nat))}
    (hrows : scatterRows j (j.cmds.getD d.idx 0) d ((rowsAt (j.cmds.getD d.idx 0) 0).drop d.rows) [] [] m c c = .ok (c', need, w))
    (hfree : ∀ x ∈ need, x.2 = (0, 0)) (hl : scatterTouch m c j (j.cmds.getD d.idx 0) d = .ok l) :
    completeDrain m d j c = .ok (freeDrain (setAll setFull ((scatterSlots j (j.cmds.getD d.idx 0) d.filled l).flatMap (·.keys))
      { c' with charges := c.charges })) := by
  simp only [completeDrain, hsave, Bool.false_eq_true, if_false, hop, if_true, hrows, hl, payFor_of_free j.cls hfree]

theorem completeDrain_rows (hsave : d.toSave = false) (hop : rOp (j.cmds.getD d.idx 0) ≠ 0x49) {c₃ : Ctl} {w : List Wr}
    (hrows : writeRows m d j (rowsLeft j (j.cmds.getD d.idx 0) d) (leftWants d) c = .ok (c₃, w)) :
    completeDrain m d j c =
      .ok (freeDrain (setAll setFull ((doneSlots j (j.cmds.getD d.idx 0) d.pass d.filled).flatMap (·.keys)) c₃)) := by
  have hwants : leftWants d = fun k => match k with | some k => !d.filled.contains k | none => true := rfl
  rw [rowsLeft, hwants] at hrows
  simp only [completeDrain, hsave, Bool.false_eq_true, if_false, hop]
  generalize writeRows m d j _ _ c = written at hrows ⊢
  rw [hrows]

end

/-! ### Completion (R131, R139, R153) -/

/-- The slots that a command has read through handle `h` are set empty. -/
def releaseRead (j : Job) (i h : Nat) (c : Ctl) : Ctl :=
  match j.handle? h with
  | some e => setAll setEmpty ((((j.exec.readSlots.filter fun x => x.1 = i && x.2.1 = h).map (·.2.2))).flatMap e.slotKeys) c
  | none => c
/-- The releases that command `i` names. -/
def releaseAll (j : Job) (i : Nat) (c : Ctl) : Ctl :=
  let relA := if rRelA (j.cmd i) then releaseRead j i (rHandle (j.cmd i) 0) c else c
  if rRelAux (j.cmd i) then releaseRead j i (rHandle (j.cmd i) 9) relA else relA
/-- The signal that command `i` names. -/
def signalDone (j : Job) (i : Nat) (c : Ctl) : Ctl :=
  match rSignalDone (j.cmd i), j.handle? (rHandle (j.cmd i) 12) with
  | true, some e => setAll setFull (e.slotKeys 0) c
  | _, _ => c
/-- Command `i` is counted. -/
def countDone (j : Job) (i : Nat) (c : Ctl) : Ctl :=
  let done := count .plnCmdDone j.cls 1 c
  let vector := if opKind (rOp (j.cmd i)) = .vector then count .plnVecCmd j.cls 1 done else done
  if rOp (j.cmd i) = 0x4B then count .plnAdaptStep 0 1 vector else vector
/-- The list goes on behind command `i`. -/
def pastCommand (i : Nat) (e : Exec) : Exec :=
  { e with incomplete := e.incomplete.filter (· ≠ i), readSlots := e.readSlots.filter (·.1 ≠ i)
           pc := if 2 ≤ e.phase ∧ e.pc = i then i + 1 else e.pc, phase := if 2 ≤ e.phase ∧ e.pc = i then 0 else e.phase }

theorem closeCommand_eq (j : Job) (i : Nat) (c : Ctl) :
    closeCommand j i c = onExec j.no (pastCommand i) (countDone j i (signalDone j i (releaseAll j i c))) := rfl

section
variable (j : Job) (i h : Nat) (c : Ctl)

theorem releaseRead_untagged : (releaseRead j i h c).untagged = c.untagged := by
  unfold releaseRead
  split
  · exact setAllEmpty_untagged ..
  · rfl

theorem releaseAll_untagged : (releaseAll j i c).untagged = c.untagged := by
  unfold releaseAll
  dsimp only
  split
  · rw [releaseRead_untagged]
    split
    · exact releaseRead_untagged ..
    · rfl
  · split
    · exact releaseRead_untagged ..
    · rfl

theorem signalDone_untagged : (signalDone j i c).untagged = c.untagged := by
  unfold signalDone
  split
  · exact setAllFull_untagged ..
  · rfl

/-- A release fills no slot. -/
theorem releaseRead_keeps_empty {k : Nat} (hk : c.slotFull k = false) : (releaseRead j i h c).slotFull k = false := by
  unfold releaseRead
  split
  · rw [setAllEmpty_slotFull, hk, Bool.and_false]
  · exact hk

/-- The slots that the command has read through the handle are empty. -/
theorem releaseRead_empties {e : Handle} (he : j.handle? h = some e) {sl : Nat} (hread : (i, h, sl) ∈ j.exec.readSlots) {k : Nat}
    (hk : k ∈ e.slotKeys sl) : (releaseRead j i h c).slotFull k = false := by
  have hmem : k ∈ ((j.exec.readSlots.filter fun x => x.1 = i && x.2.1 = h).map (·.2.2)).flatMap e.slotKeys := by
    refine List.mem_flatMap.mpr ⟨sl, List.mem_map.mpr ⟨(i, h, sl), List.mem_filter.mpr ⟨hread, by simp⟩, rfl⟩, hk⟩
  simp only [releaseRead, he]
  rw [setAllEmpty_slotFull, List.contains_iff_mem.mpr hmem]
  rfl

/-- Each of the two releases empties what the command has read through its handle. -/
theorem releaseAll_empties (hrel : rRelA (j.cmd i) = true ∧ h = rHandle (j.cmd i) 0 ∨ rRelAux (j.cmd i) = true ∧ h = rHandle (j.cmd i) 9)
    {e : Handle} (he : j.handle? h = some e) {sl : Nat} (hread : (i, h, sl) ∈ j.exec.readSlots) {k : Nat} (hk : k ∈ e.slotKeys sl) :
    (releaseAll j i c).slotFull k = false := by
  unfold releaseAll
  dsimp only
  obtain ⟨hrel, rfl⟩ | ⟨hrel, rfl⟩ := hrel
  · have hempty := releaseRead_empties j i (rHandle (j.cmd i) 0) c he hread hk
    rw [if_pos hrel]
    split
    · exact releaseRead_keeps_empty _ _ _ _ hempty
    · exact hempty
  · rw [if_pos hrel]
    exact releaseRead_empties _ _ _ _ he hread hk

theorem signalDone_fills (hsignal : rSignalDone (j.cmd i) = true) {e : Handle} (he : j.handle? (rHandle (j.cmd i) 12) = some e) {k : Nat}
    (hk : k ∈ e.slotKeys 0) : (signalDone j i c).slotFull k = true := by
  simp only [signalDone, hsignal, he]
  rw [setAllFull_slotFull, List.contains_iff_mem.mpr hk]
  rfl

theorem signalDone_of_none (hsignal : rSignalDone (j.cmd i) = false) : signalDone j i c = c := by simp [signalDone, hsignal]

theorem releaseAll_of_none (hrelA : rRelA (j.cmd i) = false) (hrelAux : rRelAux (j.cmd i) = false) : releaseAll j i c = c := by
  simp [releaseAll, hrelA, hrelAux]

theorem countDone_unread : (countDone j i c).unread = c.unread := by
  unfold countDone
  dsimp only
  split <;> split <;> simp

/-- The command is counted once, whatever else is counted of it. -/
theorem countDone_counter : (countDone j i c).counter .plnCmdDone j.cls =
    (countValue Cnt.plnCmdDone.info.2.2 (c.counter .plnCmdDone j.cls) 1).1 := by
  have hdone := count_counter_self (k := .plnCmdDone) rfl j.cls one_ne_zero c
  unfold countDone
  extract_lets done vector
  have hvector : vector.counter .plnCmdDone j.cls = done.counter .plnCmdDone j.cls := by
    unfold vector
    split
    · exact count_counter_ne rfl j.cls (by decide) j.cls one_ne_zero done
    · rfl
  split
  · rw [count_counter_ne rfl j.cls (by decide) 0 one_ne_zero, hvector, hdone]
  · rw [hvector, hdone]

end

/-- What completion does: the tags of its releases and its signal, its count, its list, and streams that start. -/
theorem finishCommand_leaves {c : Ctl} {i : Nat} (hj : c.job? j.no = some j) :
    (finishCommand j i c).wq = c.wq ∧ (finishCommand j i c).slotTags = (signalDone j i (releaseAll j i c)).slotTags ∧
    (finishCommand j i c).counter .plnCmdDone j.cls = (countValue Cnt.plnCmdDone.info.2.2 (c.counter .plnCmdDone j.cls) 1).1 ∧
    ∃ k, (finishCommand j i c).job? j.no = some k ∧ k.exec = pastCommand i j.exec := by
  have hstart : (finishCommand j i c).unstreamed = (closeCommand j i c).unstreamed := startStreams_unstreamed ..
  have htagged : (signalDone j i (releaseAll j i c)).untagged = c.untagged :=
    (signalDone_untagged ..).trans (releaseAll_untagged ..)
  have hcounted := countDone_unread j i (signalDone j i (releaseAll j i c))
  have hjobs : (countDone j i (signalDone j i (releaseAll j i c))).jobs = c.jobs :=
    (Ctl.jobs_of_unread hcounted).trans (Ctl.jobs_of_untagged htagged)
  rw [closeCommand_eq] at hstart
  refine ⟨?_, ?_, ?_, ?_⟩
  · rw [Ctl.wq_of_unstreamed hstart, onExec_wq, Ctl.wq_of_unread hcounted, Ctl.wq_of_untagged htagged]
  · rw [Ctl.slotTags_of_unstreamed hstart, onExec_slotTags, Ctl.slotTags_of_unread hcounted]
  · rw [Ctl.counter_of_counters (Ctl.counters_of_unstreamed hstart), ← Ctl.counter_of_counters (Ctl.counters_of_untagged htagged),
      ← countDone_counter]
    rfl
  · obtain ⟨k, hk, hsame⟩ := Ctl.job?_of_unstreamed hstart (onExec_job? ((Ctl.job?_of_jobs hjobs j.no).trans hj) (pastCommand i))
    exact ⟨k, hk, (congrArg Job.exec hsame : k.unstreamed.exec = _)⟩

theorem exec_commandComplete_of_may (hs : s.ready) {index : Nat}
    (hfind : (s.ctl.holding.toList ++ s.ctl.jobs).find? (mayComplete s.ctl index) = some j) (hj : s.ctl.job? j.no = some j) :
    completes (.commandComplete index) s fun t => sameMem s t ∧ counted .plnCmdDone j.cls 1 s t ∧
      (withJob t j.no fun k => k.exec = pastCommand index j.exec) ∧
      t.ctl.slotTags = (signalDone j index (releaseAll j index s.ctl)).slotTags := by
  have hdone : complete index s.mem s.ctl = finishCommand j index s.ctl := by simp only [complete, hfind]
  obtain ⟨hwq, htags, hcounter, k, hk, he⟩ := finishCommand_leaves (i := index) hj
  rw [← hdone] at hwq htags hcounter hk
  exact ⟨s.run (complete index), rfl, sameMem_of_run (hwq.trans hs.2), counted_of_run rfl hcounter, withJob_run hk he,
    State.run_slotTags.trans htags⟩

/-- Its list goes on behind a command that stands at the list's place only when its passes are done. -/
theorem pastCommand_of_may {c : Ctl} {index : Nat} (hmay : mayComplete c index j = true) :
    (j.exec.pc ≠ index → (pastCommand index j.exec).pc = j.exec.pc ∧ (pastCommand index j.exec).phase = j.exec.phase) ∧
    (j.exec.pc = index → (pastCommand index j.exec).pc = index + 1 ∧ (pastCommand index j.exec).phase = 0) := by
  have hpasses : j.exec.pc ≠ index ∨ 2 ≤ j.exec.phase := by
    simp only [mayComplete, Bool.and_eq_true, Bool.or_eq_true, bne_iff_ne, decide_eq_true_eq] at hmay
    exact hmay.1.1.2
  refine ⟨fun hne => ?_, fun heq => ?_⟩
  · simp [pastCommand, hne]
  · have hphase := hpasses.resolve_left (not_not.mpr heq)
    simp [pastCommand, heq, hphase]

/-! ### The statement -/

/-- Settles O41: each clause by the lemma on its attempt of the drain, or on the completion of a command. -/
theorem drainsAndCompletion : Obligations.DrainsAndCompletion := by
  intro s hs c
  refine ⟨fun d j hd hj hcopy => ?_, fun index hnone => ?_, fun index j hfind hj => ?_⟩
  · intro r granted
    refine ⟨fun he t₀ slot second i hi => ?_, fun htable => ⟨fun slot second => ?_, fun hcut => ?_⟩⟩
    · obtain rfl | rfl := List.mem_pair.mp hi
      · exact exec_drain_parity rfl hd hj hcopy he
      · exact exec_drain_parity rfl hd hj hcopy he
    · intro nothing filled
      refine ⟨fun hrows => ⟨fun hnext => ?_, fun q hnext => ?_⟩, fun hsave hop l hl => ?_⟩
      · exact exec_drainSlotFull_not_next hs hd hj hcopy htable (fillSlot_not_next hrows hnext)
      · intro n rows want qs hgranted
        have hfill : fillSlot s.mem d j slot second s.ctl = _ := fillSlot_next hrows hnext
        refine ⟨fun m₁ c₁ w₁ m₂ c₂ w₂ h₁ h₂ => ?_, fun on hfull => ?_⟩
        · obtain ⟨ws, rfl, hc₂⟩ := putRuns_both h₁ h₂
          obtain ⟨c₃, hwritten, hc₃⟩ := writeRows_granted (xs := slotRows j r d q n) (want := slotWants r q) hgranted h₁ h₂
          exact exec_drainSlotFull_fills hs hd hj hcopy htable (hfill.trans (congrArg _ hwritten)) (hc₃.trans hc₂)
        · have hwaits := writeRows_waits (xs := slotRows j r d q n) (want := slotWants r q) hgranted hfull
          exact exec_drainSlotFull_waits hs hd hj hcopy htable (hfill.trans (congrArg _ hwaits))
      · intro next
        refine ⟨fun hnext => ?_, fun q hnext => ?_⟩
        · exact exec_drainSlotFull_not_next hs hd hj hcopy htable (fillSlot_scatter_not_next hsave hop hl hnext)
        · intro n c' need w hrows hfree
          exact exec_drainSlotFull_fills hs hd hj hcopy htable (fillSlot_scatter_next hsave hop hl hnext hrows hfree)
            (scatterRows_leaves hs hrows)
    · intro freed
      refine ⟨fun hsave m' c' w hput => ?_, fun hsave hop c' need w l hrows hfree hl => ?_, fun hsave hop => ?_⟩
      · obtain ⟨ws, rfl, hc'⟩ := putRuns_writes hput
        obtain ⟨t, hrun, hfreed, hmem, -, htags⟩ :=
          exec_drainComplete_ends hs hd hj hcopy htable hcut (completeDrain_save hsave hput) hc'
        exact ⟨t, hrun, hfreed, hmem, htags rfl⟩
      · obtain ⟨t, hrun, hfreed, hmem, hfull, -⟩ := exec_drainComplete_ends hs hd hj hcopy htable hcut
          (completeDrain_scatter hsave hop hrows hfree hl) (scatterRows_leaves hs hrows)
        exact ⟨t, hrun, hfreed, hmem, hfull⟩
      · intro rows want qs hgranted m₁ c₁ w₁ m₂ c₂ w₂ h₁ h₂
        obtain ⟨ws, rfl, hc₂⟩ := putRuns_both h₁ h₂
        obtain ⟨c₃, hwritten, hc₃⟩ := writeRows_granted (xs := rowsLeft j r d) (want := leftWants d) hgranted h₁ h₂
        obtain ⟨t, hrun, hfreed, hmem, hfull, -⟩ := exec_drainComplete_ends hs hd hj hcopy htable hcut
          (completeDrain_rows hsave hop hwritten) (hc₃.trans hc₂)
        exact ⟨t, hrun, hfreed, hmem, hfull⟩
  · have hstays : complete index s.mem s.ctl = s.ctl := by
      have hnone : (s.ctl.holding.toList ++ s.ctl.jobs).find? (mayComplete s.ctl index) = none := hnone
      simp only [complete, hnone]
    exact exec_eq_self (f := complete index) hs rfl hstays
  · obtain ⟨t, hrun, hmem, hcount, ⟨k, hk, he⟩, htags⟩ := exec_commandComplete_of_may hs hfind hj
    obtain ⟨hbehind, hat⟩ := pastCommand_of_may (List.find?_some hfind)
    have hslot := Ctl.slotFull_of_slotTags htags
    intro r
    refine ⟨t, hrun, hmem, hcount, ⟨k, hk, by rw [he]; rfl, by rw [he]; rfl, by rw [he]; exact hbehind, by rw [he]; exact hat⟩,
      fun e hsignal hhandle k hk => ?_, fun e h sl hsignal hrel hhandle hread k hk => ?_, fun hsignal hrelA hrelAux => ?_⟩
    · rw [hslot]
      exact signalDone_fills j index _ hsignal hhandle hk
    · rw [hslot, signalDone_of_none j index _ hsignal]
      exact releaseAll_empties j index h s.ctl hrel hhandle hread hk
    · rw [htags, signalDone_of_none j index _ hsignal, releaseAll_of_none j index _ hrelA hrelAux]

end Sys2Proof.Machine
end

section
/-! SUPPORT. Commands of a list that begin: the streams that start with them, the place of the list, and what a control command leaves
when it is complete (04 R117, R131 to R135, R138). -/

namespace Sys2Proof.Machine

/-! ### What starts with a command -/

/-- The control state without what the streams that start with a command, its counts and its packets leave in it. -/
def Ctl.unstarted (c : Ctl) : Ctl := c.quiet.unstreamed

theorem Ctl.unstarted_of_unstreamed {a b : Ctl} (h : a.unstreamed = b.unstreamed) : a.unstarted = b.unstarted :=
  (congrArg Ctl.quiet h : a.unstreamed.quiet = b.unstreamed.quiet)

theorem Ctl.unstarted_of_quiet {a b : Ctl} (h : a.quiet = b.quiet) : a.unstarted = b.unstarted := by
  rw [unstarted, h, unstarted]

theorem Ctl.plane_of_unstarted {a b : Ctl} (h : a.unstarted = b.unstarted) : a.plane = b.plane :=
  (congrArg Ctl.plane h : a.unstarted.plane = b.unstarted.plane)

@[simp] theorem count_unstarted (k : Cnt) (i n : Nat) (c : Ctl) : (count k i n c).unstarted = c.unstarted :=
  Ctl.unstarted_of_quiet (count_quiet k i n c)

@[simp] theorem startAhead_unstarted (j : Job) (n : Option Nat) (c : Ctl) : (startAhead j n c).unstarted = c.unstarted :=
  Ctl.unstarted_of_unstreamed (startStreams_unstreamed ..)

/-- The place of a list whose record `i`, which is `r`, is begun. -/
def openedExec (r i phase : Nat) (e : Exec) : Exec :=
  { e with pc := i, phase := phase, pass := 0, step := 0, grp := 0, sums := [], saved := [], savedState := 0, blocks := [], band := []
           table := [], stopped := false, incomplete := e.incomplete ++ [i]
           writers := (rWrites r).foldl (fun l h => SMap.insert l h i) e.writers }

/-- From `a` to `b` command `i` of the list of `j` has begun: tags, time and results are as they were. -/
structure Ctl.Begun (j : Job) (i phase : Nat) (a b : Ctl) : Prop where
  wq : b.wq = a.wq
  slotTags : b.slotTags = a.slotTags
  clk : b.clk = a.clk
  replies : b.proto.replies = a.proto.replies
  job : ∃ k, b.job? j.no = some k ∧ k.unstreamed = Job.unstreamed { j with exec := openedExec (j.cmd i) i phase j.exec }

theorem Ctl.Begun.of_unstarted {j : Job} {i phase : Nat} {a b d : Ctl} (h : a.Begun j i phase b) (hd : d.unstarted = b.unstarted) :
    a.Begun j i phase d := by
  obtain ⟨k, hk, hsame⟩ := h.job
  obtain ⟨k', hk', hsame'⟩ := Ctl.job?_of_unstreamed hd (j := k) hk
  exact ⟨(Ctl.wq_of_unstreamed hd).trans h.wq, (Ctl.slotTags_of_unstreamed hd).trans h.slotTags,
    (congrArg Ctl.clk hd : d.unstarted.clk = b.unstarted.clk).trans h.clk,
    (congrArg (·.proto.replies) hd : d.unstarted.proto.replies = b.unstarted.proto.replies).trans h.replies,
    k', hk', hsame'.trans hsame⟩

theorem Ctl.Begun.withPlane {j : Job} {i phase : Nat} {a b : Ctl} (h : a.Begun j i phase b) (f : Plane → Plane) :
    a.Begun j i phase (b.withPlane f) := ⟨h.wq, h.slotTags, h.clk, h.replies, h.job⟩

/-- The list stands at the command, and its job is the same but for its streams. -/
theorem Ctl.Begun.exec {j : Job} {i phase : Nat} {a b : Ctl} (h : a.Begun j i phase b) :
    ∃ k, b.job? j.no = some k ∧ k.exec = openedExec (j.cmd i) i phase j.exec ∧ k.running = j.running ∧ k.cmds = j.cmds := by
  obtain ⟨k, hk, hsame⟩ := h.job
  exact ⟨k, hk, (congrArg Job.exec hsame : k.unstreamed.exec = _), (congrArg Job.running hsame : k.unstreamed.running = _),
    (congrArg Job.cmds hsame : k.unstreamed.cmds = _)⟩

/-- The list of `j` stands at command `i`. -/
def placedAt (j : Job) (i phase : Nat) (c : Ctl) : Ctl :=
  (onExec j.no (openedExec (j.cmd i) i phase) c).withPlane fun p => { p with atPassEnd := false }

/-- Opening a command moves its list there and starts its streams. -/
theorem opened_unstreamed (j : Job) (i phase : Nat) (c : Ctl) : (opened j i phase c).unstreamed = (placedAt j i phase c).unstreamed :=
  startStreams_unstreamed ..

theorem beginArray_unstarted (j : Job) (i : Nat) (m : Mem) (c : Ctl) : (beginArray j i m c).unstarted = (opened j i 1 c).unstarted := by
  unfold beginArray
  extract_lets r ahead slow
  have hslow : slow.unstarted = (opened j i 1 c).unstarted := by
    unfold slow
    split
    · rw [count_unstarted, startAhead_unstarted]
    · exact startAhead_unstarted ..
  split
  · rw [count_unstarted, hslow]
  · exact hslow

section
variable {a c : Ctl} {j : Job} (hc : c.unstreamed = a.unstreamed) (i : Nat)
include hc

theorem opened_plane (phase : Nat) : (opened j i phase c).plane = { a.plane with atPassEnd := false } := by
  rw [Ctl.plane_of_unstreamed (opened_unstreamed ..), placedAt, Ctl.withPlane_plane, onExec_plane, Ctl.plane_of_unstreamed hc]

theorem opened_begun (hj : a.job? j.no = some j) (phase : Nat) : a.Begun j i phase (opened j i phase c) := by
  obtain ⟨k, hk, hsame⟩ := Ctl.job?_of_unstreamed hc hj
  have hplaced : (placedAt j i phase c).job? j.no = _ := onExec_job? hk (openedExec (j.cmd i) i phase)
  have hexec : k.exec = j.exec := (congrArg Job.exec hsame : k.unstreamed.exec = j.unstreamed.exec)
  have hbegun : a.Begun j i phase (placedAt j i phase c) := by
    refine ⟨?_, ?_, ?_, ?_, _, hplaced, ?_⟩
    · exact (Ctl.wq_of_unstreamed hc : c.wq = a.wq)
    · exact (Ctl.slotTags_of_unstreamed hc : c.slotTags = a.slotTags)
    · exact (congrArg Ctl.clk hc : c.unstreamed.clk = a.unstreamed.clk)
    · exact (congrArg (·.proto.replies) hc : c.unstreamed.proto.replies = a.unstreamed.proto.replies)
    · rw [hexec]
      exact congrArg (fun x : Job => { x with exec := openedExec (j.cmd i) i phase j.exec }) hsame
  exact hbegun.of_unstarted (Ctl.unstarted_of_unstreamed (opened_unstreamed ..))
end

/-! ### Where a command may begin -/

theorem beginOp_of_not {c : Ctl} {j : Job} {op : Nat} (hh : c.holding = some j) (hmay : mayBegin c j op = false)
    (f : Job → Nat → Mem → Ctl → Ctl) (m : Mem) : beginOp op f m c = c := by
  simp [beginOp, hh, hmay]

/-- A command that may begin does, behind the streams that start at the start of the run. -/
theorem beginOp_of_may {c : Ctl} {j : Job} {op : Nat} (hh : c.holding = some j) (hmay : mayBegin c j op = true)
    (f : Job → Nat → Mem → Ctl → Ctl) (m : Mem) : ∃ c', beginOp op f m c = f j j.next m c' ∧ c'.unstreamed = c.unstreamed := by
  refine ⟨if j.next = 0 then startAhead j none c else c, by simp [beginOp, hh, hmay], ?_⟩
  split
  · exact startStreams_unstreamed ..
  · rfl

/-! ### Array and vector-only commands (R135, R142) -/

/-- What a compute command runs, by its opcode. -/
theorem exec_computeCommand {p : Nat × Instr} (hp : p ∈ computeCommands) (s : State) :
    exec p.2 s = .next (s.run (beginOp p.1 (if p.1 < 0x40 then beginArray else beginVector))) := by
  simp only [computeCommands, List.mem_cons, List.not_mem_nil, or_false] at hp
  rcases hp with rfl | rfl | rfl | rfl | rfl | rfl | rfl | rfl | rfl | rfl | rfl | rfl | rfl | rfl | rfl | rfl <;> rfl

/-- The drain of the vector units that a vector-only command begins. -/
def vectorDrain (j : Job) (i : Nat) : Drain :=
  { job := j.no, idx := i, pass := 0, vals := [], toSave := false, table := [], paid := [], filled := [], rows := 0, undo := [] }

theorem beginVector_eq (j : Job) (i : Nat) (m : Mem) (c : Ctl) :
    beginVector j i m c = (opened j i 2 c).withPlane fun p => { p with drain := some (vectorDrain j i) } := rfl

/-- A command whose effect begins a compute command: the memories and tags are as they were, and the list stands at its start. -/
theorem completes_of_begun {instr : Instr} {f : Mem → Ctl → Ctl} {s : State} (hs : s.ready) (hi : exec instr s = .next (s.run f))
    {j : Job} {i phase : Nat} (h : s.ctl.Begun j i phase (f s.mem s.ctl)) :
    completes instr s fun t => sameMem s t ∧ t.ctl.slotTags = s.ctl.slotTags ∧
      (withJob t j.no fun k => k.exec = openedExec (j.cmd i) i phase j.exec ∧ k.running = j.running ∧ k.cmds = j.cmds) ∧
      t.ctl.plane = (f s.mem s.ctl).plane := by
  obtain ⟨k, hk, hplace⟩ := h.exec
  exact ⟨s.run f, hi, sameMem_of_run (h.wq.trans hs.2), State.run_slotTags.trans h.slotTags, withJob_run hk hplace, State.run_plane⟩

/-- Settles O39: a compute command begins by opening its record, at phase 1 in the array and as a drain of its own in the vector
units. -/
theorem computeCommandsBegin : Obligations.ComputeCommandsBegin := by
  intro p hp s j hs hh c i
  have hi := exec_computeCommand hp s
  refine ⟨fun hmay => exec_eq_self hs hi (beginOp_of_not hh hmay _ _), fun hmay => ?_⟩
  obtain ⟨-, hj, -, -⟩ := Ctl.holding_eq_some.mp hh
  obtain ⟨c', hrun, hc'⟩ := beginOp_of_may hh hmay (if p.1 < 0x40 then beginArray else beginVector) s.mem
  by_cases harray : p.1 < 0x40
  · have hbegun : c.Begun j i 1 (beginOp p.1 (if p.1 < 0x40 then beginArray else beginVector) s.mem c) := by
      rw [hrun, if_pos harray]
      exact (opened_begun hc' i hj 1).of_unstarted (beginArray_unstarted ..)
    obtain ⟨t, ht, hmem, htags, ⟨k, hk, hexec, hrunning, hcmds⟩, hplane⟩ := completes_of_begun hs hi hbegun
    rw [hrun, if_pos harray, Ctl.plane_of_unstarted (beginArray_unstarted ..), opened_plane hc' i 1] at hplane
    refine ⟨t, ht, hmem, htags, ⟨k, hk, ?_⟩, fun _ => hplane, fun hvector => absurd harray (by omega)⟩
    simp [hexec, hrunning, hcmds, harray, openedExec]
  · have hbegun : c.Begun j i 2 (beginOp p.1 (if p.1 < 0x40 then beginArray else beginVector) s.mem c) := by
      rw [hrun, if_neg harray]
      exact (opened_begun hc' i hj 2).withPlane _
    obtain ⟨t, ht, hmem, htags, ⟨k, hk, hexec, hrunning, hcmds⟩, hplane⟩ := completes_of_begun hs hi hbegun
    rw [hrun, if_neg harray, beginVector_eq, Ctl.withPlane_plane, opened_plane hc' i 2] at hplane
    refine ⟨t, ht, hmem, htags, ⟨k, hk, ?_⟩, fun h => absurd h harray, fun _ => hplane⟩
    simp [hexec, hrunning, hcmds, harray, openedExec]

end Sys2Proof.Machine
end

section
/-! SUPPORT. Control commands: what one leaves when its effect has been had, the packets that members are told with, and the end of a
run (04 R117, R132 to R134, R148; 08 R256; 13 R409). -/

namespace Sys2Proof.Machine

/-! ### What members are told (14 R442, R443) -/

/-- The control state without the ports of the group. -/
def Ctl.unported (c : Ctl) : Ctl := { c with group := { c.group with ports := [] } }

@[simp] theorem pushPacket_unported (port type : Nat) (pk : XwPacket) (c : Ctl) : (pushPacket port type pk c).unported = c.unported := by
  unfold pushPacket
  dsimp only
  split <;> rfl

@[simp] theorem tellMembers_unported (type : Nat) (j : Job) (words : List XwWord) (c : Ctl) :
    (tellMembers type j words c).unported = c.unported :=
  foldl_keeps Ctl.unported (fun c k => by split <;> simp) _ c

theorem runEpoch_of_unported {a b : Ctl} (h : a.unported = b.unported) (j : Job) : runEpoch a j = runEpoch b j := by
  have hgroup : a.group.epoch = b.group.epoch := (congrArg (·.group.epoch) h : a.unported.group.epoch = b.unported.group.epoch)
  have hproto : a.proto.epoch = b.proto.epoch := (congrArg (·.proto.epoch) h : a.unported.proto.epoch = b.unported.proto.epoch)
  rw [runEpoch, hgroup, hproto, runEpoch]

/-! ### The end of a run (R407, R409) -/

theorem Ctl.job?_of_unported {a b : Ctl} (h : a.unported = b.unported) (no : Nat) : a.job? no = b.job? no :=
  Ctl.job?_of_jobs (congrArg Ctl.jobs h : a.unported.jobs = b.unported.jobs) no

theorem promoted_of_unported {a b : Ctl} (h : a.unported = b.unported) (j : Job) : promoted a j = promoted b j := by
  have hclk : a.clk = b.clk := (congrArg Ctl.clk h : a.unported.clk = b.unported.clk)
  rw [promoted, runEpoch_of_unported h, hclk, promoted]

theorem Ctl.job?_setJob {c : Ctl} {j k : Job} (h : c.job? k.no = some j) : (c.setJob k).job? k.no = some k := by
  have hno (x : Job) : (if x.no = k.no then k else x).no = x.no := by
    split
    · next hx => exact hx.symm
    · rfl
  rw [job?, setJob_jobs, List.find?_map]
  simp only [Function.comp_def, hno]
  rw [job?] at h
  rw [h, Option.map_some, if_pos (by simpa using List.find?_some h)]

/-- A run that ends where no end of its job is due: the run that waits goes on, and the list stands at its start. -/
theorem runEnded_goesOn (m : Mem) {c : Ctl} {j : Job} (hj : c.job? j.no = some j) (hmode : j.mode ≠ 0) (hreq : j.endReq = none)
    (hend : j.endAtRun = 0) : (runEnded m j.no c).wq = c.wq ∧ (runEnded m j.no c).slotTags = c.slotTags ∧
      (runEnded m j.no c).plane = c.plane ∧ ∃ k, (runEnded m j.no c).job? j.no = some k ∧ k.running = promoted c j ∧ k.waiting = none ∧
        k.exec = j.exec.afresh ∧ k.lastStatus = 0 ∧ k.ended = j.ended := by
  unfold runEnded
  simp -zeta only [hj]
  extract_lets noted told
  rw [if_neg hmode, if_neg (by simp [hreq]), if_neg (by simp [hend])]
  have htold : told.unported = noted.unported := by
    unfold told
    split
    · split
      · exact tellMembers_unported ..
      · rfl
    · rfl
  have hk : told.job? j.no = some _ := (Ctl.job?_of_unported htold _).trans (Ctl.job?_setJob hj)
  refine ⟨?_, ?_, ?_, _, Ctl.job?_mapJob_self hk fun _ => rfl, ?_⟩
  · exact (congrArg Ctl.wq htold : told.unported.wq = noted.unported.wq)
  · exact (congrArg Ctl.slotTags htold : told.unported.slotTags = noted.unported.slotTags)
  · exact (congrArg Ctl.plane htold : told.unported.plane = noted.unported.plane)
  · exact ⟨promoted_of_unported htold _, rfl, rfl, rfl, rfl⟩

/-- A run of MODE 0 that ends takes its job with it. -/
theorem runEnded_ends (m : Mem) {c : Ctl} {j : Job} (hj : c.job? j.no = some j) (he : j.ended = false) (hmode : j.mode = 0)
    (hholder : c.plane.holder = none) : (runEnded m j.no c).allOver j.no ∧ (runEnded m j.no c).plane.holder = none := by
  unfold runEnded
  simp -zeta only [hj, if_pos hmode]
  extract_lets noted
  have hnoted : noted.job? j.no = some _ := Ctl.job?_setJob hj
  exact ⟨(endJobWith_endsJob [] m .ok 4 j.exec.pc _ hnoted he).allOver, (endJob_retreats m j.no .ok 4 j.exec.pc _ noted).1 hholder⟩

/-! ### A control command is complete (R131, R133) -/

theorem streamsDone_run (f : Mem → Ctl → Ctl) (s : State) (j : Job) (i : Nat) :
    streamsDone (s.run f).ctl j i = streamsDone (f s.mem s.ctl) j i := by
  have hxfers := Ctl.xfers_of_quiet (reportOverflows_quiet s.ctl 4 (f s.mem s.ctl))
  have hrun : (s.run f).ctl.xfers = (f s.mem s.ctl).xfers := hxfers
  simp only [streamsDone, Ctl.streamOpen, State.run_ctxs, hrun]

theorem State.run_replies (f : Mem → Ctl → Ctl) (s : State) : (s.run f).ctl.proto.replies = (f s.mem s.ctl).proto.replies := by
  have hreplies := Ctl.proto_replies_of_quiet (reportOverflows_quiet s.ctl 4 (f s.mem s.ctl))
  exact hreplies

/-- Completion leaves the Plane and the results that wait. -/
theorem finishCommand_frame (j : Job) (i : Nat) (c : Ctl) :
    (finishCommand j i c).plane = c.plane ∧ (finishCommand j i c).proto.replies = c.proto.replies := by
  have hstart : (finishCommand j i c).unstreamed = (closeCommand j i c).unstreamed := startStreams_unstreamed ..
  have hcounted := countDone_unread j i (signalDone j i (releaseAll j i c))
  have htagged : (signalDone j i (releaseAll j i c)).untagged = c.untagged := (signalDone_untagged ..).trans (releaseAll_untagged ..)
  constructor
  · rw [Ctl.plane_of_unstreamed hstart, closeCommand_eq, onExec_plane, Ctl.plane_of_unread hcounted, Ctl.plane_of_untagged htagged]
  · calc (finishCommand j i c).proto.replies
        = (closeCommand j i c).proto.replies := congrArg (·.proto.replies) hstart
      _ = (signalDone j i (releaseAll j i c)).proto.replies := congrArg (·.proto.replies) hcounted
      _ = c.proto.replies := congrArg (·.proto.replies) htagged

/-- A control command releases and signals nothing: only its own effect reaches the tags. -/
def plainRecord (r : Nat) : Prop := rRelA r = false ∧ rRelAux r = false ∧ rSignalDone r = false

theorem finishCommand_slotTags {j : Job} {i : Nat} (hr : plainRecord (j.cmd i)) {c : Ctl} (hj : c.job? j.no = some j) :
    (finishCommand j i c).slotTags = c.slotTags := by
  obtain ⟨hrelA, hrelAux, hsignal⟩ := hr
  rw [(finishCommand_leaves (i := i) hj).2.1, signalDone_of_none _ _ _ hsignal, releaseAll_of_none _ _ _ hrelA hrelAux]

/-- The place of a list that has gone past control command `i`, or that keeps it open for its streams. -/
def Ctl.pastOrOpen (c : Ctl) (k : Job) (i : Nat) : Prop :=
  (k.exec.pc = i + 1 ∧ k.exec.phase = 0 ∧ k.exec.incomplete = []) ∨
    (k.exec.pc = i ∧ k.exec.phase = 2 ∧ k.exec.incomplete = [i] ∧ streamsDone c k i = false)

/-- The end of a control command: it completes at once, unless streams are tied to it (R133). -/
def endControl (k : Job) (i : Nat) (c : Ctl) : Ctl := if streamsDone c k i then finishCommand k i c else c

theorem endControl_leaves {c : Ctl} {no i : Nat} {k : Job} (hk : c.job? no = some k) (hr : plainRecord (k.cmd i)) (hpc : k.exec.pc = i)
    (hphase : k.exec.phase = 2) (hinc : k.exec.incomplete = [i]) :
    (endControl k i c).wq = c.wq ∧ (endControl k i c).slotTags = c.slotTags ∧ (endControl k i c).plane = c.plane ∧
    (endControl k i c).proto.replies = c.proto.replies ∧
    ∃ x, (endControl k i c).job? no = some x ∧ (endControl k i c).pastOrOpen x i := by
  obtain rfl := Ctl.no_of_job? hk
  unfold endControl
  split
  · obtain ⟨hwq, -, -, x, hx, hexec⟩ := finishCommand_leaves (i := i) hk
    obtain ⟨hplane, hreplies⟩ := finishCommand_frame k i c
    refine ⟨hwq, finishCommand_slotTags hr hk, hplane, hreplies, x, hx, .inl ?_⟩
    simp [hexec, pastCommand, hpc, hphase, hinc]
  · next hopen => exact ⟨rfl, rfl, rfl, rfl, k, hk, .inr ⟨hpc, hphase, hinc, by simpa using hopen⟩⟩

section
variable {s : State} {j : Job} {op : Nat} {instr : Instr} {f effect : Job → Nat → Mem → Ctl → Ctl} (hs : s.ready)
  (hh : s.ctl.holding = some j) (hmay : mayBegin s.ctl j op = true) (hi : exec instr s = .next (s.run (beginOp op f)))
include hs hh hmay hi

/-- A control command has its effect on a state in which it has begun, and its list goes past it or waits for its streams. -/
theorem exec_control (hinc : j.exec.incomplete = []) (hr : plainRecord (j.cmd j.next))
    (hf : ∀ c, c.unstreamed = s.ctl.unstreamed → f j j.next s.mem c = control effect j j.next s.mem c)
    (heffect : ∀ c, (effect j j.next s.mem c).jobs = c.jobs ∧ (effect j j.next s.mem c).wq = c.wq) :
    ∃ c, s.ctl.Begun j j.next 2 c ∧ c.plane = { s.ctl.plane with atPassEnd := false } ∧ completes instr s fun t =>
      sameMem s t ∧ pastControl t j.no j.next ∧ t.ctl.slotTags = (effect j j.next s.mem c).slotTags ∧
        t.ctl.proto.replies = (effect j j.next s.mem c).proto.replies ∧ t.ctl.plane = (effect j j.next s.mem c).plane := by
  obtain ⟨-, hj, -, -⟩ := Ctl.holding_eq_some.mp hh
  obtain ⟨c', hrun, hc'⟩ := beginOp_of_may hh hmay f s.mem
  rw [hf c' hc'] at hrun
  have hbegun := opened_begun hc' j.next hj 2
  obtain ⟨k, hk, hexec, -, hcmds⟩ := hbegun.exec
  obtain ⟨hjobs, hwq⟩ := heffect (opened j j.next 2 c')
  have hk' : (effect j j.next s.mem (opened j j.next 2 c')).job? j.no = some k := (Ctl.job?_of_jobs hjobs _).trans hk
  have hended : beginOp op f s.mem s.ctl = endControl k j.next (effect j j.next s.mem (opened j j.next 2 c')) := by
    simp only [hrun, control, hk', endControl]
  have hplace : k.exec.pc = j.next ∧ k.exec.phase = 2 ∧ k.exec.incomplete = [j.next] := by simp [hexec, openedExec, hinc]
  obtain ⟨hpc, hphase, hopen⟩ := hplace
  obtain ⟨hwq', htags, hplane, hreplies, x, hx, hpast⟩ :=
    endControl_leaves hk' (by rwa [Job.cmd, hcmds]) hpc hphase hopen
  rw [← hended] at hwq' htags hplane hreplies hx hpast
  refine ⟨_, hbegun, opened_plane hc' _ 2, s.run (beginOp op f), hi, sameMem_of_run ?_, withJob_run hx ?_, ?_, ?_, ?_⟩
  · rw [hwq', hwq, hbegun.wq, hs.2]
  · rwa [streamsDone_run]
  · exact State.run_slotTags.trans htags
  · exact (State.run_replies ..).trans hreplies
  · exact State.run_plane.trans hplane
end

/-! ### OP_WAIT_FULL and OP_END -/

/-- No command begins while an OP_WAIT_FULL waits. -/
theorem waitFull_of_mayBegin {c : Ctl} {j : Job} {op : Nat} (hmay : mayBegin c j op = true) : c.plane.waitFull = none := by
  simp only [mayBegin, Bool.and_eq_true, Option.isNone_iff_eq_none] at hmay
  tauto

theorem handleFull_of_unstreamed {a b : Ctl} (h : a.unstreamed = b.unstreamed) (e : Handle) (sl : Nat) :
    a.handleFull e sl = b.handleFull e sl := by
  have hslots : a.slotFull = b.slotFull := funext (Ctl.slotFull_of_slotTags (Ctl.slotTags_of_unstreamed h))
  rw [Ctl.handleFull, hslots, Ctl.handleFull]

theorem Ctl.us_of_unstreamed {a b : Ctl} (h : a.unstreamed = b.unstreamed) : a.us = b.us := by
  have hclk : a.clk = b.clk := (congrArg Ctl.clk h : a.unstreamed.clk = b.unstreamed.clk)
  rw [Ctl.us, hclk, Ctl.us]

/-- OP_WAIT_FULL of a slot that is full does nothing else. -/
theorem waitFull_of_full {j : Job} {i : Nat} {e : Handle} (he : j.handle? (bits (rWord1 (j.cmd i)) 7 0) = some e) (m : Mem) {c : Ctl}
    (hfull : c.handleFull e (bits (rWord1 (j.cmd i)) 47 16) = true) : waitFull j i m c = control (fun _ _ _ c => c) j i m c := by
  simp only [waitFull, he, hfull, if_true]

/-- OP_WAIT_FULL of a slot that is not stays open, and the Plane waits. -/
theorem waitFull_of_not_full {j : Job} {i : Nat} {e : Handle} (he : j.handle? (bits (rWord1 (j.cmd i)) 7 0) = some e) (m : Mem) {c : Ctl}
    (hfull : c.handleFull e (bits (rWord1 (j.cmd i)) 47 16) = false) :
    waitFull j i m c = (opened j i 1 c).withPlane fun p => { p with waitFull := some c.us } := by
  simp only [waitFull, he, hfull, Bool.false_eq_true, if_false]

section
variable {s : State} {j : Job} (hs : s.ready) (hh : s.ctl.holding = some j)
include hs hh

/-- OP_WAIT_FULL stays open, and the Plane waits, where a part of its slot is empty (R133). -/
theorem exec_opWaitFull_waits (hmay : mayBegin s.ctl j 0x02 = true) {e : Handle}
    (he : j.handle? (bits (rWord1 (j.cmd j.next)) 7 0) = some e)
    (hfull : s.ctl.handleFull e (bits (rWord1 (j.cmd j.next)) 47 16) = false) :
    completes .opWaitFull s fun t => sameMem s t ∧ t.ctl.slotTags = s.ctl.slotTags ∧ t.ctl.plane.waitFull = some s.ctl.us ∧
      withJob t j.no fun k => k.exec = openedExec (j.cmd j.next) j.next 1 j.exec := by
  obtain ⟨-, hj, -, -⟩ := Ctl.holding_eq_some.mp hh
  obtain ⟨c, hrun, hc⟩ := beginOp_of_may hh hmay waitFull s.mem
  have hwait := waitFull_of_not_full he s.mem ((handleFull_of_unstreamed hc ..).trans hfull)
  have hbegun : s.ctl.Begun j j.next 1 (beginOp 0x02 waitFull s.mem s.ctl) := by
    rw [hrun, hwait]
    exact (opened_begun hc j.next hj 1).withPlane _
  obtain ⟨t, ht, hmem, htags, ⟨k, hk, hexec, -, -⟩, hplane⟩ := completes_of_begun hs (instr := .opWaitFull) rfl hbegun
  refine ⟨t, ht, hmem, htags, ?_, k, hk, hexec⟩
  rw [hplane, hrun, hwait, Ctl.withPlane_plane, Ctl.us_of_unstreamed hc]

end

/-- What OP_END ends its run from: its list at its record, off the Plane. -/
def endingAt (j : Job) (i : Nat) (c : Ctl) : Ctl :=
  (onExec j.no (fun e => { e with pc := i, phase := 0 }) c).withPlane fun p => { p with holder := none }

theorem endList_eq (j : Job) (i : Nat) (m : Mem) (c : Ctl) : endList j i m c = runEnded m j.no (endingAt j i c) := rfl

/-- The job with its list at record `i`, between commands. -/
def Job.endingAt (j : Job) (i : Nat) : Job := { j with exec := { j.exec with pc := i, phase := 0 } }

/-- The job whose run OP_END ends is the same but for its streams and its list's place. -/
theorem endingAt_job? {a c : Ctl} {j : Job} (hc : c.unstreamed = a.unstreamed) (hj : a.job? j.no = some j) (i : Nat) :
    ∃ k, (endingAt j i c).job? k.no = some k ∧ k.no = j.no ∧ k.unstreamed = (j.endingAt i).unstreamed := by
  obtain ⟨k, hk, hsame⟩ := Ctl.job?_of_unstreamed hc hj
  have hplaced : (endingAt j i c).job? j.no = some { k.endingAt i with moved := c.clk.ns } :=
    onExec_job? hk fun e => { e with pc := i, phase := 0 }
  have hno : k.no = j.no := Ctl.no_of_job? hk
  exact ⟨{ k.endingAt i with moved := c.clk.ns }, (congrArg _ hno).trans hplaced, hno, congrArg (Job.endingAt · i) hsame⟩

section
variable {s : State} {j : Job} (hh : s.ctl.holding = some j) (hmay : mayBegin s.ctl j 0x00 = true)
include hh hmay

/-- OP_END of a job that goes on ends its run, and the run that waits goes on (R407, R409). -/
theorem exec_opEnd_goesOn (hs : s.ready) (hmode : j.mode ≠ 0) (hreq : j.endReq = none) (hend : j.endAtRun = 0) :
    completes .opEnd s fun t => sameMem s t ∧ t.ctl.plane.holder = none ∧ t.ctl.slotTags = s.ctl.slotTags ∧
      withJob t j.no fun k => k.running = promoted s.ctl j ∧ k.waiting = none ∧ k.exec = j.exec.afresh ∧ k.lastStatus = 0 ∧
        k.ended = false := by
  obtain ⟨-, hj, -, he⟩ := Ctl.holding_eq_some.mp hh
  obtain ⟨c, hrun, hc⟩ := beginOp_of_may hh hmay endList s.mem
  obtain ⟨k, hk, hno, hsame⟩ := endingAt_job? hc hj j.next
  rw [endList_eq, ← hno] at hrun
  obtain ⟨hwq, htags, hplane, x, hx, hrunning, hwaiting, hexec, hstatus, hended⟩ := runEnded_goesOn s.mem hk
    (ne_of_eq_of_ne (congrArg Job.mode hsame : k.unstreamed.mode = _) hmode)
    ((congrArg Job.endReq hsame : k.unstreamed.endReq = _).trans hreq)
    ((congrArg Job.endAtRun hsame : k.unstreamed.endAtRun = _).trans hend)
  have hpromoted : promoted (endingAt j j.next c) k = promoted s.ctl j :=
    calc promoted (endingAt j j.next c) k
        = promoted c.unstreamed k.unstreamed := rfl
      _ = promoted s.ctl.unstreamed (j.endingAt j.next).unstreamed := by rw [hc, hsame]
      _ = promoted s.ctl j := rfl
  have hafresh : k.exec.afresh = j.exec.afresh :=
    (congrArg (·.exec.afresh) hsame : k.unstreamed.exec.afresh = (j.endingAt j.next).unstreamed.exec.afresh)
  rw [← hrun] at hwq htags hplane hx
  refine ⟨s.run (beginOp 0x00 endList), rfl, sameMem_of_run ?_, ?_, ?_,
    withJob_run (hno ▸ hx) ⟨hrunning.trans hpromoted, hwaiting, hexec.trans hafresh, hstatus, ?_⟩⟩
  · exact hwq.trans ((Ctl.wq_of_unstreamed hc : c.wq = s.ctl.wq).trans hs.2)
  · rw [State.run_plane, hplane]
    rfl
  · rw [State.run_slotTags, htags]
    exact (Ctl.slotTags_of_unstreamed hc : c.slotTags = s.ctl.slotTags)
  · rw [hended]
    exact (congrArg Job.ended hsame : k.unstreamed.ended = _).trans he

/-- OP_END of a job of MODE 0 ends the job (R407). -/
theorem exec_opEnd_ends (hmode : j.mode = 0) : completes .opEnd s fun t => endedJob t j.no ∧ t.ctl.plane.holder = none := by
  obtain ⟨-, hj, -, he⟩ := Ctl.holding_eq_some.mp hh
  obtain ⟨c, hrun, hc⟩ := beginOp_of_may hh hmay endList s.mem
  obtain ⟨k, hk, hno, hsame⟩ := endingAt_job? hc hj j.next
  rw [endList_eq, ← hno] at hrun
  obtain ⟨hover, hholder⟩ := runEnded_ends s.mem hk ((congrArg Job.ended hsame : k.unstreamed.ended = _).trans he)
    ((congrArg Job.mode hsame : k.unstreamed.mode = _).trans hmode) rfl
  rw [← hrun] at hover hholder
  exact ⟨s.run (beginOp 0x00 endList), rfl, endedJob_run.mpr (hno ▸ hover), State.run_plane ▸ hholder⟩
end

/-! ### The statement -/

theorem signal_frame (j : Job) (i : Nat) (m : Mem) (c : Ctl) : (signal j i m c).untagged = c.untagged := by
  unfold signal
  dsimp only
  split
  · split
    · exact setAllFull_untagged ..
    · exact setAllEmpty_untagged ..
  · rfl

/-- OP_SIGNAL sets its slot full or empty in every part, and no other (R133, R256). -/
theorem signal_slotFull {j : Job} {i : Nat} {e : Handle} (he : j.handle? (bits (rWord1 (j.cmd i)) 7 0) = some e) (m : Mem) (c : Ctl)
    (k : Nat) : (signal j i m c).slotFull k =
      if k ∈ e.slotKeys (bits (rWord1 (j.cmd i)) 47 16) then decide (bits (rWord1 (j.cmd i)) 15 8 = 0) else c.slotFull k := by
  simp only [signal, he]
  split
  · next hfull => rw [setAllFull_slotFull]; by_cases hk : k ∈ e.slotKeys (bits (rWord1 (j.cmd i)) 47 16) <;> simp [hk, hfull]
  · next hempty => rw [setAllEmpty_slotFull]; by_cases hk : k ∈ e.slotKeys (bits (rWord1 (j.cmd i)) 47 16) <;> simp [hk, hempty]

/-- The result that OP_REPLY hands over (R134, R410). -/
def replyOf (j : Job) (i : Nat) (run : Run) (c : Ctl) : Reply :=
  let w := rWord1 (j.cmd i)
  { job := j.no, code := bits w 47 32, handles := (List.range 4).map fun k => bits w (8 * k + 7) (8 * k), release := bit w 48,
    run := run, writers := j.exec.writers, waitSince := c.us, frozen := false }

theorem reply_of_running {j : Job} {run : Run} (hrunning : j.running = some run) (i : Nat) (m : Mem) (c : Ctl) :
    reply j i m c = c.withProto fun p => { p with replies := p.replies ++ [replyOf j i run c] } := by
  simp only [reply, hrunning, replyOf]

/-- Settles O38: OP_NOP, OP_WAIT_FULL, OP_SIGNAL and OP_REPLY by their common course with the effect of each, and OP_END by the end of
its run. -/
theorem controlCommandsTakeEffect : Obligations.ControlCommandsTakeEffect := by
  intro s j hs hh hinc c i r w hrelA hrelAux hsignal
  have hr : plainRecord (j.cmd i) := ⟨hrelA, hrelAux, hsignal⟩
  refine ⟨fun hmay => ?_, fun e hmay he => ⟨fun hfull => ?_, fun hfull => ?_⟩, fun e hmay he => ?_, fun run hmay hrunning => ?_,
    fun hmay hmode hreq hend => exec_opEnd_goesOn hh hmay hs hmode hreq hend, fun hmay hmode => exec_opEnd_ends hh hmay hmode⟩
  · obtain ⟨d, hbegun, -, t, ht, hmem, hpast, htags, hreplies, -⟩ := exec_control hs hh hmay (instr := .opNop) (effect := fun _ _ _ c => c)
      rfl hinc hr (fun _ _ => rfl) fun _ => ⟨rfl, rfl⟩
    exact ⟨t, ht, hmem, hpast, htags.trans hbegun.slotTags, hreplies.trans hbegun.replies⟩
  · obtain ⟨d, hbegun, hstood, t, ht, hmem, hpast, htags, -, hplane⟩ := exec_control hs hh hmay (instr := .opWaitFull) (f := waitFull)
      (effect := fun _ _ _ c => c) rfl hinc hr
      (fun d hd => waitFull_of_full he s.mem ((handleFull_of_unstreamed hd ..).trans hfull)) fun _ => ⟨rfl, rfl⟩
    refine ⟨t, ht, hmem, hpast, htags.trans hbegun.slotTags, ?_⟩
    rw [hplane, hstood]
    exact waitFull_of_mayBegin hmay
  · obtain ⟨t, ht, hmem, htags, hwait, k, hk, hexec⟩ := exec_opWaitFull_waits hs hh hmay he hfull
    exact ⟨t, ht, hmem, htags, hwait, k, hk, by simp [hexec, openedExec, hinc, i]⟩
  · obtain ⟨d, hbegun, -, t, ht, hmem, hpast, htags, -, -⟩ := exec_control hs hh hmay (instr := .opSignal) (effect := signal)
      rfl hinc hr (fun _ _ => rfl) fun d => ⟨Ctl.jobs_of_untagged (signal_frame ..), Ctl.wq_of_untagged (signal_frame ..)⟩
    have hslot (k : Nat) : t.ctl.slotFull k = _ := (Ctl.slotFull_of_slotTags htags k).trans (signal_slotFull he s.mem d k)
    refine ⟨t, ht, hmem, hpast, fun k hk => (hslot k).trans (if_pos hk), fun k hk => ?_⟩
    rw [hslot, if_neg hk]
    exact Ctl.slotFull_of_slotTags hbegun.slotTags k
  · obtain ⟨d, hbegun, -, t, ht, hmem, hpast, htags, hreplies, -⟩ := exec_control hs hh hmay (instr := .opReply) (effect := reply)
      rfl hinc hr (fun _ _ => rfl) fun d => by simp [reply_of_running hrunning]
    rw [reply_of_running hrunning] at htags hreplies
    refine ⟨t, ht, hmem, hpast, htags.trans hbegun.slotTags, replyOf j i run d, ?_, rfl, rfl, rfl, rfl, rfl, rfl, rfl⟩
    rw [hreplies, Ctl.withProto_proto, hbegun.replies]

end Sys2Proof.Machine
end

section
/-! SUPPORT. Results that are sent or withheld, and the slots that they release (04 R134; 13 R410; 15 R464, R465). -/

namespace Sys2Proof.Machine

/-! ### What a result releases (R134) -/

/-- Slot 0 of a handle is set empty in every part. -/
def releaseSlot (j : Job) (c : Ctl) (h : Nat) : Ctl :=
  match j.handle? h with | some e => setAll setEmpty (e.slotKeys 0) c | none => c
/-- The slots that a reply names are set empty, where it asks to. -/
def releaseSlots (j : Job) (rp : Reply) (c : Ctl) : Ctl := if rp.release then rp.handles.foldl (releaseSlot j) c else c

theorem releaseSlot_untagged (j : Job) (c : Ctl) (h : Nat) : (releaseSlot j c h).untagged = c.untagged := by
  unfold releaseSlot
  split
  · exact setAllEmpty_untagged ..
  · rfl

theorem releaseSlots_untagged (j : Job) (rp : Reply) (c : Ctl) : (releaseSlots j rp c).untagged = c.untagged := by
  unfold releaseSlots
  split
  · exact foldl_keeps Ctl.untagged (releaseSlot_untagged j) _ c
  · rfl

theorem releaseSlot_keeps_empty (j : Job) {c : Ctl} {k : Nat} (hk : c.slotFull k = false) (h : Nat) :
    (releaseSlot j c h).slotFull k = false := by
  unfold releaseSlot
  split
  · rw [setAllEmpty_slotFull, hk, Bool.and_false]
  · exact hk

theorem releaseSlot_empties {j : Job} {h : Nat} {e : Handle} (he : j.handle? h = some e) {k : Nat} (hk : k ∈ e.slotKeys 0) (c : Ctl) :
    (releaseSlot j c h).slotFull k = false := by
  simp only [releaseSlot, he]
  rw [setAllEmpty_slotFull, List.contains_iff_mem.mpr hk]
  rfl

/-- A slot that is empty, or that a handle still to come names, is empty when the handles have been released. -/
theorem foldl_releaseSlot_empties (j : Job) {hs : List Nat} {k : Nat} {c : Ctl}
    (h : c.slotFull k = false ∨ ∃ h ∈ hs, ∃ e, j.handle? h = some e ∧ k ∈ e.slotKeys 0) :
    (hs.foldl (releaseSlot j) c).slotFull k = false := by
  induction hs generalizing c with
  | nil => simpa using h
  | cons x hs ih =>
    refine ih ?_
    obtain hempty | ⟨y, hy, e, he, hk⟩ := h
    · exact .inl (releaseSlot_keeps_empty j hempty x)
    · obtain rfl | hy := List.mem_cons.mp hy
      · exact .inl (releaseSlot_empties he hk c)
      · exact .inr ⟨y, hy, e, he, hk⟩

theorem releaseSlots_empties {j : Job} {rp : Reply} (hrel : rp.release = true) {h : Nat} (hmem : h ∈ rp.handles) {e : Handle}
    (he : j.handle? h = some e) {k : Nat} (hk : k ∈ e.slotKeys 0) (c : Ctl) : (releaseSlots j rp c).slotFull k = false := by
  rw [releaseSlots, if_pos hrel]
  exact foldl_releaseSlot_empties j (.inr ⟨h, hmem, e, he, hk⟩)

/-! ### The packets of a result (R410) -/

theorem toBe_length (k n : Nat) : (toBe k n).length = k := by
  rw [toBe, List.length_reverse]
  induction k generalizing n with
  | zero => rfl
  | succ k ih => rw [toLe, List.length_cons, ih]

theorem chunks_ne_nil (n : Nat) (l : List Byte) (k : Nat) : (chunks n l k).length ≠ 0 := by
  cases k with
  | zero => simp [chunks]
  | succ k => unfold chunks; split <;> simp

/-- Of packets sent in turn the first stands among those sent, behind what was sent before. -/
theorem foldl_sends_first {g : Ctl → Nat → Ctl} {n : Nat} {P : Packet → Prop} {a c : Ctl} (hn : n ≠ 0)
    (hg : ∀ (a c : Ctl) i, a.Unwinds c → a.Unwinds (g c i)) (hc : a.Unwinds c)
    (hfirst : ∃ p, g c 0 = send p c ∧ c.proto.sa.getD p.dst.port false = true ∧ P p) :
    ∃ x y q, ((List.range n).foldl g c).proto.sent = a.proto.sent ++ (x ++ q :: y) ∧ P q := by
  obtain ⟨p, hp, hsa, hP⟩ := hfirst
  obtain ⟨n, rfl⟩ := Nat.exists_eq_succ_of_ne_zero hn
  obtain ⟨x, hx⟩ := hc.sent
  obtain ⟨y, hy⟩ := ((Ctl.Unwinds.refl (send p c)).foldl (f := g) (fun c i hc => hg _ c i hc) ((List.range n).map Nat.succ)).sent
  refine ⟨x, y, p, ?_, hP⟩
  rw [List.range_succ_eq_map, List.foldl_cons, hp, hy, send_sent, if_pos hsa, hx]
  simp

/-- The head of a RESULT: job, code, RUN_SEQ, the epoch of the run's start and the time of its trigger (R410). -/
def resultHead (j : Job) (rp : Reply) : List Byte :=
  toBe 2 j.no ++ toBe 2 rp.code ++ toBe 4 rp.run.seq ++ toBe 8 rp.run.startEpoch ++ toBe 8 rp.run.triggerTime

theorem resultHead_length (j : Job) (rp : Reply) : (resultHead j rp).length = 24 := by simp [resultHead, toBe_length]

/-- A packet carries the result of a reply, to its requester on the active port (R410). -/
def isResult (j : Job) (rp : Reply) (active : Nat) (q : Packet) : Prop :=
  q.kind = 0x20 ∧ q.status = 0 ∧ q.dst = { rp.run.requester with port := active } ∧ q.payload.take 24 = resultHead j rp

/-- A result is withheld or sent, and then its slots are released. -/
theorem sendResult_course (m : Mem) (j : Job) (rp : Reply) (c : Ctl) : ∃ d, sendResult m j rp c = releaseSlots j rp d ∧
    d.unread = c.unread ∧ (c.resultOut j.bundle = false → d = count .secWithheld 0 1 c) ∧
    (c.resultOut j.bundle = true → c.proto.sa.getD c.proto.active false = true →
      ∃ a b q, d.proto.sent = c.proto.sent ++ (a ++ q :: b) ∧ isResult j rp c.proto.active q) := by
  unfold sendResult
  extract_lets release parts read all max trunc counted body sizes pieces
  split
  · next hout => exact ⟨_, rfl, count_unread .., fun _ => rfl, fun h => absurd h (by simpa using hout)⟩
  · next hout =>
    have hread : read.unread = c.unread := noteReads_unread ..
    have hcounted : counted.unread = c.unread := by
      unfold counted
      split
      · rw [count_unread, hread]
      · exact hread
    have hunwinds : c.Unwinds counted := (((Ctl.Unwinds.refl c).noteReads ..).count ..).ite ((Ctl.Unwinds.refl c).noteReads ..)
    refine ⟨_, rfl, ?_, fun h => absurd h (by simpa using hout), fun _ hsa => ?_⟩
    · rw [foldl_keeps Ctl.unread fun c i => Ctl.unread_of_quiet (send_quiet ..)]
      exact hcounted
    · have hactive : counted.proto.active = c.proto.active := hunwinds.active
      refine foldl_sends_first (chunks_ne_nil 1360 body body.length) (fun _ _ _ hc => hc.send _) hunwinds.takeFree
        ⟨_, rfl, ?_, rfl, rfl, ?_, ?_⟩
      · exact (congrArg₂ (fun sa n => sa.getD n false) hunwinds.sa hactive).trans hsa
      · exact congrArg (fun n => { rp.run.requester with port := n }) hactive
      · have hhead (rest : List Byte) : (resultHead j rp ++ rest).take 24 = resultHead j rp := List.take_left' (resultHead_length j rp)
        simpa only [resultHead, List.append_assoc] using hhead _

/-! ### The statement -/

/-- A result that is not frozen, of a job that has not ended, whose slots are full (R410). -/
def Ctl.sendsResult (c : Ctl) (q : Reply) : Bool :=
  !q.frozen && match c.job? q.job with | some k => !k.ended && replyReady c k q | none => false

theorem sendReady_eq (m : Mem) (c : Ctl) : sendReady m c =
    match c.proto.replies.find? c.sendsResult with
    | none => c
    | some rp =>
      match c.job? rp.job with
      | none => c
      | some j => (sendResult m j rp c).withProto fun p => { p with replies := p.replies.filter (· ≠ rp) } := rfl

/-- The first result that is ready is sent or withheld, and no longer waits. -/
theorem sendReady_of_find {m : Mem} {c : Ctl} {rp : Reply} {j : Job} (hj : c.job? rp.job = some j)
    (hfind : c.proto.replies.find? c.sendsResult = some rp) :
    sendReady m c = (sendResult m j rp c).withProto fun p => { p with replies := p.replies.filter (· ≠ rp) } := by
  simp only [sendReady_eq, hfind, hj]

/-- Settles O36: what becomes of the result by `sendResult_course`, and what its slots by `releaseSlots`. -/
theorem resultsAreSent : Obligations.ResultsAreSent := by
  intro s rp j hs hj c ok hfind
  obtain ⟨d, hsend, hsame, hwithheld, hsent⟩ := sendResult_course s.mem j rp c
  have hready : sendReady s.mem c = (releaseSlots j rp d).withProto fun p => { p with replies := p.replies.filter (· ≠ rp) } := by
    rw [← hsend]
    exact sendReady_of_find hj hfind
  have htags := releaseSlots_untagged j rp d
  have hreplies : d.proto.replies = c.proto.replies := (congrArg (·.proto.replies) hsame : d.unread.proto.replies = c.unread.proto.replies)
  have hreleased : (releaseSlots j rp d).proto = d.proto := (congrArg Ctl.proto htags : (releaseSlots j rp d).untagged.proto = _)
  refine ⟨s.run sendReady, rfl, sameMem_of_run ?_, ?_, ?_, fun hrel => ?_, fun hrel h hmem e he k hk => ?_, fun hout => ?_, fun hout hsa => ?_⟩
  · rw [hready, Ctl.withProto_wq, Ctl.wq_of_untagged htags, Ctl.wq_of_unread hsame, hs.2]
  · rw [State.run_replies, hready, Ctl.withProto_proto, hreleased, hreplies]
  · rw [State.run_jobs, hready, Ctl.withProto_jobs, Ctl.jobs_of_untagged htags, Ctl.jobs_of_unread hsame]
  · rw [State.run_slotTags, hready, Ctl.withProto_slotTags, releaseSlots, if_neg (by simp [hrel]), Ctl.slotTags_of_unread hsame]
  · rw [State.run_slotFull, hready]
    exact releaseSlots_empties hrel hmem he hk d
  · refine counted_of_run rfl ?_
    rw [hready, ← count_counter_self rfl 0 one_ne_zero, ← hwithheld hout]
    exact Ctl.counter_of_counters (Ctl.counters_of_untagged htags) ..
  · obtain ⟨a, b, q, hq, hkind, hstatus, hdst, hhead⟩ := hsent hout hsa
    obtain ⟨l, hl⟩ := State.run_sent sendReady s
    refine ⟨a, b ++ l, q, ?_, hkind, hstatus, hdst, hhead⟩
    rw [hl, hready, Ctl.withProto_proto, hreleased, hq]
    simp [c]

end Sys2Proof.Machine
end

section
/-! SUPPORT. Requests on jobs: what acceptance leaves, the reply that a served request gets, and a run that a request makes (13 R400,
R406, R407, R409; 04 R147). -/

namespace Sys2Proof.Machine

/-! ### Acceptance and reply (R395, R400) -/

theorem Ctl.Unwinds.accept {a c : Ctl} (h : a.Unwinds c) (g : Gate) (r : Req) : a.Unwinds (accept g r c) := by
  unfold Machine.accept
  extract_lets counted more cached keyed
  have hcounted : a.Unwinds counted := (h.of_eq (d := noteFrame r.port r.pn c) rfl rfl).count ..
  have hcached : a.Unwinds cached := by
    unfold cached
    split <;> exact hcounted.of_eq rfl rfl
  have hkeyed : a.Unwinds keyed := hcached.of_eq rfl rfl
  exact hcached.ite (hkeyed.ite (hkeyed.of_eq rfl rfl))

/-- A request that is served came over a port with a secure association (R394). -/
theorem sa_of_served {g : Gate} {r : Req} {c : Ctl} (h : served g r c) : c.proto.sa.getD r.port false = true := by
  simp only [served, passes, Ctl.hears, Bool.and_eq_true] at h
  tauto

theorem State.run_unwinds (f : Mem → Ctl → Ctl) (s : State) : (f s.mem s.ctl).Unwinds (s.run f).ctl :=
  ((Ctl.Unwinds.refl (f s.mem s.ctl)).reportOverflows s.ctl 4).of_eq rfl rfl

/-- An answer, and packets alone behind it, reply to the request. -/
theorem replies_of_answer {s t : State} {d : Ctl} {r : Req} {kind : Nat} {st : KS} {body : List Byte}
    (hsent : ∃ l, d.proto.sent = s.ctl.proto.sent ++ l) (hsa : d.proto.sa.getD r.port false = true)
    (ht : (answer r kind st body d).Unwinds t.ctl) : replies s t r kind st [body] := by
  obtain ⟨x, hx⟩ := hsent
  obtain ⟨y, hy⟩ := answerAll_sent r kind st [body] d hsa
  obtain ⟨z, hz⟩ := ht.sent
  have hepoch : t.ctl.proto.epoch = d.proto.epoch := ht.epoch.trans ((Ctl.Unwinds.refl d).answer ..).epoch
  refine ⟨x, y ++ z, ?_⟩
  rw [hz, answer, hy, hx, hepoch]
  simp

/-! ### The job that a request names (R407) -/

theorem Ctl.accept_job? (g : Gate) (r : Req) (c : Ctl) (no : Nat) : (accept g r c).job? no = c.job? no :=
  Ctl.job?_of_jobs (accept_jobs ..) no

/-- A job that is admitted, not frozen and not ended is served under its number. -/
theorem namedJob_accept {c : Ctl} {no : Nat} {j : Job} (hj : c.job? no = some j) (hfrozen : c.frozenIn no = false)
    (he : j.ended = false) (hadmit : j.admitReq = none) (g : Gate) (r : Req) : namedJob (accept g r c) no = .ok j := by
  have hnot : (accept g r c).frozenIn no = false := by rw [Ctl.frozenIn, accept_sec_frozen, ← Ctl.frozenIn, hfrozen]
  have hadmitted : (accept g r c).admitted no = some j := by
    rw [Ctl.admitted, Ctl.accept_job?, hj, Option.filter_some, if_pos (by simp [hadmit])]
  simp [namedJob, hadmitted, hnot, he]

/-! ### A run that begins (R409, R419, R481) -/

/-- A job with one run more: the running one where it has none, else the pending one behind it. -/
def Job.withRun (j : Job) (run : Run) (now : Nat) : Job :=
  if j.running.isNone then
    { j with running := some run, runSeq := j.runSeq + 1, exec := j.exec.afresh, saved := [], quantumUsed := 0, moved := now }
  else { j with waiting := some run, runSeq := j.runSeq + 1 }

theorem Job.withRun_no (j : Job) (run : Run) (now : Nat) : (j.withRun run now).no = j.no := by
  unfold withRun
  split <;> rfl

/-- The run that a job makes next. -/
def nextRunOf (j : Job) (who : Peer) (time : Nat) (c : Ctl) : Run :=
  { seq := j.runSeq, requester := who, startEpoch := runEpoch c j, triggerTime := time, readyAt := c.clk.ns }

/-- What a run's start does before the run is the job's: the members are told, and starts and runs are counted. -/
def runTold (j : Job) (who : Peer) (time : Nat) (c : Ctl) : Ctl :=
  let told := if j.grouped ∧ c.isLead then tellMembers 3 j [startWord who time] c else c
  let gale := if j.cls = 0 then
      told.withProto fun p => { p with galeStarts := (p.galeStarts.filter fun t => told.clk.ns < t + 1000000) ++ [told.clk.ns] }
    else told
  count .svcRun j.cls 1 gale

theorem beginRun_eq {c : Ctl} {no : Nat} {j : Job} (hj : c.job? no = some j) (who : Peer) (time : Nat) : beginRun no who time c =
    ((runTold j who time c).setJob (j.withRun (nextRunOf j who time c) (runTold j who time c).clk.ns)).withPower fun p =>
      { p with idle := false, quiet := 0 } := by
  simp only [beginRun, hj, Job.withRun]
  split <;> rfl

theorem runTold_unwinds (j : Job) (who : Peer) (time : Nat) (c : Ctl) : c.Unwinds (runTold j who time c) := by
  unfold runTold
  extract_lets told gale
  have htold : c.Unwinds told := ((Ctl.Unwinds.refl c).tellMembers ..).ite (.refl c)
  have hgale : c.Unwinds gale := by
    unfold gale
    split
    · exact htold.of_eq rfl rfl
    · exact htold
  exact hgale.count ..

/-- Telling the members and counting leave jobs, Plane and writes as they were. -/
theorem runTold_frame (j : Job) (who : Peer) (time : Nat) (c : Ctl) : (runTold j who time c).jobs = c.jobs ∧
    (runTold j who time c).plane = c.plane ∧ (runTold j who time c).wq = c.wq ∧ (runTold j who time c).clk = c.clk := by
  unfold runTold
  extract_lets told gale
  have htold : told.unported = c.unported := by
    unfold told
    split
    · exact tellMembers_unported ..
    · rfl
  have hgale : gale.jobs = told.jobs ∧ gale.plane = told.plane ∧ gale.wq = told.wq ∧ gale.clk = told.clk := by
    unfold gale
    split <;> exact ⟨rfl, rfl, rfl, rfl⟩
  obtain ⟨hjobs, hplane, hwq, hclk⟩ := hgale
  rw [count_jobs, count_plane, count_wq, count_clk, hjobs, hplane, hwq, hclk]
  exact ⟨(congrArg Ctl.jobs htold : told.unported.jobs = c.unported.jobs), (congrArg Ctl.plane htold : told.unported.plane = c.unported.plane),
    (congrArg Ctl.wq htold : told.unported.wq = c.unported.wq), (congrArg Ctl.clk htold : told.unported.clk = c.unported.clk)⟩

/-- A run's start adds the run to its job and wakes the device from IDLE; nothing else than packets joins. -/
theorem beginRun_leaves {c : Ctl} {j : Job} (hj : c.job? j.no = some j) (who : Peer) (time : Nat) :
    c.Unwinds (beginRun j.no who time c) ∧ (beginRun j.no who time c).plane = c.plane ∧ (beginRun j.no who time c).wq = c.wq ∧
    (beginRun j.no who time c).power.idle = false ∧
    (beginRun j.no who time c).job? j.no = some (j.withRun (nextRunOf j who time c) c.clk.ns) := by
  obtain ⟨hjobs, hplane, hwq, hclk⟩ := runTold_frame j who time c
  rw [beginRun_eq hj, hclk]
  refine ⟨(runTold_unwinds j who time c).of_eq rfl rfl, hplane, hwq, rfl, ?_⟩
  have hno := Job.withRun_no j (nextRunOf j who time c) c.clk.ns
  exact hno ▸ Ctl.job?_setJob (j := j) (by rw [hno, Ctl.job?_of_jobs hjobs, hj])

/-! ### JOB_RUN, JOB_ABORT and JOB_END -/

section
variable {s : State} {r : Req} {j : Job} (hs : s.ready) (hj : s.ctl.job? (r.be 0 2) = some j)
  (hfrozen : s.ctl.frozenIn (r.be 0 2) = false) (he : j.ended = false) (hadmit : j.admitReq = none)
include hj hfrozen he hadmit

/-- JOB_RUN answers the number of the run and begins it (R409). -/
theorem runJob_of_served (hserved : served (jobGate 0x11 4 r) r s.ctl) (hmode : j.mode = 1) (hwaiting : j.waiting = none)
    (hroom : j.cls = 0 → galeRoom s.ctl = true) (hlead : j.grouped = true → s.ctl.isLead = true) (m : Mem) :
    runJob r m s.ctl = answer r 0x11 .ok (toBe 4 j.runSeq)
      (beginRun j.no r.peer s.ctl.clk.device (accept (jobGate 0x11 4 r) r s.ctl)) := by
  unfold runJob
  rw [gate_of_passes _ hserved, namedJob_accept hj hfrozen he hadmit]
  have hlead' : ¬(j.grouped = true ∧ (!(accept (jobGate 0x11 4 r) r s.ctl).isLead) = true) := by
    have hsame : (accept (jobGate 0x11 4 r) r s.ctl).isLead = s.ctl.isLead := by
      simp [Ctl.isLead, Ctl.member, Ctl.param]
    rw [hsame]
    simpa using hlead
  have hroom' : ¬(j.cls = 0 ∧ (!galeRoom (accept (jobGate 0x11 4 r) r s.ctl)) = true) := by
    have hsame : galeRoom (accept (jobGate 0x11 4 r) r s.ctl) = galeRoom s.ctl := by simp [galeRoom]
    rw [hsame]
    simpa using hroom
  simp only [hmode, ne_eq, not_true_eq_false, if_false, if_neg hlead', if_neg hroom', hwaiting, Option.isSome_none, Bool.false_eq_true,
    accept_clk]

theorem exec_jobRun_of_served (hs : s.ready) (hserved : served (jobGate 0x11 4 r) r s.ctl) (hmode : j.mode = 1)
    (hwaiting : j.waiting = none) (hroom : j.cls = 0 → galeRoom s.ctl = true) (hlead : j.grouped = true → s.ctl.isLead = true) :
    completes (.jobRun r) s fun t => replies s t r 0x11 .ok [toBe 4 j.runSeq] ∧ sameMem s t ∧ t.ctl.power.idle = false ∧
      withJob t (r.be 0 2) fun k => k = j.withRun (nextRunOf j r.peer s.ctl.clk.device s.ctl) s.ctl.clk.ns := by
  have hno := Ctl.no_of_job? hj
  have hrun := runJob_of_served hj hfrozen he hadmit hserved hmode hwaiting hroom hlead s.mem
  have haccept := (Ctl.Unwinds.refl s.ctl).accept (jobGate 0x11 4 r) r
  obtain ⟨hbegun, -, hwq, hidle, hk⟩ := beginRun_leaves (j := j) (c := accept (jobGate 0x11 4 r) r s.ctl)
    (by rw [hno, Ctl.accept_job?, hj]) r.peer s.ctl.clk.device
  have hnext : nextRunOf j r.peer s.ctl.clk.device (accept (jobGate 0x11 4 r) r s.ctl) = nextRunOf j r.peer s.ctl.clk.device s.ctl := by
    simp [nextRunOf, runEpoch]
  refine ⟨s.run (runJob r), rfl, replies_of_answer (haccept.trans hbegun).sent ?_ (hrun ▸ State.run_unwinds ..), sameMem_of_run ?_, ?_,
    withJob_run ?_ rfl⟩
  · rw [(haccept.trans hbegun).sa]
    exact sa_of_served hserved
  · rw [hrun, answer_wq, hwq, accept_wq, hs.2]
  · have hpower : (s.run (runJob r)).ctl.power = (runJob r s.mem s.ctl).power := by simp
    rw [hpower, hrun, answer_power, hidle]
  · rw [hrun, Ctl.job?_of_jobs (answer_jobs ..), ← hno, hk, hnext, accept_clk]

/-- A JOB_ABORT waits with the job. -/
def Job.aborting (r : Req) (j : Job) : Job := { j with abortReq := some r }
/-- A JOB_END waits with the job. -/
def Job.ending (r : Req) (j : Job) : Job := { j with endReq := some r }

/-- A served JOB_ABORT stands with its job, which ends at once where its list is not on the Plane (R147). -/
theorem abortJob_of_served (hserved : served (jobGate 0x12 5 r) r s.ctl) (habort : j.abortReq = none) (m : Mem) :
    let c := (accept (jobGate 0x12 5 r) r s.ctl).mapJob j.no (Job.aborting r)
    abortJob r m s.ctl = if s.ctl.plane.holder ≠ some j.no then failAt m j.no .aborted j.abortIndex c else c := by
  unfold abortJob
  rw [gate_of_passes _ hserved, namedJob_accept hj hfrozen he hadmit]
  simp only [habort, Option.isSome_none, Bool.false_eq_true, if_false, Ctl.mapJob_plane, accept_plane]
  rfl

/-- A served JOB_END stands with its job, which ends at once between runs (R407). -/
theorem endJobRequest_of_served (hserved : served (jobGate 0x13 5 r) r s.ctl) (hend : j.endReq = none) (m : Mem) :
    let c := (accept (jobGate 0x13 5 r) r s.ctl).mapJob j.no (Job.ending r)
    endJobRequest r m s.ctl = if j.running.isNone then endJob m j.no .ok 4 j.lastIndex j.lastTag c else c := by
  unfold endJobRequest
  rw [gate_of_passes _ hserved, namedJob_accept hj hfrozen he hadmit]
  simp only [hend, Option.isSome_none, Bool.false_eq_true, if_false]
  rfl

end

/-- A request that waits with its job leaves the memories and the Plane, and the job but for the request. -/
theorem waits_of_mapJob {s : State} {f : Mem → Ctl → Ctl} {g : Gate} {r : Req} {no : Nat} {j : Job} {mark : Job → Job} (hs : s.ready)
    (hj : s.ctl.job? no = some j) (hmark : ∀ k, (mark k).no = k.no) (hf : f s.mem s.ctl = (accept g r s.ctl).mapJob j.no mark) :
    sameMem s (s.run f) ∧ (s.run f).ctl.plane = s.ctl.plane ∧ withJob (s.run f) no fun k => k = mark j := by
  have hno := Ctl.no_of_job? hj
  refine ⟨sameMem_of_run ?_, ?_, withJob_run ?_ rfl⟩
  · rw [hf, Ctl.mapJob_wq, accept_wq, hs.2]
  · rw [State.run_plane, hf, Ctl.mapJob_plane, accept_plane]
  · rw [hf, hno]
    exact Ctl.job?_mapJob_self (by rw [Ctl.accept_job?, hj]) hmark

/-! ### A job that a request ends (R148, R407) -/

/-- An answer of a job's end, where its request waits. -/
def answerWaiting (kind : Nat) (st : KS) (o : Option Req) (c : Ctl) : Ctl :=
  match o with | some r => answer r kind st [] c | none => c

theorem answerWaiting_unwinds (kind : Nat) (st : KS) (o : Option Req) (c : Ctl) : c.Unwinds (answerWaiting kind st o c) := by
  unfold answerWaiting
  split
  · exact (Ctl.Unwinds.refl c).answer ..
  · exact .refl c

/-- The end of a job answers the requests that wait with it last of all: a JOB_END, its admission, an abort (R407). -/
theorem endJobWith_answers (detail : List Byte) (m : Mem) {no : Nat} (st : KS) (list idx tag : Nat) {c : Ctl} {j : Job}
    (hj : c.job? no = some j) (he : j.ended = false) : ∃ d, (leavePlane m j idx c).Unwinds d ∧
      endJobWith detail m no st list idx tag c =
        answerWaiting 0x12 st j.abortReq (answerWaiting 0x10 st j.admitReq (answerWaiting 0x13 st j.endReq d)) := by
  unfold endJobWith
  simp -zeta only [hj, he, Bool.false_eq_true, if_false]
  extract_lets left hit faulted delivered saved flushed seq told unlinked voided kept emptied dropped freed mark ended sent
  have hfaulted : left.Unwinds faulted := ((Ctl.Unwinds.refl left).count ..).ite (.refl left)
  have hflushed : left.Unwinds flushed := (((hfaulted.deliverAll ..).voidParts ..).saveStreams _).flushReplies ..
  have htold : left.Unwinds told := (hflushed.tellMembers ..).ite hflushed
  have hvoided : left.Unwinds voided := ((htold.dropLinks _).ite htold).voidHost _
  have hdropped : left.Unwinds dropped := ((hvoided.ite (hvoided.endSlots _)).settleDrain ..).dropDrain _
  have hfreed : left.Unwinds freed := hdropped.ite ((hdropped.endSlots _).freeFrames _)
  have hended : left.Unwinds ended := (hfreed.mapJob ..).ite (hfreed.of_eq rfl rfl)
  exact ⟨sent, hended.event .., rfl⟩

section
variable {s : State} {f : Mem → Ctl → Ctl} {g : Gate} {r : Req} {j : Job} (hj : s.ctl.job? j.no = some j)
  (hsa : s.ctl.proto.sa.getD r.port false = true)
include hj hsa

/-- A request that ends its job is answered with the status of the end, and the job has ended (R148). -/
theorem ends_of_mapJob {mark : Job → Job} (hno : ∀ k, (mark k).no = k.no) (hended : (mark j).ended = false) {st : KS}
    {kind list idx tag : Nat} (hf : f s.mem s.ctl = endJob s.mem j.no st list idx tag ((accept g r s.ctl).mapJob j.no mark))
    (hanswer : ∀ d, ∃ d', d.Unwinds d' ∧ (answer r kind st [] d').Unwinds (answerWaiting 0x12 st (mark j).abortReq
      (answerWaiting 0x10 st (mark j).admitReq (answerWaiting 0x13 st (mark j).endReq d)))) :
    replies s (s.run f) r kind st [[]] ∧ endedJob (s.run f) j.no := by
  have hmarked : ((accept g r s.ctl).mapJob j.no mark).job? j.no = some (mark j) :=
    Ctl.job?_mapJob_self (by rw [Ctl.accept_job?, hj]) hno
  have haccept := ((Ctl.Unwinds.refl s.ctl).accept g r).mapJob j.no mark
  obtain ⟨d, hd, hend⟩ := endJobWith_answers [] s.mem st list idx tag hmarked hended
  obtain ⟨d', hd', hlast⟩ := hanswer d
  obtain ⟨hlsa, -, -, l, hl⟩ := leavePlane_post s.mem (mark j) idx ((accept g r s.ctl).mapJob j.no mark)
  obtain ⟨x, hx⟩ := haccept.sent
  obtain ⟨y, hy⟩ := (hd.trans hd').sent
  refine ⟨replies_of_answer (d := d') ⟨x ++ l ++ y, by rw [hy, hl, hx]; simp⟩ ?_ ?_, endedJob_run.mpr ?_⟩
  · rw [(hd.trans hd').sa, hlsa, haccept.sa, hsa]
  · have hlast' : (answer r kind st [] d').Unwinds (f s.mem s.ctl) := by
      rw [hf, endJob, hend]
      exact hlast
    exact hlast'.trans (State.run_unwinds f s)
  · rw [hf]
    exact (endJobWith_endsJob [] s.mem st list idx tag hmarked hended).allOver
end

section
variable {s : State} {r : Req} {j : Job} (hs : s.ready) (hj : s.ctl.job? (r.be 0 2) = some j)
  (hfrozen : s.ctl.frozenIn (r.be 0 2) = false) (he : j.ended = false) (hadmit : j.admitReq = none)
include hj hfrozen he hadmit

theorem exec_jobAbort_off_plane (hserved : served (jobGate 0x12 5 r) r s.ctl) (habort : j.abortReq = none)
    (hholder : s.ctl.plane.holder ≠ some (r.be 0 2)) :
    completes (.jobAbort r) s fun t => replies s t r 0x12 .aborted [[]] ∧ endedJob t (r.be 0 2) := by
  have hrun := abortJob_of_served hj hfrozen he hadmit hserved habort s.mem
  have hno := Ctl.no_of_job? hj
  rw [← hno] at hj hholder ⊢
  have hmarked : ((accept (jobGate 0x12 5 r) r s.ctl).mapJob j.no (Job.aborting r)).job? j.no = _ :=
    Ctl.job?_mapJob_self (by rw [Ctl.accept_job?, hj]) fun _ => rfl
  simp only [if_pos hholder, failAt, hmarked] at hrun
  refine ⟨s.run (abortJob r), rfl, ends_of_mapJob hj (sa_of_served hserved) (mark := Job.aborting r)
    (fun _ => rfl) he hrun fun d => ⟨_, ?_, .refl (answer r 0x12 .aborted [] _)⟩⟩
  exact (answerWaiting_unwinds ..).trans (answerWaiting_unwinds ..)

theorem exec_jobEnd_between_runs (hserved : served (jobGate 0x13 5 r) r s.ctl) (hend : j.endReq = none) (hrunning : j.running = none) :
    completes (.jobEnd r) s fun t => replies s t r 0x13 .ok [[]] ∧ endedJob t (r.be 0 2) := by
  have hrun := endJobRequest_of_served hj hfrozen he hadmit hserved hend s.mem
  have hno := Ctl.no_of_job? hj
  rw [← hno] at hj ⊢
  simp only [hrunning, Option.isNone_none, if_true] at hrun
  refine ⟨s.run (endJobRequest r), rfl, ends_of_mapJob hj (sa_of_served hserved) (mark := Job.ending r)
    (fun _ => rfl) he hrun fun d => ⟨d, .refl d, ?_⟩⟩
  exact (answerWaiting_unwinds ..).trans (answerWaiting_unwinds ..)
end

end Sys2Proof.Machine
end

section
/-! SUPPORT. A job that is built and entered among the jobs: what building it makes of it, and that the reads of its bundle, the credits
that it is granted and the packets that relay it leave the jobs (13 R406; 14 R440, R441). -/

namespace Sys2Proof.Machine

/-! ### What leaves the jobs -/

/-- From `a` to `b` the jobs and the members in service stay, and packets join. -/
structure Ctl.Spares (a b : Ctl) : Prop extends a.Unwinds b where
  jobs : b.jobs = a.jobs
  peersUp : b.peersUp = a.peersUp

namespace Ctl.Spares

theorem refl (a : Ctl) : a.Spares a := ⟨.refl a, rfl, rfl⟩

variable {a c : Ctl} (h : a.Spares c)
include h

theorem of_eq {d : Ctl} (hplane : d.plane = c.plane) (hpost : d.post = c.post) (hjobs : d.jobs = c.jobs)
    (hpeers : d.peersUp = c.peersUp) : a.Spares d :=
  ⟨h.toUnwinds.of_eq hplane hpost, hjobs.trans h.jobs, hpeers.trans h.peersUp⟩

/-- What is silent but for packets, counts and events leaves jobs and members. -/
theorem of_quiet {d : Ctl} (hunwinds : a.Unwinds d) (hquiet : d.quiet = c.quiet) : a.Spares d :=
  ⟨hunwinds, (Ctl.jobs_of_quiet hquiet).trans h.jobs,
    ((congrArg Ctl.peersUp hquiet : d.quiet.peersUp = c.quiet.peersUp) : d.peersUp = c.peersUp).trans h.peersUp⟩

theorem ite {p : Prop} [Decidable p] {d : Ctl} (h' : a.Spares d) : a.Spares (if p then c else d) := by
  split
  · exact h
  · exact h'

theorem foldl {α : Type} {f : Ctl → α → Ctl} (hf : ∀ (c : Ctl) x, a.Spares c → a.Spares (f c x)) (l : List α) :
    a.Spares (l.foldl f c) := by
  induction l generalizing c with
  | nil => exact h
  | cons x l ih => exact ih (hf c x h)

theorem withStore (f : Store → Store) : a.Spares (c.withStore f) := h.of_eq rfl rfl rfl rfl
theorem setPort (p : Nat) (x : XwPort) : a.Spares (c.setPort p x) := h.of_eq rfl rfl rfl rfl
theorem pushControl (port kind : Nat) (fields : List Nat) : a.Spares (pushControl port kind fields c) := h.of_eq rfl rfl rfl rfl
theorem count (k : Cnt) (i n : Nat) : a.Spares (count k i n c) := h.of_quiet (h.toUnwinds.count k i n) (count_quiet ..)
theorem serviceEvent (kind block inst value : Nat) : a.Spares (serviceEvent kind block inst value c) :=
  h.of_quiet (h.toUnwinds.serviceEvent ..) (serviceEvent_quiet ..)

/-! Reads of a bundle (R356, R357) -/

theorem readPieces (ps : List Nat) : a.Spares (readPieces ps c) :=
  (h.withStore _).foldl (fun _ _ hc => (hc.withStore _).ite hc) _

theorem readUnit (m : Mem) (w : Nat) : a.Spares (readUnit m w c) :=
  (h.readPieces _).foldl (fun _ _ hc => (hc.count ..).ite hc) _

theorem noteFlash (m : Mem) (w : Nat) : a.Spares (noteFlash m w c) := by
  unfold Machine.noteFlash
  dsimp -zeta only
  extract_lets addr r candidate read uncorr no damaged
  have hread : a.Spares read := h.readUnit m w
  have hcandidate {d : Ctl} (hd : a.Spares d) : a.Spares (candidate d) := hd.withStore _
  have hdamaged : a.Spares damaged := (hread.count ..).withStore _
  exact (h.count ..).ite (((hcandidate (hread.count ..)).ite (hdamaged.serviceEvent ..)).ite h)

theorem readFlash (m : Mem) (fa n : Nat) : a.Spares (readFlash m fa n c) :=
  h.ite ((h.readPieces _).foldl (fun _ _ hc => hc.noteFlash m _) _)

theorem readBundle (m : Mem) (spans : List (Nat × Nat)) : a.Spares (readBundle m spans c) :=
  h.foldl (fun _ _ hc => hc.readFlash m _ _) spans

/-! Packets and credits of the group (R440, R441) -/

theorem pushPacket (port type : Nat) (pk : XwPacket) : a.Spares (pushPacket port type pk c) :=
  have hpushed := pushPacket_unported port type pk c
  ⟨h.toUnwinds.pushPacket .., (congrArg Ctl.jobs hpushed).trans h.jobs, (congrArg Ctl.peersUp hpushed).trans h.peersUp⟩

theorem relayConfig (code jobNo : Nat) (payload : List Byte) (number : Nat) : a.Spares (relayConfig code jobNo payload c number) := by
  refine h.foldl (fun _ _ hd => ?_) _
  unfold sendConfig
  dsimp only
  split
  · exact hd
  · exact hd.pushPacket ..

theorem giveCredit (j : Job) (i s t : Nat) : a.Spares (giveCredit j i s t c) := by
  unfold Machine.giveCredit
  split
  · exact h
  · exact h.ite ((h.setPort ..).pushControl ..)

theorem grantLink (j : Job) (i : Nat) : a.Spares (grantLink j i c) := by
  unfold Machine.grantLink
  extract_lets l
  split
  · exact h
  · refine h.ite (Spares.ite (h.foldl (fun _ _ hd => hd.foldl (fun _ _ hd => hd.ite (hd.giveCredit ..)) _) _)
      (h.foldl (fun _ _ hd => hd.ite ?_) _))
    extract_lets zeroed
    have hzeroed : a.Spares zeroed := by
      unfold zeroed
      split
      · exact hd.of_eq rfl rfl rfl rfl
      · exact hd
    exact (hzeroed.giveCredit ..).ite hzeroed

theorem grantCredits : a.Spares (grantCredits c) :=
  h.foldl (fun _ j hd => hd.ite (hd.foldl (fun _ i hd => hd.grantLink j i) _)) _

end Ctl.Spares

/-! ### A job that enters the jobs (R406) -/

theorem find_insertJob {j : Job} {l : List Job} (h : l.find? (·.no = j.no) = none) : (insertJob j l).find? (·.no = j.no) = some j := by
  induction l with
  | nil => simp [insertJob]
  | cons k l ih =>
    have hnone := List.find?_eq_none.mp h
    have hk : k.no ≠ j.no := by simpa using hnone k (by simp)
    unfold insertJob
    split
    · simp
    · rw [List.find?_cons_of_neg (by simpa using hk)]
      exact ih (List.find?_eq_none.mpr fun x hx => hnone x (List.mem_cons_of_mem k hx))

theorem enterJob_job? {j : Job} {c : Ctl} (h : c.job? j.no = none) : (enterJob j c).job? j.no = some j := find_insertJob h

/-! ### What building a job makes of it -/

/-- Every value that a check or an effect gives has `P`. -/
def givesOnly {ε α : Type} (P : α → Prop) (x : Except ε α) : Prop := ∀ a, x = .ok a → P a

theorem givesOnly_pure {ε α : Type} {P : α → Prop} {a : α} (h : P a) : givesOnly P (pure a : Except ε α) := fun b hb => by
  obtain rfl : a = b := Except.ok.inj hb
  exact h

theorem givesOnly_bind {ε α β : Type} {P : β → Prop} {x : Except ε α} {f : α → Except ε β} (h : ∀ a, givesOnly P (f a)) :
    givesOnly P (x >>= f) := by
  intro b hb
  cases x with
  | error e => cases hb
  | ok a => exact h a b hb

theorem givesOnly_ite {ε α : Type} {P : α → Prop} {p : Prop} [Decidable p] {x y : Except ε α} (hx : givesOnly P x) (hy : givesOnly P y) :
    givesOnly P (if p then x else y) := by
  split
  · exact hx
  · exact hy

/-- A job before its first run. -/
def Job.unrun (j : Job) : Prop := j.running = none ∧ j.exec = Exec.start

theorem emptyPart_unrun (b : Bundle) (s : Submit) (links scales : List Nat) (suits : List Bool) (c : Ctl) :
    givesOnly (fun p => p.1.unrun) (emptyPart b s links scales suits c) := by
  unfold emptyPart
  exact givesOnly_bind fun _ => givesOnly_bind fun _ => givesOnly_bind fun _ => givesOnly_bind fun _ => givesOnly_pure ⟨rfl, rfl⟩

theorem buildJob_unrun (m : Mem) (s : Submit) (c : Ctl) : givesOnly (fun p => p.1.unrun) (buildJob m s c) := by
  unfold buildJob
  refine givesOnly_bind fun ⟨b, idx, links, scales, suits⟩ => ?_
  dsimp -zeta only
  extract_lets trigger d entries ps own pins presets bufs hs wins framed
  refine givesOnly_ite (givesOnly_bind fun _ => emptyPart_unrun b s links scales suits c) ?_
  refine givesOnly_bind fun _ => givesOnly_bind fun _ => givesOnly_bind fun _ => givesOnly_bind fun _ => givesOnly_bind fun _ => ?_
  suffices hframed : ∀ x, givesOnly (fun p : Job × Ctl => p.1.unrun) (framed x) by
    split <;> exact givesOnly_bind hframed
  intro x
  unfold framed
  extract_lets ps zero blank paged m1 copy m2 j listed windowed
  have hj : j.unrun := ⟨rfl, rfl⟩
  have hlisted : ∀ cmds, givesOnly (fun p : Job × Ctl => p.1.unrun) (listed cmds) := by
    intro cmds
    unfold listed
    extract_lets streamed checked
    have hstreamed : ∀ ss, givesOnly (fun p : Job × Ctl => p.1.unrun) (streamed ss) := by
      intro ss
      unfold streamed
      extract_lets j' pinned limited
      have hpinned : ∀ c, givesOnly (fun p : Job × Ctl => p.1.unrun) (pinned c) :=
        fun c => givesOnly_bind fun _ => givesOnly_pure hj
      have hlimited : ∀ u, givesOnly (fun p : Job × Ctl => p.1.unrun) (limited u) :=
        fun u => givesOnly_bind fun _ => givesOnly_ite (givesOnly_bind hpinned) (givesOnly_bind hpinned)
      exact givesOnly_bind fun _ => givesOnly_ite (givesOnly_bind hlimited) (hlimited ())
    have hchecked : ∀ u, givesOnly (fun p : Job × Ctl => p.1.unrun) (checked u) := by
      intro u
      unfold checked
      split
      · exact givesOnly_bind hstreamed
      · exact givesOnly_ite (givesOnly_bind hstreamed) (givesOnly_bind hstreamed)
    exact givesOnly_ite (givesOnly_bind hchecked) (hchecked ())
  have hwindowed : ∀ u, givesOnly (fun p : Job × Ctl => p.1.unrun) (windowed u) := by
    intro u
    refine givesOnly_bind fun _ => givesOnly_bind fun _ => ?_
    split <;> exact givesOnly_bind hlisted
  exact givesOnly_bind fun _ => givesOnly_bind fun _ => givesOnly_bind fun _ => givesOnly_ite (givesOnly_bind hwindowed) (hwindowed ())

end Sys2Proof.Machine
end

section
/-! The requests on jobs: a job that is admitted, at once or when every other member has, and the runs and ends that are asked for
(13 R406, R407, R409, R419; 14 R440). -/

namespace Sys2Proof.Machine

/-! ### JOB_SUBMIT (R406, R440) -/

/-- The gate of JOB_SUBMIT: Lee mode keeps few jobs (R461). -/
def submitGate (c : Ctl) (r : Req) (x : Submit) : Gate :=
  { plainGate 0x10 4 (r.len == 16) (r.zeros 9 7) with
    mode := if c.service.lee = true ∧ leeKeeps c x.bundleNo x.index x.cls = false then KS.leeMode else .ok }

/-- The gate of a request that its own command serves where it waits first (R402). -/
def Gate.asking (g : Gate) (i : Instr) : Gate := { g with again := some i }

theorem accept_asking (g : Gate) (i : Instr) (r : Req) (c : Ctl) : accept (g.asking i) r c = accept g r c := rfl

/-- What a built job answers: a group job waits for the other members first (R440). -/
def answerBuilt (r : Req) (j : Job) (c : Ctl) : Ctl :=
  if j.grouped ∧ c.peersUp ≠ [] then
    enterJob { j with admitReq := some r, admitLeft := c.peersUp }
      (relayConfig 0x10 j.no (r.payload ++ toBe 16 r.addr ++ toBe 2 r.udp) c)
  else answer r 0x10 .ok (toBe 2 j.no) (grantCredits (admitJob j c))

/-- A served JOB_SUBMIT whose job is built reads its bundle and answers. -/
theorem submitJob_of_built {r : Req} {suspends : Nat × Nat} {dead : List Nat} {m : Mem} {c c' : Ctl} {j : Job}
    (hserved : served (submitGate c r (submitOf r suspends dead)) r c)
    (hbuilt : buildJob m (submitOf r suspends dead) (accept (submitGate c r (submitOf r suspends dead)) r c) = .ok (j, c')) :
    ∃ spans, submitJob r suspends dead m c = answerBuilt r j (readBundle m spans c') := by
  unfold submitJob
  extract_lets x mode
  have hgate : { plainGate 0x10 4 (r.len == 16) (r.zeros 9 7) with mode := mode, again := some (.jobSubmit r suspends dead) } =
      (submitGate c r x).asking (.jobSubmit r suspends dead) := by
    simp [Gate.asking, submitGate, mode]
  have hasked : served ((submitGate c r x).asking (.jobSubmit r suspends dead)) r c := hserved
  rw [hgate, gate_of_passes _ hasked, accept_asking]
  dsimp only [x]
  rw [hbuilt]
  exact ⟨_, rfl⟩

/-- The job that a MODE 0 admission starts runs from the start of its list; any other waits for a run (R406, R409). -/
theorem startJob_job? {c : Ctl} {j : Job} (hj : c.job? j.no = some j) : c.Unwinds (startJob j c) ∧
    (j.mode ≠ 0 → (startJob j c).job? j.no = some j) ∧
    (j.mode = 0 → ∃ run now, (startJob j c).job? j.no = some (j.withRun run now)) := by
  have hcount := (Ctl.Unwinds.refl c).count .svcAdmit j.cls 1
  have hcounted : (count .svcAdmit j.cls 1 c).job? j.no = some j := (Ctl.job?_of_jobs (count_jobs ..) _).trans hj
  unfold startJob
  extract_lets counted
  by_cases hmode : j.mode = 0
  · rw [if_pos hmode]
    obtain ⟨hbegun, -, -, -, hk⟩ := beginRun_leaves hcounted j.submitter counted.clk.device
    exact ⟨hcount.trans hbegun, fun h => absurd hmode h, fun _ => ⟨_, _, hk⟩⟩
  · rw [if_neg hmode]
    exact ⟨hcount, fun _ => hcounted, fun h => absurd h hmode⟩

section
variable {s : State} {r : Req} {suspends : Nat × Nat} {dead : List Nat} {c' : Ctl} {j : Job}
  (hserved : served (submitGate s.ctl r (submitOf r suspends dead)) r s.ctl)
  (hbuilt : buildJob s.mem (submitOf r suspends dead) (accept (submitGate s.ctl r (submitOf r suspends dead)) r s.ctl) = .ok (j, c'))
  (hnew : c'.job? j.no = none)
include hserved hbuilt hnew

/-- An admission that waits for no other member makes the job, and starts the run of MODE 0 (R406). -/
theorem exec_jobSubmit_admits (halone : j.grouped = false ∨ c'.peersUp = []) (hsa : c'.proto.sa.getD r.port false = true) :
    completes (.jobSubmit r suspends dead) s fun t => replies { s with ctl := c' } t r 0x10 .ok [toBe 2 j.no] ∧
      t.pending = s.pending ∧ (j.mode ≠ 0 → withJob t j.no fun k => k = j) ∧
      (j.mode = 0 → withJob t j.no fun k => ∃ run now, k = j.withRun run now) := by
  obtain ⟨spans, hrun⟩ := submitJob_of_built hserved hbuilt
  have hread := (Ctl.Spares.refl c').readBundle s.mem spans
  have hadmitted : ¬(j.grouped = true ∧ (readBundle s.mem spans c').peersUp ≠ []) := by
    rw [hread.peersUp]
    rintro ⟨hgrouped, hpeers⟩
    obtain halone | halone := halone
    · simp [hgrouped] at halone
    · exact hpeers halone
  rw [answerBuilt, if_neg hadmitted] at hrun
  have hentered : (enterJob j (readBundle s.mem spans c')).job? j.no = some j :=
    enterJob_job? ((Ctl.job?_of_jobs hread.jobs _).trans hnew)
  obtain ⟨hstarted, hidle, hruns⟩ := startJob_job? hentered
  have hgranted := (Ctl.Spares.refl (admitJob j (readBundle s.mem spans c'))).grantCredits
  have hunwinds : c'.Unwinds (grantCredits (admitJob j (readBundle s.mem spans c'))) :=
    ((hread.toUnwinds.of_eq (d := enterJob j (readBundle s.mem spans c')) rfl rfl).trans hstarted).trans hgranted.toUnwinds
  have hjobs : (submitJob r suspends dead s.mem s.ctl).jobs = (admitJob j (readBundle s.mem spans c')).jobs := by
    rw [hrun, answer_jobs, hgranted.jobs]
  refine ⟨s.run (submitJob r suspends dead), rfl, replies_of_answer (s := { s with ctl := c' }) hunwinds.sent ?_ ?_, rfl,
    fun hmode => withJob_run ((Ctl.job?_of_jobs hjobs _).trans (hidle hmode)) rfl, fun hmode => ?_⟩
  · rw [hunwinds.sa, hsa]
  · exact hrun ▸ State.run_unwinds ..
  · obtain ⟨run, now, hk⟩ := hruns hmode
    exact withJob_run ((Ctl.job?_of_jobs hjobs _).trans hk) ⟨run, now, rfl⟩

/-- A group job stands among the jobs, not admitted yet, until every other member in service has admitted it (R440). -/
theorem exec_jobSubmit_awaits (hgrouped : j.grouped = true) (hpeers : c'.peersUp ≠ []) :
    completes (.jobSubmit r suspends dead) s fun t => t.pending = s.pending ∧ t.ctl.admitted j.no = none ∧
      withJob t j.no fun k => k = { j with admitReq := some r, admitLeft := c'.peersUp } := by
  obtain ⟨spans, hrun⟩ := submitJob_of_built hserved hbuilt
  have hread := (Ctl.Spares.refl c').readBundle s.mem spans
  rw [answerBuilt, hread.peersUp, if_pos ⟨hgrouped, hpeers⟩] at hrun
  have hrelayed := hread.relayConfig 0x10 j.no (r.payload ++ toBe 16 r.addr ++ toBe 2 r.udp) 0
  have hentered : (submitJob r suspends dead s.mem s.ctl).job? j.no = some { j with admitReq := some r, admitLeft := c'.peersUp } := by
    rw [hrun]
    exact enterJob_job? (j := { j with admitReq := some r, admitLeft := c'.peersUp }) ((Ctl.job?_of_jobs hrelayed.jobs _).trans hnew)
  refine ⟨s.run (submitJob r suspends dead), rfl, rfl, ?_, withJob_run hentered rfl⟩
  rw [Ctl.admitted, State.run_job?, hentered]
  rfl

end

/-! ### The requests (O25) -/

/-- The first run of a job runs; it starts from the afresh state of the stream executor. -/
theorem Job.withRun_of_idle {j : Job} (h : j.running = none) (run : Run) (now : Nat) : j.withRun run now =
    { j with running := some run, runSeq := j.runSeq + 1, exec := j.exec.afresh, saved := [], quantumUsed := 0, moved := now } := by
  rw [withRun, h]
  rfl

/-- A run of a job that runs is pending behind it. -/
theorem Job.withRun_of_running {j : Job} {x : Run} (h : j.running = some x) (run : Run) (now : Nat) :
    j.withRun run now = { j with waiting := some run, runSeq := j.runSeq + 1 } := by
  rw [withRun, h]
  rfl

/-- Settles O25: JOB_SUBMIT makes the job that its checks build, JOB_RUN adds a run to it, and JOB_ABORT and JOB_END end it where
nothing of it has still to stop. -/
theorem jobRequestsTakeEffect : Obligations.JobRequestsTakeEffect := by
  intro s r hs c no
  refine ⟨?_, fun j hj hfrozen he hadmit => ⟨?_, ?_, ?_⟩⟩
  · intro suspends dead x mode gs j c' hserved hbuilt hnew same
    obtain ⟨hrunning, hexec⟩ : j.unrun := buildJob_unrun _ _ _ _ hbuilt
    refine ⟨fun halone hsa => ?_, fun hgrouped hpeers => ?_⟩
    · obtain ⟨t, ht, hreplies, hpending, hidle, hruns⟩ := exec_jobSubmit_admits hserved hbuilt hnew halone hsa
      refine ⟨t, ht, hreplies, hpending, ?_⟩
      by_cases hmode : j.mode = 0
      · obtain ⟨k, hk, run, now, rfl⟩ := hruns hmode
        refine ⟨_, hk, ?_⟩
        rw [Job.withRun_of_idle hrunning, hexec]
        exact ⟨⟨rfl, rfl, rfl, rfl, rfl, rfl⟩, fun h => absurd hmode h, fun _ _ => ⟨rfl, rfl⟩⟩
      · obtain ⟨k, hk, rfl⟩ := hidle hmode
        exact ⟨_, hk, ⟨rfl, rfl, rfl, rfl, rfl, rfl⟩, fun _ => rfl, fun h => absurd h hmode⟩
    · obtain ⟨t, ht, hpending, hadmitted, k, hk, rfl⟩ := exec_jobSubmit_awaits hserved hbuilt hnew hgrouped hpeers
      exact ⟨t, ht, hpending, hadmitted, _, hk, ⟨rfl, rfl, rfl, rfl, rfl, rfl⟩, rfl, rfl, rfl⟩
  · intro hserved hmode hwaiting hroom hlead run
    obtain ⟨t, ht, hreplies, hmem, hidle, k, hk, rfl⟩ :=
      exec_jobRun_of_served hj hfrozen he hadmit hs hserved hmode hwaiting hroom hlead
    refine ⟨t, ht, hreplies, hmem, hidle, _, hk, ?_⟩
    cases hrunning : j.running with
    | none =>
      rw [Job.withRun_of_idle hrunning]
      exact ⟨rfl, fun _ => ⟨rfl, rfl⟩, nofun⟩
    | some y =>
      rw [Job.withRun_of_running hrunning]
      exact ⟨rfl, nofun, fun _ h => ⟨hrunning.trans h, rfl, rfl⟩⟩
  · intro hserved habort
    refine ⟨exec_jobAbort_off_plane hj hfrozen he hadmit hserved habort, fun hholder => ⟨s.run (abortJob r), rfl, ?_⟩⟩
    have hrun := abortJob_of_served hj hfrozen he hadmit hserved habort s.mem
    have hholds : s.ctl.plane.holder = some j.no := by rw [Ctl.no_of_job? hj, hholder]
    exact waits_of_mapJob hs hj (mark := Job.aborting r) (fun _ => rfl) (hrun.trans (if_neg (not_not_intro hholds)))
  · intro hserved hend
    refine ⟨exec_jobEnd_between_runs hj hfrozen he hadmit hserved hend, fun hrunning => ⟨s.run (endJobRequest r), rfl, ?_⟩⟩
    have hrun := endJobRequest_of_served hj hfrozen he hadmit hserved hend s.mem
    have hruns : ¬j.running.isNone := by simpa [Option.isSome_iff_ne_none] using hrunning
    exact waits_of_mapJob hs hj (mark := Job.ending r) (fun _ => rfl) (hrun.trans (if_neg hruns))

end Sys2Proof.Machine
end

section
/-! PROOF of O4. Every step leaves the memories in canonical form and no write of a command waiting (08 R233, R235; 11 R351). -/

namespace Sys2Proof.Machine

/-- A command's writes keep the canonical form, and its end leaves none of them waiting. -/
theorem State.ready_run {s : State} (hs : s.mem.wf = true) (f : Mem → Ctl → Ctl) : (s.run f).ready :=
  ⟨Mem.apply_wf hs _, State.run_wq f s⟩

theorem ready_of_exec {i : Instr} {s t : State} (hs : s.mem.wf = true) (h : exec i s = .next t) : t.ready := by
  obtain ⟨f, hf⟩ := exec_runs i
  obtain rfl := Host.Outcome.next.inj ((hf s).symm.trans h)
  exact State.ready_run hs f

/-! ### A nanosecond without a command -/

@[simp] theorem flushWear_wq (c : Ctl) : (flushWear c).wq = c.wq := by
  unfold flushWear
  split <;> simp

@[simp] theorem tickPlane_wq (c : Ctl) : (tickPlane c).wq = c.wq := by
  unfold tickPlane
  extract_lets f n clk clocked waiting draining
  have hwaiting : waiting.wq = c.wq := by
    unfold waiting
    split
    · exact count_wq ..
    · rfl
  have hdraining : draining.wq = c.wq := by
    unfold draining
    split
    · rw [count_wq, hwaiting]
    · exact hwaiting
  split
  · rfl
  · split <;> exact hdraining

@[simp] theorem tickTimes_wq (c : Ctl) : (tickTimes c).wq = c.wq := by
  unfold tickTimes
  extract_lets up quieted timed
  have htimed : timed.wq = c.wq := by
    unfold timed
    split
    · simp [quieted]
    · split <;> simp [quieted]
  split <;> simp [htimed]

@[simp] theorem tickAll_wq (c : Ctl) : (tickAll c).wq = c.wq := by
  have hclocks : (tickClocks c).wq = c.wq := rfl
  unfold tickAll
  extract_lets ticked
  have hticked : ticked.wq = c.wq := by simp [ticked, hclocks]
  split
  · rfl
  · split <;> simp [hticked]

theorem State.ready_tick {s : State} (hs : s.ready) : s.tick.ready :=
  ⟨hs.1, (tickAll_wq s.ctl).trans hs.2⟩

/-- What the block does while no command waits: a nanosecond passes, or firmware runs a request's command. -/
theorem State.ready_idle {s t : State} (hs : s.ready) (h : s.idle exec = .next t) : t.ready := by
  unfold State.idle at h
  split at h
  · obtain rfl := Host.Outcome.next.inj h
    exact State.ready_tick hs
  · split at h
    · split at h
      · rename_i hrun
        obtain rfl := Host.Outcome.next.inj h
        have hran := ready_of_exec (by exact hs.1) hrun
        exact ⟨hran.1, hran.2⟩
      · cases h
      · cases h
    · obtain rfl := Host.Outcome.next.inj h
      exact State.ready_tick hs

/-- Settles O4: a step runs the command at the front of the queue, or idles; both keep it. -/
theorem stepKeepsReady : Obligations.StepKeepsReady := by
  intro s t hs h
  unfold step at h
  split at h
  · exact State.ready_idle hs h
  · exact ready_of_exec (by exact hs.1) h

end Sys2Proof.Machine
end

section
/-! SUPPORT. What a read of a word looks at, and what a run of writes does to it (08 R233 to R235). -/

namespace Sys2Proof.Machine

/-- Writes that name no tag of word `w` leave it. -/
theorem Mem.tagAt_apply {m : Mem} {ws : List Wr} {w : Nat} (hw : ∀ v, Wr.tag w v ∉ ws) : (m.apply ws).tagAt w = m.tagAt w := by
  induction ws generalizing m with
  | nil => rfl
  | cons x ws ih =>
    rw [Mem.apply_cons, ih fun v hv => hw v (List.mem_cons_of_mem _ hv), Mem.tagAt_write1]
    cases x with
    | tag k v => exact if_neg fun e => hw v (by simp [e])
    | data _ _ => rfl
    | flaw _ _ => rfl

/-- Writes that name no error of a symbol leave it. -/
theorem Mem.flawAt_apply {m : Mem} {ws : List Wr} {w i : Nat} (hw : ∀ v, Wr.flaw (36 * w + i) v ∉ ws) :
    (m.apply ws).flawAt w i = m.flawAt w i := by
  induction ws generalizing m with
  | nil => rfl
  | cons x ws ih =>
    rw [Mem.apply_cons, ih fun v hv => hw v (List.mem_cons_of_mem _ hv), Mem.flawAt, Mem.flaw_write1]
    cases x with
    | flaw k v => exact if_neg fun e => hw v (by simp [e])
    | data _ _ => rfl
    | tag _ _ => rfl

/-- A run of bytes written from address `a`. -/
theorem Mem.byteAt_apply_run (m : Mem) (a : Nat) (f : Nat → Byte) (n b : Nat) :
    (m.apply ((List.range n).map fun i => Wr.data (a + i) (f i))).byteAt b =
      if a ≤ b ∧ b < a + n then f (b - a) else m.byteAt b := by
  induction n with
  | zero => rw [if_neg (by omega)]; rfl
  | succ n ih =>
    rw [List.range_succ, List.map_append, Mem.apply_append, List.map_singleton, Mem.apply_cons, Mem.apply_nil, Mem.byteAt_write1]
    dsimp only
    rw [ih]
    by_cases hb : b = a + n
    · subst hb
      rw [if_pos rfl, if_pos (by omega), Nat.add_sub_cancel_left]
    · rw [if_neg hb]
      exact if_congr (by omega) rfl rfl

/-- The errors of a word's symbols taken away. -/
theorem Mem.flawAt_apply_clear (m : Mem) (w n i : Nat) (hi : i < n) :
    (m.apply ((List.range n).map fun i => Wr.flaw (36 * w + i) 0)).flawAt w i = 0 := by
  induction n with
  | zero => omega
  | succ n ih =>
    rw [List.range_succ, List.map_append, Mem.apply_append, List.map_singleton, Mem.apply_cons, Mem.apply_nil, Mem.flawAt, Mem.flaw_write1]
    dsimp only
    split
    · rfl
    · exact ih (by omega)

/-- A read looks at the word's bytes, its tag and the errors of its symbols, and at nothing else. -/
theorem Mem.readWord_congr {m m' : Mem} {w : Nat} (hbytes : ∀ i < 32, m'.byteAt (32 * w + i) = m.byteAt (32 * w + i))
    (htag : m'.tagAt w = m.tagAt w) (hflaws : ∀ i < 36, m'.flawAt w i = m.flawAt w i) : m'.readWord w = m.readWord w := by
  have hdata : ((List.range 32).map fun i => m'.byteAt (32 * w + i)) = (List.range 32).map fun i => m.byteAt (32 * w + i) :=
    List.map_congr_left fun i hi => hbytes i (List.mem_range.mp hi)
  have hraw : m'.rawData w = m.rawData w :=
    List.map_congr_left fun i hi => by
      have := List.mem_range.mp hi
      rw [hbytes i this, hflaws i (by omega)]
  have herrs : m'.errors w = m.errors w :=
    congrArg List.length (List.filter_congr fun i hi => by rw [hflaws i (List.mem_range.mp hi)])
  have hseed : ((List.range 36).map fun i => m'.flawAt w i) = (List.range 36).map fun i => m.flawAt w i :=
    List.map_congr_left fun i hi => hflaws i (List.mem_range.mp hi)
  unfold Mem.readWord
  rw [hdata, hraw, herrs, hseed, htag, hflaws 35 (by decide)]

end Sys2Proof.Machine
end

section
/-! PROOF of O14, O15 and O16. Reads and writes of stored words (08 R233 to R238, R245, R246). -/

namespace Sys2Proof.Machine

/-- The data of a word whose symbols are right. -/
def Mem.wordData (m : Mem) (w : Nat) : List Byte := (List.range 32).map fun i => m.byteAt (32 * w + i)

theorem badTag_of_legalTag {t : Nat} (h : legalTag t) : (decide (16 ≤ t) || t % 8 == 7) = false := by
  obtain ⟨hlt, hformat⟩ := h
  simp [hlt, hformat]

/-- POISON set over a tag byte, whose FORMAT is kept unless it is reserved (R234, R236). -/
def poisonedTag (t : Nat) : Nat := (if t % 8 = 7 then 0 else t % 8) + 8

theorem legalTag_poisonedTag (t : Nat) : legalTag (poisonedTag t) := by
  unfold legalTag poisonedTag
  split <;> omega

section
variable {m : Mem} {w : Nat} (htag : legalTag (m.tagAt w).toNat)
include htag

theorem Mem.readWord_of_no_error (h : m.errors w = 0) :
    m.readWord w = { data := m.wordData w, tag := (m.tagAt w).toNat, found := .clean } := by
  simp only [Mem.readWord, h, badTag_of_legalTag htag, if_true, Bool.false_eq_true, if_false]
  rfl

theorem Mem.readWord_of_one_error (h : m.errors w = 1) :
    m.readWord w = { data := m.wordData w, tag := (m.tagAt w).toNat, found := .corrected } := by
  simp only [Mem.readWord, h, badTag_of_legalTag htag, one_ne_zero, if_true, Bool.false_eq_true, if_false]
  rfl
end

theorem Mem.readWord_of_two_errors {m : Mem} {w : Nat} (h : m.errors w = 2) : m.readWord w =
    { data := m.rawData w, tag := poisonedTag ((m.tagAt w).toNat ^^^ (m.flawAt w 35).toNat), found := .uncorrectable } := by
  simp only [Mem.readWord, h, OfNat.ofNat_ne_zero, OfNat.ofNat_ne_one, if_true, if_false]
  rfl

/-- Settles O14, with the three reads of R234. -/
theorem readCorrectsOneSymbol : Obligations.ReadCorrectsOneSymbol := by
  intro m w htag
  refine ⟨m.readWord_of_no_error htag, m.readWord_of_one_error htag, fun h => ?_⟩
  rw [Mem.readWord_of_two_errors h]
  exact ⟨decide_eq_true (Nat.le_add_left ..), rfl, rfl⟩

/-! ### A whole word -/

theorem data_mem_wholeWord {w tag a : Nat} {data : List Byte} {v : Byte} (h : Wr.data a v ∈ wholeWord w data tag) :
    32 * w ≤ a ∧ a < 32 * w + 32 := by
  simp only [wholeWord, List.mem_append, List.mem_map, List.mem_range, List.mem_singleton, reduceCtorEq, and_false,
    exists_false, or_false, Wr.data.injEq] at h
  omega

theorem tag_mem_wholeWord {w tag k : Nat} {data : List Byte} {v : Byte} (h : Wr.tag k v ∈ wholeWord w data tag) : k = w := by
  simp only [wholeWord, List.mem_append, List.mem_map, List.mem_range, List.mem_singleton, reduceCtorEq, and_false,
    exists_false, or_false, false_or, Wr.tag.injEq] at h
  exact h.1

theorem flaw_mem_wholeWord {w tag k : Nat} {data : List Byte} {v : Byte} (h : Wr.flaw k v ∈ wholeWord w data tag) :
    36 * w ≤ k ∧ k < 36 * w + 36 := by
  simp only [wholeWord, List.mem_append, List.mem_map, List.mem_range, List.mem_singleton, reduceCtorEq, and_false,
    exists_false, false_or, Wr.flaw.injEq] at h
  omega

/-- Another word is read as before. -/
theorem Mem.readWord_wholeWord_ne (m : Mem) {w w' : Nat} (h : w' ≠ w) (data : List Byte) (tag : Nat) :
    (m.apply (wholeWord w data tag)).readWord w' = m.readWord w' := by
  refine Mem.readWord_congr (fun i hi => Mem.byteAt_apply fun v hv => ?_) (Mem.tagAt_apply fun v hv => h (tag_mem_wholeWord hv))
    fun i hi => Mem.flawAt_apply fun v hv => ?_
  · have := data_mem_wholeWord hv
    omega
  · have := flaw_mem_wholeWord hv
    omega

theorem Mem.byteAt_wholeWord (m : Mem) (w : Nat) (data : List Byte) (tag : Nat) {i : Nat} (hi : i < 32) :
    (m.apply (wholeWord w data tag)).byteAt (32 * w + i) = data.getD i 0 := by
  rw [wholeWord, Mem.apply_append, Mem.apply_append, Mem.byteAt_apply (by simp), Mem.byteAt_apply (by simp),
    Mem.byteAt_apply_run m (32 * w) fun i => data.getD i 0, if_pos (by omega), Nat.add_sub_cancel_left]

theorem Mem.tagAt_wholeWord (m : Mem) (w : Nat) (data : List Byte) (tag : Nat) :
    (m.apply (wholeWord w data tag)).tagAt w = byte tag := by
  rw [wholeWord, Mem.apply_append, Mem.apply_append, Mem.tagAt_apply (by simp), Mem.apply_cons, Mem.apply_nil, Mem.tagAt_write1]
  exact if_pos rfl

theorem Mem.errors_eq_zero {m : Mem} {w : Nat} (h : ∀ i < 36, m.flawAt w i = 0) : m.errors w = 0 := by
  simpa [Mem.errors] using h

theorem Mem.errors_wholeWord (m : Mem) (w : Nat) (data : List Byte) (tag : Nat) :
    (m.apply (wholeWord w data tag)).errors w = 0 := by
  refine Mem.errors_eq_zero fun i hi => ?_
  rw [wholeWord, Mem.apply_append]
  exact Mem.flawAt_apply_clear _ w 36 i hi

theorem Mem.wordData_wholeWord (m : Mem) (w : Nat) {data : List Byte} (tag : Nat) (hlen : data.length = 32) :
    (m.apply (wholeWord w data tag)).wordData w = data := by
  refine List.ext_getElem (by simp [Mem.wordData, hlen]) fun i hi hi' => ?_
  simp [Mem.wordData, Mem.byteAt_wholeWord m w data tag (hlen ▸ hi'), hi']

/-- A word as written is read as written: its data, its tag and a fresh check code (R235). -/
theorem Mem.readWord_wholeWord (m : Mem) (w : Nat) {data : List Byte} {tag : Nat} (hlen : data.length = 32) (htag : legalTag tag) :
    (m.apply (wholeWord w data tag)).readWord w = { data := data, tag := tag, found := .clean } := by
  have htagAt : ((m.apply (wholeWord w data tag)).tagAt w).toNat = tag := by
    rw [Mem.tagAt_wholeWord, toNat_byte, Nat.mod_eq_of_lt (by have := htag.1; omega)]
  rw [Mem.readWord_of_no_error (by rwa [htagAt]) (Mem.errors_wholeWord ..), htagAt, Mem.wordData_wholeWord m w tag hlen]

/-- Settles O15. -/
theorem wholeWordWriteIsReadBack : Obligations.WholeWordWriteIsReadBack := fun m w tag data hlen htag =>
  ⟨fun hwf => Mem.apply_wf hwf _, m.readWord_wholeWord w hlen htag, fun _ h => m.readWord_wholeWord_ne h data tag⟩

/-! ### Part of a word -/

/-- What a write of part of a word does before it puts its bytes in: a word that was read with an error is written anew as it was
delivered (R235, R238). -/
def mendWord (m : Mem) (w : Nat) : List Wr := if (m.readWord w).found = .clean then [] else writeBack m w

theorem partWord_eq (m : Mem) (a : Nat) (data : List Byte) :
    partWord m a data = mendWord m (a / 32) ++ (List.range data.length).map fun i => Wr.data (a + i) (data.getD i 0) := by
  unfold partWord mendWord writeBack
  dsimp only
  split <;> rfl

/-- A word with at most two errors is delivered in 32 bytes, with a legal tag. -/
theorem Mem.readWord_legal {m : Mem} {w : Nat} (htag : legalTag (m.tagAt w).toNat) (herrs : m.errors w ≤ 2) :
    (m.readWord w).data.length = 32 ∧ legalTag (m.readWord w).tag := by
  have hcases : m.errors w = 0 ∨ m.errors w = 1 ∨ m.errors w = 2 := by omega
  obtain h | h | h := hcases
  · rw [Mem.readWord_of_no_error htag h]
    exact ⟨by simp [Mem.wordData], htag⟩
  · rw [Mem.readWord_of_one_error htag h]
    exact ⟨by simp [Mem.wordData], htag⟩
  · rw [Mem.readWord_of_two_errors h]
    exact ⟨by simp [Mem.rawData], legalTag_poisonedTag _⟩

/-- A word that is found clean has no error. -/
theorem Mem.errors_of_clean {m : Mem} {w : Nat} (htag : legalTag (m.tagAt w).toNat) (herrs : m.errors w ≤ 2)
    (h : (m.readWord w).found = .clean) : m.errors w = 0 := by
  have hcases : m.errors w = 0 ∨ m.errors w = 1 ∨ m.errors w = 2 := by omega
  obtain h0 | h1 | h2 := hcases
  · exact h0
  · rw [Mem.readWord_of_one_error htag h1] at h
    cases h
  · rw [Mem.readWord_of_two_errors h2] at h
    cases h

/-- A word that is mended holds what it was delivered as, without an error. -/
theorem Mem.mendWord_mends {m : Mem} {w : Nat} (htag : legalTag (m.tagAt w).toNat) (herrs : m.errors w ≤ 2) :
    (m.apply (mendWord m w)).errors w = 0 ∧ ((m.apply (mendWord m w)).tagAt w).toNat = (m.readWord w).tag ∧
      (m.apply (mendWord m w)).wordData w = (m.readWord w).data := by
  unfold mendWord
  split
  · rename_i hclean
    have h := Mem.errors_of_clean htag herrs hclean
    rw [Mem.apply_nil, Mem.readWord_of_no_error htag h]
    exact ⟨h, rfl, rfl⟩
  · obtain ⟨hlen, hlegal⟩ := Mem.readWord_legal htag herrs
    refine ⟨Mem.errors_wholeWord .., ?_, Mem.wordData_wholeWord m w _ hlen⟩
    rw [writeBack, Mem.tagAt_wholeWord, toNat_byte, Nat.mod_eq_of_lt (by have := hlegal.1; omega)]

theorem Mem.readWord_mendWord_ne (m : Mem) {w w' : Nat} (h : w' ≠ w) : (m.apply (mendWord m w)).readWord w' = m.readWord w' := by
  unfold mendWord
  split
  · rfl
  · exact m.readWord_wholeWord_ne h _ _

/-- The bytes of a run. -/
def runBytes (a : Nat) (data : List Byte) : List Wr := (List.range data.length).map fun i => Wr.data (a + i) (data.getD i 0)

theorem Mem.wordData_runBytes (m : Mem) (w o : Nat) (data : List Byte) (ho : o + data.length ≤ 32) :
    (m.apply (runBytes (32 * w + o) data)).wordData w =
      (m.wordData w).take o ++ data ++ (m.wordData w).drop (o + data.length) := by
  have hlen : (m.wordData w).length = 32 := by simp [Mem.wordData]
  refine List.ext_getElem (by simp [Mem.wordData]; omega) fun i hi hi' => ?_
  have hi32 : i < 32 := by simpa [Mem.wordData] using hi
  simp only [Mem.wordData, List.getElem_map, List.getElem_range, runBytes,
    Mem.byteAt_apply_run m (32 * w + o) fun i => data.getD i 0]
  by_cases hlow : i < o
  · rw [if_neg (by omega), List.getElem_append_left (by simp; omega), List.getElem_append_left (by simp; omega)]
    simp
  · by_cases hmid : i < o + data.length
    · rw [if_pos (by omega), List.getElem_append_left (by simp; omega), List.getElem_append_right (by simp; omega)]
      have hat : 32 * w + i - (32 * w + o) = i - min o 32 := by omega
      have hin : i - min o 32 < data.length := by omega
      simp [hat, hin]
    · rw [if_neg (by omega), List.getElem_append_right (by simp; omega)]
      have hat : o + data.length + (i - (min o 32 + data.length)) = i := by omega
      simp [hat]

/-- Bytes put into a word without an error are all that a read of it sees changed. -/
theorem Mem.readWord_runBytes {m : Mem} {w o : Nat} {data : List Byte} (herrs : m.errors w = 0) (htag : legalTag (m.tagAt w).toNat)
    (ho : o + data.length ≤ 32) : (m.apply (runBytes (32 * w + o) data)).readWord w =
      { data := (m.wordData w).take o ++ data ++ (m.wordData w).drop (o + data.length), tag := (m.tagAt w).toNat, found := .clean } := by
  have htagAt : (m.apply (runBytes (32 * w + o) data)).tagAt w = m.tagAt w := Mem.tagAt_apply (by simp [runBytes])
  have hflaws : ∀ i, (m.apply (runBytes (32 * w + o) data)).flawAt w i = m.flawAt w i := fun i => Mem.flawAt_apply (by simp [runBytes])
  have herrs' : (m.apply (runBytes (32 * w + o) data)).errors w = 0 := by rw [← herrs, Mem.errors, Mem.errors]; simp [hflaws]
  rw [Mem.readWord_of_no_error (by rwa [htagAt]) herrs', htagAt, Mem.wordData_runBytes m w o data ho]

theorem Mem.readWord_runBytes_ne (m : Mem) {w w' o : Nat} {data : List Byte} (h : w' ≠ w) (ho : o + data.length ≤ 32) :
    (m.apply (runBytes (32 * w + o) data)).readWord w' = m.readWord w' := by
  refine Mem.readWord_congr (fun i hi => ?_) (Mem.tagAt_apply (by simp [runBytes])) fun i _ => Mem.flawAt_apply (by simp [runBytes])
  rw [runBytes, Mem.byteAt_apply_run m (32 * w + o) fun i => data.getD i 0, if_neg (by omega)]

/-- Settles O16: the word is mended first, and then takes the bytes. -/
theorem partWordWriteKeepsFormatAndPoison : Obligations.PartWordWriteKeepsFormatAndPoison := by
  intro m w o data htag herrs ho hdata
  have hw : (32 * w + o) / 32 = w := by omega
  have hsplit : m.apply (partWord m (32 * w + o) data) = (m.apply (mendWord m w)).apply (runBytes (32 * w + o) data) := by
    rw [partWord_eq, hw, Mem.apply_append, runBytes]
  obtain ⟨hmended, htagAt, hword⟩ := Mem.mendWord_mends htag herrs
  refine ⟨?_, fun w' h => ?_⟩
  · have hlegal := (Mem.readWord_legal htag herrs).2
    rw [hsplit, Mem.readWord_runBytes hmended (by rwa [htagAt]) ho, hword, htagAt]
  · rw [hsplit, Mem.readWord_runBytes_ne _ h ho, Mem.readWord_mendWord_ne m h]

end Sys2Proof.Machine
end

section
/-! PROOF of O17. The bank maps of the stores (08 R231, R232). -/

namespace Sys2Proof.Machine

theorem bits_lt (n hi lo : Nat) : bits n hi lo < 2 ^ (hi + 1 - lo) := Nat.mod_lt _ (by positivity)

/-- A number is its low bits and the rest. -/
theorem eq_of_low_bits {k w w' : Nat} (hlow : w % 2 ^ k = w' % 2 ^ k) (hhigh : w / 2 ^ k = w' / 2 ^ k) : w = w' := by
  rw [← Nat.div_add_mod w (2 ^ k), ← Nat.div_add_mod w' (2 ^ k), hlow, hhigh]

/-- A bank number folds higher bits of the word's number into its low ones: with the row the same, so are the low bits. -/
theorem low_of_xor_eq {a a' b b' : Nat} (h : a ^^^ b = a' ^^^ b') (hb : b = b') : a = a' := Nat.xor_left_inj.mp (hb ▸ h)

theorem bits_of_row {w w' k : Nat} (hrow : w / 2 ^ k = w' / 2 ^ k) (hi : Nat) {lo : Nat} (hk : k ≤ lo) : bits w hi lo = bits w' hi lo := by
  have hsplit (n : Nat) : n / 2 ^ lo = n / 2 ^ k / 2 ^ (lo - k) := by
    rw [Nat.div_div_eq_div_mul, ← pow_add, Nat.add_sub_cancel' hk]
  rw [bits, bits, hsplit w, hsplit w', hrow]

theorem bankOf_tile {st : Nat} (hst : st < 16) (w : Nat) : bankOf st (32 * w) =
    (bits w 5 0 ^^^ (bits w 11 6 ^^^ bits w 17 12 ^^^ bits w 18 18), bits w 18 6) := by
  rw [bankOf, if_pos hst, Nat.mul_div_cancel_left w (by decide)]

theorem bankOf_common {st : Nat} (hst : ¬st < 16) (w : Nat) : bankOf st (32 * w) =
    (bits w 4 0 ^^^ bits w 9 5 ^^^ bits w 14 10 ^^^ bits w 19 15, bits w 19 5) := by
  rw [bankOf, if_neg hst, Nat.mul_div_cancel_left w (by decide)]

/-- The row of a word of a tile store. -/
theorem row_tile {w : Nat} (hw : w < tileBytes / 32) : bits w 18 6 = w / 2 ^ 6 ∧ w / 2 ^ 6 < 6144 := by
  simp only [tileBytes] at hw
  simp only [bits]
  omega

theorem row_common {w : Nat} (hw : w < cstBytes / 32) : bits w 19 5 = w / 2 ^ 5 ∧ w / 2 ^ 5 < 32768 := by
  simp only [cstBytes] at hw
  simp only [bits]
  omega

theorem bankOf_tile_inj {st w w' : Nat} (hst : st < 16) (hw : w < tileBytes / 32) (hw' : w' < tileBytes / 32)
    (h : bankOf st (32 * w) = bankOf st (32 * w')) : w = w' := by
  rw [bankOf_tile hst, bankOf_tile hst, Prod.mk.injEq, (row_tile hw).1, (row_tile hw').1] at h
  obtain ⟨hbank, hrow⟩ := h
  rw [bits_of_row hrow 11 le_rfl, bits_of_row hrow 17 (by decide : 6 ≤ 12), bits_of_row hrow 18 (by decide : 6 ≤ 18)] at hbank
  have hlow := low_of_xor_eq hbank rfl
  refine eq_of_low_bits (k := 6) ?_ hrow
  simpa [bits] using hlow

theorem bankOf_common_inj {st w w' : Nat} (hst : ¬st < 16) (hw : w < cstBytes / 32) (hw' : w' < cstBytes / 32)
    (h : bankOf st (32 * w) = bankOf st (32 * w')) : w = w' := by
  rw [bankOf_common hst, bankOf_common hst, Prod.mk.injEq, (row_common hw).1, (row_common hw').1] at h
  obtain ⟨hbank, hrow⟩ := h
  rw [bits_of_row hrow 9 le_rfl, bits_of_row hrow 14 (by decide : 5 ≤ 10), bits_of_row hrow 19 (by decide : 5 ≤ 15)] at hbank
  have hlow := low_of_xor_eq (low_of_xor_eq (low_of_xor_eq hbank rfl) rfl) rfl
  refine eq_of_low_bits (k := 5) ?_ hrow
  simpa [bits] using hlow

/-- Settles O17: the row gives the high bits of the word's number back, and with them the bank gives the low ones. -/
theorem bankMapsAreOneToOne : Obligations.BankMapsAreOneToOne := by
  intro st _ w hw
  by_cases hst : st < 16
  · simp only [storeBytes, if_pos hst] at hw ⊢
    refine ⟨?_, ?_, fun w' hw' h => bankOf_tile_inj hst hw hw' h⟩
    · rw [bankOf_tile hst]
      have hfold : bits w 18 18 < 2 ^ 6 := (bits_lt w 18 18).trans (by decide)
      exact Nat.xor_lt_two_pow (bits_lt w 5 0)
        (Nat.xor_lt_two_pow (Nat.xor_lt_two_pow (bits_lt w 11 6) (bits_lt w 17 12)) hfold)
    · rw [bankOf_tile hst, (row_tile hw).1]
      exact (row_tile hw).2
  · simp only [storeBytes, if_neg hst] at hw ⊢
    refine ⟨?_, ?_, fun w' hw' h => bankOf_common_inj hst hw hw' h⟩
    · rw [bankOf_common hst]
      exact Nat.xor_lt_two_pow (Nat.xor_lt_two_pow (Nat.xor_lt_two_pow (bits_lt w 4 0) (bits_lt w 9 5)) (bits_lt w 14 10))
        (bits_lt w 19 15)
    · rw [bankOf_common hst, (row_common hw).1]
      exact (row_common hw).2

end Sys2Proof.Machine
end

section
/-! PROOF of O19. The slot tags (08 R253, R256 to R258). -/

namespace Sys2Proof.Machine

theorem setTag_slotVoided (k v : Nat) (c : Ctl) (j : Nat) :
    (setTag k v c).slotVoided j = if j = k then bit v 1 else c.slotVoided j := by
  rw [Ctl.slotVoided, setTag_slotTags, SMap.get_put]
  split <;> rfl

theorem setFull_of_full {k : Nat} {c : Ctl} (h : c.slotFull k = true) : setFull k c = c := if_pos h
theorem setFull_of_empty {k : Nat} {c : Ctl} (h : c.slotFull k = false) : setFull k c = setTag k 1 c := if_neg (by simp [h])
theorem setEmpty_of_full {k : Nat} {c : Ctl} (h : c.slotFull k = true) : setEmpty k c = setTag k 0 c := if_pos h
theorem setEmpty_of_empty {k : Nat} {c : Ctl} (h : c.slotFull k = false) : setEmpty k c = c := if_neg (by simp [h])

@[simp] theorem setVoided_slotFull (k : Nat) (c : Ctl) (j : Nat) : (setVoided k c).slotFull j = (j == k || c.slotFull j) := by
  rw [setVoided, setTag_slotFull]
  by_cases h : j = k <;> simp [h, bit]

@[simp] theorem setVoided_slotVoided (k : Nat) (c : Ctl) (j : Nat) : (setVoided k c).slotVoided j = (j == k || c.slotVoided j) := by
  rw [setVoided, setTag_slotVoided]
  by_cases h : j = k <;> simp [h, bit]

/-- What a change of one slot's tag leaves: everything but the tags and their times, and the tags of the other slots; and a slot
that it leaves VOIDED is full. -/
def tagFrame (k : Nat) (c d : Ctl) : Prop :=
  { d with slotTags := c.slotTags, tagTimes := c.tagTimes } = c ∧
    (∀ j, j ≠ k → d.slotFull j = c.slotFull j ∧ d.slotVoided j = c.slotVoided j) ∧ (d.slotVoided k = true → d.slotFull k = true)

theorem tagFrame_refl {k : Nat} {c : Ctl} (h : c.slotVoided k = true → c.slotFull k = true) : tagFrame k c c :=
  ⟨rfl, fun _ _ => ⟨rfl, rfl⟩, h⟩

theorem tagFrame_setTag (k : Nat) {v : Nat} (c : Ctl) (hv : bit v 1 = true → bit v 0 = true) : tagFrame k c (setTag k v c) := by
  refine ⟨rfl, fun j hj => ?_, ?_⟩
  · rw [setTag_slotFull, setTag_slotVoided, if_neg hj, if_neg hj]
    exact ⟨rfl, rfl⟩
  · rw [setTag_slotFull, setTag_slotVoided, if_pos rfl, if_pos rfl]
    exact hv

theorem tagFrame_setFull {k : Nat} {c : Ctl} (hlegal : c.slotVoided k = true → c.slotFull k = true) : tagFrame k c (setFull k c) := by
  cases h : c.slotFull k with
  | true =>
    rw [setFull_of_full h]
    exact tagFrame_refl hlegal
  | false =>
    rw [setFull_of_empty h]
    exact tagFrame_setTag k c fun hv => by cases hv

theorem tagFrame_setEmpty {k : Nat} {c : Ctl} (hlegal : c.slotVoided k = true → c.slotFull k = true) : tagFrame k c (setEmpty k c) := by
  cases h : c.slotFull k with
  | true =>
    rw [setEmpty_of_full h]
    exact tagFrame_setTag k c fun hv => by cases hv
  | false =>
    rw [setEmpty_of_empty h]
    exact tagFrame_refl hlegal

/-- Settles O19: the four changes of R253, each a tag's new value or none. -/
theorem slotTagChanges : Obligations.SlotTagChanges := by
  intro c k hlegal
  refine ⟨⟨?_, setFull_of_full, fun h => ?_⟩, ⟨by simp, by simp⟩, ⟨?_, ?_⟩, ?_⟩
  · simp [setFull_slotFull]
  · rw [setFull_of_empty h, setTag_slotVoided, if_pos rfl]
    rfl
  · simp [setEmpty_slotFull]
  · cases h : c.slotFull k with
    | true =>
      rw [setEmpty_of_full h, setTag_slotVoided, if_pos rfl]
      rfl
    | false =>
      rw [setEmpty_of_empty h]
      exact Bool.eq_false_iff.mpr fun hvoid => absurd (hlegal hvoid) (by simp [h])
  · simp only [List.mem_cons, List.not_mem_nil, or_false, forall_eq_or_imp, forall_eq]
    exact ⟨tagFrame_setFull hlegal, tagFrame_setTag k c fun _ => rfl, tagFrame_setEmpty hlegal⟩

end Sys2Proof.Machine
end

section
/-! PROOF of O45. Write-backs of words that a read found corrected or uncorrectable, and the scrubbers of the stores and of HBM (08 R245
to R247; 11 R338, R339). -/

namespace Sys2Proof.Machine

/-! ### The write-backs and the scrubbers' places -/

/-- What the scrubbers keep: the words that wait for their write-back, and where each scrubber stands. -/
def Store.upkeep (s : Store) : List Nat × List (Nat × Nat) × Nat := (s.writeBacks, s.storeScrub, s.hbmScrub)

/-- A word joins those that wait, once. -/
def addOnce (w : Nat) (l : List Nat) : List Nat := if l.contains w then l else l ++ [w]

theorem mem_addOnce (w : Nat) (l : List Nat) : w ∈ addOnce w l := by
  unfold addOnce
  split
  · exact List.contains_iff_mem.mp ‹_›
  · simp

def Ctl.upkeep (c : Ctl) : List Nat × List (Nat × Nat) × Nat := c.store.upkeep

theorem Ctl.upkeep_ite (p : Prop) [Decidable p] (a b : Ctl) : (if p then a else b).upkeep = if p then a.upkeep else b.upkeep :=
  apply_ite Ctl.upkeep p a b
theorem count_upkeep (k : Cnt) (i n : Nat) (c : Ctl) : (count k i n c).upkeep = c.upkeep := congrArg Store.upkeep (count_store k i n c)
/-- The logs of corrections, and what they make due, are none of it. -/
theorem Ctl.withStore_upkeep (c : Ctl) (rows bankCorr : Store → List (Nat × Nat)) (bankUncorr : Store → List (Nat × Nat × Nat))
    (banks repairs : Store → List Nat) : (c.withStore fun s =>
      { s with rowCorr := rows s, bankCorr := bankCorr s, bankUncorr := bankUncorr s, bankDue := banks s,
               repairDue := repairs s }).upkeep = c.upkeep := rfl

/-- A read that finds its word clean, or corrected once more, asks for no write-back; any other does, and no read moves a
scrubber. -/
theorem noteRead_upkeep (m : Mem) (w : Nat) (c : Ctl) : (noteRead m w c).upkeep =
    if (m.readWord w).found = .clean ∨ ((m.readWord w).found = .corrected ∧ c.store.writeBacks.contains w) then c.upkeep
    else (addOnce w c.store.writeBacks, c.store.storeScrub, c.store.hbmScrub) := by
  unfold noteRead
  extract_lets r a waiting stack k due logged
  have hwaiting : waiting.upkeep = (addOnce w c.store.writeBacks, c.store.storeScrub, c.store.hbmScrub) := rfl
  have hdue (c : Ctl) : (due c).upkeep = c.upkeep := rfl
  have hlogged : logged.upkeep = waiting.upkeep := count_upkeep .hbmCorr stack 1 waiting
  rw [Ctl.upkeep_ite]
  refine if_congr Iff.rfl rfl ?_
  rw [← hwaiting]
  split <;> simp only [Ctl.upkeep_ite, count_upkeep, hdue, hlogged, Ctl.withStore_upkeep, ite_self]

theorem noteRead_storeScrub (m : Mem) (w : Nat) (c : Ctl) : (noteRead m w c).store.storeScrub = c.store.storeScrub := by
  have h := congrArg (·.2.1) (noteRead_upkeep m w c)
  split at h <;> exact h

theorem mem_noteRead_writeBacks {m : Mem} {w : Nat} (h : (m.readWord w).found ≠ .clean) (c : Ctl) :
    w ∈ (noteRead m w c).store.writeBacks := by
  have hkept : (noteRead m w c).store.writeBacks = _ := congrArg (·.1) (noteRead_upkeep m w c)
  rw [hkept]
  split
  · rename_i hwaits
    exact List.contains_iff_mem.mp (hwaits.resolve_left h).2
  · exact mem_addOnce w _

theorem touchHbm_upkeep (a n : Nat) (c : Ctl) : (touchHbm a n c).store.upkeep = c.store.upkeep :=
  foldl_keeps (fun c : Ctl => c.store.upkeep) (fun c x => by simp [touchRow, Ctl.setBank, Store.upkeep]) _ _

theorem touchHbm_writeBacks (a n : Nat) (c : Ctl) : (touchHbm a n c).store.writeBacks = c.store.writeBacks :=
  congrArg (·.1) (touchHbm_upkeep a n c)

theorem touchHbm_wq (a n : Nat) (c : Ctl) : (touchHbm a n c).wq = c.wq := Ctl.wq_of_unread (touchHbm_unread a n c)
theorem noteRead_wq (m : Mem) (w : Nat) (c : Ctl) : (noteRead m w c).wq = c.wq := Ctl.wq_of_unread (noteRead_unread m w c)

/-! ### The store after a command -/

theorem State.run_store (f : Mem → Ctl → Ctl) (s : State) : (s.run f).ctl.store = (f s.mem s.ctl).settle.store :=
  Ctl.store_of_quiet ((State.run_quiet f s).trans (Ctl.settle_quiet _).symm)

/-- A write of a word ends the wait of that word's write-back, and of no other. -/
theorem wholeWord_hits (w : Nat) (data : List Byte) (tag v : Nat) : (wholeWord w data tag).any (Wr.hits v) = (w == v) := by
  have hbytes : ((List.range 32).map fun i => Wr.data (32 * w + i) (data.getD i 0)).any (Wr.hits v) = (w == v) := by
    rw [Bool.eq_iff_iff]
    simp only [List.any_map, List.any_eq_true, List.mem_range, Function.comp_apply, Wr.hits, beq_iff_eq]
    exact ⟨fun ⟨i, hi, h⟩ => by omega, fun h => ⟨0, by decide, by omega⟩⟩
  have htag : [Wr.tag w (byte tag)].any (Wr.hits v) = false := rfl
  have hflaws : ((List.range 36).map fun i => Wr.flaw (36 * w + i) 0).any (Wr.hits v) = false := by
    simp [Wr.hits]
  rw [wholeWord, List.any_append, List.any_append, hbytes, htag, hflaws, Bool.or_false, Bool.or_false]

/-! ### Write-backs (R245, R246, R338) -/

/-- A command that writes one word back answers what O45 says of it: the word stands as it was delivered, no other word changes, and it
waits no longer. -/
theorem completes_writeBack {i : Instr} {s : State} {f : Mem → Ctl → Ctl} {w : Nat} {d : Ctl} (hi : exec i s = .next (s.run f))
    (hf : f s.mem s.ctl = emit (writeBack s.mem w) d) (hd : d.unread = s.ctl.unread) (hwq : s.ctl.wq = [])
    (hbacks : d.store.writeBacks.filter (· ≠ w) = s.ctl.store.writeBacks.filter (· ≠ w))
    (hlen : (s.mem.readWord w).data.length = 32) (htag : legalTag (s.mem.readWord w).tag) :
    completes i s fun t =>
      t.mem.readWord w = { s.mem.readWord w with found := .clean } ∧ (∀ v, v ≠ w → t.mem.readWord v = s.mem.readWord v) ∧
      t.ctl.store.writeBacks = s.ctl.store.writeBacks.filter (· ≠ w) ∧ t.ctl.slotTags = s.ctl.slotTags ∧ t.ctl.jobs = s.ctl.jobs := by
  have hwrites : (f s.mem s.ctl).wq = writeBack s.mem w := by
    rw [hf, emit_wq, Ctl.wq_of_unread hd, hwq, List.nil_append]
  refine ⟨s.run f, hi, ?_, fun v hv => ?_, ?_, ?_, ?_⟩
  · rw [State.run_mem, hwrites]
    exact Mem.readWord_wholeWord _ w hlen htag
  · rw [State.run_mem, hwrites]
    exact Mem.readWord_wholeWord_ne _ hv _ _
  · have hsettled : (s.run f).ctl.store.writeBacks = d.store.writeBacks.filter fun v => !(writeBack s.mem w).any (Wr.hits v) := by
      rw [State.run_store, Ctl.settle, hwrites, hf]
      rfl
    rw [hsettled, ← hbacks]
    refine List.filter_congr fun v _ => ?_
    rw [writeBack, wholeWord_hits, Bool.eq_iff_iff, Bool.not_eq_true', beq_eq_false_iff_ne, decide_eq_true_iff]
    exact ne_comm
  · rw [State.run_slotTags, hf, emit_slotTags, Ctl.slotTags_of_unread hd]
  · rw [State.run_jobs, hf, emit_jobs, Ctl.jobs_of_unread hd]

/-! ### Scrubbers (R247, R339) -/

theorem upsetWrites_hit_nothing (m : Mem) (us : List Upset) (v : Nat) : (upsetWrites m us).any (Wr.hits v) = false := by
  simp [upsetWrites, Wr.hits]

/-- A scrub's reads see the upsets, and writes nothing beside them. -/
theorem run_withUpsets {s : State} {us : List Upset} {f : Mem → Ctl → Ctl} (hwq : s.ctl.wq = [])
    (hf : ∀ m c, (f m c).wq = c.wq) : let c := f (s.mem.apply (upsetWrites s.mem us)) (emit (upsetWrites s.mem us) s.ctl)
    (s.run (withUpsets us f)).mem = s.mem.apply (upsetWrites s.mem us) ∧ (s.run (withUpsets us f)).ctl.store.upkeep = c.store.upkeep := by
  intro c
  have hwrites : c.wq = upsetWrites s.mem us := by rw [hf, emit_wq, hwq, List.nil_append]
  refine ⟨?_, ?_⟩
  · rw [State.run_mem]
    exact congrArg s.mem.apply hwrites
  · have hstore : (s.run (withUpsets us f)).ctl.store = c.settle.store := State.run_store _ s
    rw [hstore, Ctl.settle, hwrites]
    simp [Store.upkeep, upsetWrites_hit_nothing]

theorem scrubStore_wq (st : Nat) (m : Mem) (c : Ctl) : (scrubStore st m c).wq = c.wq := by
  unfold scrubStore
  extract_lets pos noted wraps moved
  have hmoved : moved.wq = c.wq := noteRead_wq m _ c
  split
  · rfl
  · split
    · rw [count_wq, hmoved]
    · exact hmoved

/-- A scrub of a store moves its scrubber on, from the last word to the first, and has what it reads noted. -/
theorem scrubStore_upkeep {st : Nat} {c : Ctl} (hst : st < 17) (hrun : c.storesRun = true) (hcopy : c.plane.copying ≠ some st)
    (hphys : st < 16 → (c.physical st).isSome = true) (m : Mem) : (scrubStore st m c).store.upkeep =
      let pos := SMap.get 0 c.store.storeScrub st
      let noted := noteRead m (storeBase st / 32 + pos) c
      (noted.store.writeBacks, SMap.put 0 c.store.storeScrub st (if storeBytes st / 32 ≤ pos + 1 then 0 else pos + 1),
        noted.store.hbmScrub) := by
  have hserves : ¬(17 ≤ st ∨ (!c.storesRun) = true ∨ c.plane.copying = some st ∨ (decide (st < 16) && (c.physical st).isNone) = true) := by
    simpa [hrun, hcopy, hst, Option.isSome_iff_ne_none] using hphys
  rw [scrubStore, if_neg hserves]
  dsimp only
  rw [apply_ite Ctl.store, count_store, ite_self, Ctl.withStore_store, Store.upkeep, noteRead_storeScrub]
  simp

theorem patrolHbm_wq (m : Mem) (c : Ctl) : (patrolHbm m c).wq = c.wq := by
  unfold patrolHbm
  extract_lets w noted wraps moved
  have hmoved : moved.wq = c.wq := (touchHbm_wq _ _ _).trans (noteRead_wq m w c)
  split
  · rfl
  · split
    · rw [count_wq, hmoved]
    · exact hmoved

/-- The patrol moves on, from the last word to the first, and has what it reads noted. -/
theorem patrolHbm_upkeep {c : Ctl} (hon : c.hbmOn = true) (m : Mem) : (patrolHbm m c).store.upkeep =
    let w := c.store.hbmScrub
    let noted := noteRead m w c
    (noted.store.writeBacks, noted.store.storeScrub, if hbmEnd / 32 ≤ w + 1 then 0 else w + 1) := by
  obtain ⟨hbacks, hplaces⟩ := Prod.mk.inj (touchHbm_upkeep (32 * c.store.hbmScrub) 1 (noteRead m c.store.hbmScrub c))
  rw [patrolHbm, if_neg (by simp [hon])]
  dsimp only
  rw [apply_ite Ctl.store, count_store, ite_self, Ctl.withStore_store, Store.upkeep, hbacks, (Prod.mk.inj hplaces).1]
  simp

/-- Settles O45. -/
theorem writeBacksAndScrubbers : Obligations.WriteBacksAndScrubbers := by
  intro s hs c
  have hwq : s.ctl.wq = [] := hs.2
  refine ⟨fun w hw hlen htag => ⟨fun hst => ?_, fun hon hhbm => ⟨fun hfree => ?_, fun hbusy => ?_⟩⟩,
    fun st ups hst hrun hcopy hphys => ?_, fun st hcopy => ?_, fun ups hon => ?_⟩
  · have hf : correctionBack w s.mem c = emit (writeBack s.mem w) c := if_pos ⟨List.contains_iff_mem.mpr hw, hst⟩
    exact completes_writeBack rfl hf rfl hwq rfl hlen htag
  · have hf : hbmBack w s.mem c =
        emit (writeBack s.mem w) (touchHbm (32 * w) 1 (c.withStore fun x => { x with writeBacks := x.writeBacks.filter (· ≠ w) })) :=
      if_neg (by simp [hon, hhbm, hw, hfree])
    refine completes_writeBack rfl hf (touchHbm_unread ..) hwq ?_ hlen htag
    rw [touchHbm_writeBacks, Ctl.withStore_store, List.filter_filter]
    simp only [Bool.and_self]
    rfl
  · exact exec_eq_self hs rfl (if_pos (.inr (.inr (.inr hbusy))))
  · have hserves : ∀ ws, (emit ws c).storesRun = true := fun _ => hrun
    obtain ⟨hmem, hupkeep⟩ := run_withUpsets (us := ups) hwq (scrubStore_wq st)
    rw [scrubStore_upkeep hst (hserves _) hcopy hphys] at hupkeep
    obtain ⟨hbacks, hplaces⟩ := Prod.mk.inj hupkeep
    refine ⟨_, rfl, hmem, ?_, fun hfound => ?_⟩
    · rw [(Prod.mk.inj hplaces).1, SMap.get_put, if_pos rfl]
      rfl
    · rw [hbacks]
      exact mem_noteRead_writeBacks hfound _
  · have hf : withUpsets [] (scrubStore st) s.mem c = c := by
      have hemit : emit [] c = c := by simp [emit]
      exact (congrArg (scrubStore st s.mem) hemit).trans (if_pos (.inr (.inr (.inl hcopy))))
    exact exec_eq_self hs rfl hf
  · have hserves : ∀ ws, (emit ws c).hbmOn = true := fun _ => hon
    obtain ⟨hmem, hupkeep⟩ := run_withUpsets (us := ups) hwq patrolHbm_wq
    rw [patrolHbm_upkeep (hserves _)] at hupkeep
    obtain ⟨hbacks, hplaces⟩ := Prod.mk.inj hupkeep
    refine ⟨_, rfl, hmem, (Prod.mk.inj hplaces).2, fun hfound => ?_⟩
    rw [hbacks]
    exact mem_noteRead_writeBacks hfound _

end Sys2Proof.Machine
end

section
/-! PROOF of O26. Slot transfers: SLOT_WRITE with its fragments, SLOT_READ, and the timeout of a transfer (08 R257; 13 R401, R403,
R408). -/

namespace Sys2Proof.Machine

/-! ### What a command leaves -/

theorem State.run_proto_xfers (f : Mem → Ctl → Ctl) (s : State) : (s.run f).ctl.proto.xfers = (f s.mem s.ctl).proto.xfers :=
  Ctl.proto_xfers_of_quiet (b := (f s.mem s.ctl).settle) ((State.run_quiet f s).trans (Ctl.settle_quiet _).symm)

theorem Ctl.slotVoided_of_slotTags {a b : Ctl} (h : a.slotTags = b.slotTags) (k : Nat) : a.slotVoided k = b.slotVoided k := by
  rw [slotVoided, slotVoided, h]

theorem Ctl.handleFull_of_slotTags {a b : Ctl} (h : a.slotTags = b.slotTags) (hd : Handle) (slot : Nat) :
    a.handleFull hd slot = b.handleFull hd slot := by
  rw [handleFull, handleFull, funext (slotFull_of_slotTags h)]

/-- A reply in any number of packets: its packets are sent, and packets alone behind them. -/
theorem replies_of_answerAll {s t : State} {d : Ctl} {r : Req} {kind : Nat} {st : KS} {bodies : List (List Byte)}
    (hsent : ∃ l, d.proto.sent = s.ctl.proto.sent ++ l) (hsa : d.proto.sa.getD r.port false = true)
    (ht : (answerAll r kind st bodies d).Unwinds t.ctl) : replies s t r kind st bodies := by
  obtain ⟨x, hx⟩ := hsent
  obtain ⟨y, hy⟩ := answerAll_sent r kind st bodies d hsa
  obtain ⟨z, hz⟩ := ht.sent
  have hepoch : t.ctl.proto.epoch = d.proto.epoch := ht.epoch.trans (answerAll_proto_epoch ..)
  refine ⟨x, y ++ z, ?_⟩
  rw [hz, hy, hx, hepoch]
  simp

/-- A command that ends with the answer to a served request replies to it. -/
theorem replies_run {s : State} {f : Mem → Ctl → Ctl} {g : Gate} {r : Req} {d : Ctl} {kind : Nat} {st : KS} {bodies : List (List Byte)}
    (hserved : served g r s.ctl) (hf : f s.mem s.ctl = answerAll r kind st bodies d) (hd : s.ctl.Unwinds d) :
    replies s (s.run f) r kind st bodies := by
  refine replies_of_answerAll hd.sent ?_ (hf ▸ State.run_unwinds f s)
  rw [hd.sa]
  exact sa_of_served hserved

/-! ### The gates (R400, R401) -/

/-- The gate of a SLOT_WRITE: of the first packet of a transfer, or of a fragment that continues one. -/
def slotWriteGate (r : Req) (fragment : Bool) : Gate :=
  { plainGate 0x18 6 (16 ≤ r.len && r.len ≤ 16 + 1376) (r.be 12 4 / 2 == 0) with job := some (r.be 0 2), fragment := fragment }

def slotReadGate (r : Req) : Gate :=
  { plainGate 0x19 6 (r.len == 16) (r.be 12 4 / 2 ^ 25 == 0) with job := some (r.be 0 2) }

theorem slotTarget_accept (g : Gate) (r : Req) (c : Ctl) : slotTarget (accept g r c) r = slotTarget c r := by
  have hadmitted (no : Nat) : (accept g r c).admitted no = c.admitted no := by rw [Ctl.admitted, Ctl.admitted, Ctl.accept_job?]
  have hfrozen (no : Nat) : (accept g r c).frozenIn no = c.frozenIn no := by rw [Ctl.frozenIn, Ctl.frozenIn, accept_sec_frozen]
  unfold slotTarget namedJob
  rw [hadmitted, hfrozen]

/-- A request that is served is a fragment, or the device holds no request under its number. -/
theorem fresh_of_served {g : Gate} {r : Req} {c : Ctl} (h : served g r c) : g.fragment = true ∨ c.cached r = none := by
  simp only [served, passes, Bool.and_eq_true] at h
  obtain ⟨⟨⟨⟨⟨-, hfresh⟩, -⟩, -⟩, -⟩, -⟩ := h
  simpa using hfresh

/-- A copy of a fragment that the device holds is a repeat (R401). -/
def Ctl.repeats (c : Ctl) (r : Req) : Bool :=
  !c.proto.serving && match c.cached r with | some q => q.code == 0x18 && q.holds r | none => false

theorem repeats_of_uncached {c : Ctl} {r : Req} (h : c.cached r = none) : c.repeats r = false := by
  simp [Ctl.repeats, h]

theorem repeats_of_other {c : Ctl} {r : Req} (h : ∀ q, c.cached r = some q → q.code ≠ 0x18 ∨ q.holds r = false) :
    c.repeats r = false := by
  unfold Ctl.repeats
  split
  · rename_i q hq
    obtain hcode | hholds := h q hq
    · simp [hcode]
    · simp [hholds]
  · simp

/-- The transfer that a SLOT_WRITE continues, if it is not a repeat. -/
def Ctl.continues (c : Ctl) (r : Req) : Option HostXfer := if c.repeats r then none else xferOf c r

/-- What a SLOT_WRITE does once it is served: the next fragment of transfer `x`, or the first packet of one (R408). -/
def serveSlotWrite (cont : Option HostXfer) (r : Req) (m : Mem) (c : Ctl) : Ctl :=
  match cont with
  | some x =>
    (match slotTarget c r with
    | .error st => answer r 0x18 st [] (voidXfer x c)
    | .ok (j, h, tile, slot) =>
      if j.no ≠ x.jobNo ∨ r.u8 2 ≠ x.handle ∨ tile ≠ x.tile ∨ slot ≠ x.slot ∨ r.be 8 4 ≠ x.nextOffset then
        answer r 0x18 .badSequence [] (voidXfer x c)
      else if h.slotBytes < r.be 8 4 + (r.len - 16) then answer r 0x18 .badHandle [] (voidXfer x c)
      else if c.slotFull (h.slotKey tile slot) then answer r 0x18 .slotFull [] (dropXfer x c)
      else putFragment m r j h tile slot (r.be 8 4) (dropXfer x c))
  | none =>
    match slotTarget c r with
    | .error st => answer r 0x18 st [] c
    | .ok (j, h, tile, slot) =>
      if r.be 8 4 % 32 ≠ 0 then answer r 0x18 .badPacket [] c
      else if h.slotBytes < r.be 8 4 + (r.len - 16) then answer r 0x18 .badHandle [] c
      else if c.slotFull (h.slotKey tile slot) then answer r 0x18 .slotFull [] c
      else putFragment m r j h tile slot (r.be 8 4) c

theorem writeSlot_eq (r : Req) (m : Mem) (c : Ctl) : writeSlot r m c =
    gate (slotWriteGate r (!c.repeats r && ((c.continues r).isSome || c.fragmentWaits r))) r (serveSlotWrite (c.continues r) r m) c := by
  unfold writeSlot Ctl.continues Ctl.repeats slotWriteGate
  cases c.cached r with
  | none => rfl
  | some q => rfl

/-- A SLOT_WRITE that its gate serves, and that repeats none. -/
theorem writeSlot_of_served {r : Req} (m : Mem) {c : Ctl} {fragment : Bool} (hnew : c.repeats r = false)
    (hfragment : ((xferOf c r).isSome || c.fragmentWaits r) = fragment) (hserved : served (slotWriteGate r fragment) r c) :
    writeSlot r m c = serveSlotWrite (xferOf c r) r m (accept (slotWriteGate r fragment) r c) := by
  have hcont : c.continues r = xferOf c r := by simp [Ctl.continues, hnew]
  have hgate := gate_of_passes (serveSlotWrite (xferOf c r) r m) hserved
  rw [writeSlot_eq, hcont, hnew, Bool.not_false, Bool.true_and, hfragment, hgate]

section
variable {r : Req} {m : Mem} {c : Ctl} {j : Job} {h : Handle} {tile slot : Nat} (ht : slotTarget c r = .ok (j, h, tile, slot))
include ht

/-- The first packet of a transfer that fits its slot, which is empty (R408). -/
theorem writeSlot_first (hx : xferOf c r = none) (hwaits : c.fragmentWaits r = false) (hserved : served (slotWriteGate r false) r c)
    (halign : r.be 8 4 % 32 = 0) (hfits : r.be 8 4 + (r.len - 16) ≤ h.slotBytes) (hempty : c.slotFull (h.slotKey tile slot) = false) :
    writeSlot r m c = putFragment m r j h tile slot (r.be 8 4) (accept (slotWriteGate r false) r c) := by
  have hnew : c.repeats r = false := repeats_of_uncached ((fresh_of_served hserved).resolve_left Bool.false_ne_true)
  have hempty' : ¬(accept (slotWriteGate r false) r c).slotFull (h.slotKey tile slot) = true := by
    rw [Ctl.slotFull_of_slotTags (accept_slotTags ..), hempty]
    exact Bool.false_ne_true
  rw [writeSlot_of_served m hnew (by rw [hx, hwaits]; rfl) hserved, hx]
  simp only [serveSlotWrite, slotTarget_accept, ht]
  rw [if_neg (not_not.mpr halign), if_neg (not_lt.mpr hfits), if_neg hempty']

section
variable {x : HostXfer} (hx : xferOf c r = some x) (hother : ∀ q, c.cached r = some q → q.code ≠ 0x18 ∨ q.holds r = false)
  (hserved : served (slotWriteGate r true) r c)
include hx hother hserved

/-- The next fragment of a transfer, in order. -/
theorem writeSlot_next (horder : ¬(j.no ≠ x.jobNo ∨ r.u8 2 ≠ x.handle ∨ tile ≠ x.tile ∨ slot ≠ x.slot ∨ r.be 8 4 ≠ x.nextOffset))
    (hfits : r.be 8 4 + (r.len - 16) ≤ h.slotBytes) (hempty : c.slotFull (h.slotKey tile slot) = false) :
    writeSlot r m c = putFragment m r j h tile slot (r.be 8 4) (dropXfer x (accept (slotWriteGate r true) r c)) := by
  have hempty' : ¬(accept (slotWriteGate r true) r c).slotFull (h.slotKey tile slot) = true := by
    rw [Ctl.slotFull_of_slotTags (accept_slotTags ..), hempty]
    exact Bool.false_ne_true
  rw [writeSlot_of_served m (repeats_of_other hother) (by rw [hx]; rfl) hserved, hx]
  simp only [serveSlotWrite, slotTarget_accept, ht]
  rw [if_neg horder, if_neg (not_lt.mpr hfits), if_neg hempty']

/-- A fragment out of order, or for another slot, ends the transfer (R408). -/
theorem writeSlot_badSequence
    (hbad : j.no ≠ x.jobNo ∨ r.u8 2 ≠ x.handle ∨ tile ≠ x.tile ∨ slot ≠ x.slot ∨ r.be 8 4 ≠ x.nextOffset) :
    writeSlot r m c = answer r 0x18 .badSequence [] (voidXfer x (accept (slotWriteGate r true) r c)) := by
  rw [writeSlot_of_served m (repeats_of_other hother) (by rw [hx]; rfl) hserved, hx]
  simp only [serveSlotWrite, slotTarget_accept, ht]
  rw [if_pos hbad]
end

/-- A SLOT_READ of a slot that is full, of a bundle whose results may leave the device (R408, R460). -/
theorem readSlot_of_served (hserved : served (slotReadGate r) r c) (hout : c.resultOut j.bundle = true) (halign : r.be 8 4 % 32 = 0)
    (hfits : r.be 8 4 + r.be 12 4 % 2 ^ 24 ≤ h.slotBytes) (hfull : c.handleFull h slot = true) :
    let a := h.addr tile (slot * h.slotBytes + r.be 8 4)
    let n := r.be 12 4 % 2 ^ 24
    let d := noteReads m (spanWords (a, n)) (accept (slotReadGate r) r c)
    readSlot r m c = answerAll r 0x19 .ok (slotFragments r (m.bytesAt a n))
      (if bit (r.be 12 4) 24 then setEmpty (h.slotKey tile slot) d else d) := by
  have hpolicy : (accept (slotReadGate r) r c).resultOut j.bundle = c.resultOut j.bundle := by
    rw [Ctl.resultOut, Ctl.resultOut, Ctl.policyFlags, Ctl.policyFlags, accept_sec_policy]
  have hout' : ¬(!(accept (slotReadGate r) r c).resultOut j.bundle) = true := by
    rw [hpolicy, hout]
    decide
  have hfull' : ¬(!(accept (slotReadGate r) r c).handleFull h slot) = true := by
    rw [Ctl.handleFull_of_slotTags (accept_slotTags (slotReadGate r) r c), hfull]
    decide
  refine (gate_of_passes _ hserved).trans ?_
  simp only [slotTarget_accept, ht]
  rw [if_neg hout', if_neg (not_not.mpr halign), if_neg (not_lt.mpr hfits), if_neg hfull']
end

/-! ### What a fragment leaves (R408) -/

theorem Ctl.clk_of_unread {a b : Ctl} (h : a.unread = b.unread) : a.clk = b.clk := (congrArg Ctl.clk h : a.unread.clk = b.unread.clk)
theorem Ctl.proto_xfers_of_unread {a b : Ctl} (h : a.unread = b.unread) : a.proto.xfers = b.proto.xfers :=
  (congrArg (fun c => c.proto.xfers) h : a.unread.proto.xfers = b.unread.proto.xfers)

theorem setFull_proto (k : Nat) (c : Ctl) : (setFull k c).proto = c.proto := by
  unfold setFull
  split <;> rfl

/-- The bytes of a fragment are written, and the part has no other writer left. -/
def putBytes (m : Mem) (r : Req) (j : Job) (h : Handle) (tile slot off : Nat) (c : Ctl) : Ctl :=
  (emitRun m (h.addr tile (slot * h.slotBytes + off)) (r.payload.drop 16) 0 false c).mapJob j.no
    fun k => { k with exec := { k.exec with writers := k.exec.writers.filter fun w => w.1 ≠ r.u8 2 } }

/-- The transfer that a fragment leaves which is not the last. -/
def openXfer (r : Req) (j : Job) (tile slot off now : Nat) : HostXfer where
  jobNo := j.no
  handle := r.u8 2
  tile := tile
  slot := slot
  source := r.peer
  reqId := r.reqId
  nextOffset := off + (r.len - 16)
  at' := now

section
variable (m : Mem) (r : Req) (j : Job) (h : Handle) (tile slot off : Nat) (c : Ctl)

/-- The words that a fragment reads to merge with. -/
theorem mergeReads_unread : (noteReads m (mergedWords (h.addr tile (slot * h.slotBytes + off)) (r.payload.drop 16).length) c).unread = c.unread :=
  noteReads_unread ..

theorem putBytes_wq : (putBytes m r j h tile slot off c).wq =
    c.wq ++ runWrite m (h.addr tile (slot * h.slotBytes + off)) (r.payload.drop 16) 0 false :=
  congrArg (· ++ _) (Ctl.wq_of_unread (mergeReads_unread ..))

theorem putBytes_slotTags : (putBytes m r j h tile slot off c).slotTags = c.slotTags :=
  (Ctl.slotTags_of_unread (mergeReads_unread m r h tile slot off c) :)

theorem putBytes_proto_xfers : (putBytes m r j h tile slot off c).proto.xfers = c.proto.xfers :=
  (Ctl.proto_xfers_of_unread (mergeReads_unread m r h tile slot off c) :)

theorem putBytes_clk : (putBytes m r j h tile slot off c).clk = c.clk :=
  (Ctl.clk_of_unread (mergeReads_unread m r h tile slot off c) :)

theorem Ctl.Unwinds.putBytes {a c : Ctl} (hc : a.Unwinds c) : a.Unwinds (putBytes m r j h tile slot off c) :=
  ((hc.noteReads ..).emit _).mapJob ..

theorem putFragment_last (hlast : bit r.flags 2 = true) : putFragment m r j h tile slot off c = answer r 0x18 .ok []
    (if bit (r.be 12 4) 0 then setFull (h.slotKey tile slot) (putBytes m r j h tile slot off c) else putBytes m r j h tile slot off c) :=
  if_pos hlast

theorem putFragment_more (hmore : bit r.flags 2 = false) : putFragment m r j h tile slot off c =
    (putBytes m r j h tile slot off c).withProto fun p => { p with xfers := p.xfers ++ [openXfer r j tile slot off c.clk.ns] } := by
  have hlen : r.len - 16 = (r.payload.drop 16).length := (List.length_drop ..).symm
  rw [← putBytes_clk m r j h tile slot off c, openXfer, hlen]
  exact if_neg (by simp [hmore])
end

/-- State `d`, from which a SLOT_WRITE goes on to write, has what the command found: no write waits, and no tag has changed. -/
structure Ctl.Served (c d : Ctl) : Prop where
  unwinds : c.Unwinds d
  wq : d.wq = c.wq
  slotTags : d.slotTags = c.slotTags
  clk : d.clk = c.clk

theorem Ctl.Served.accept (g : Gate) (r : Req) (c : Ctl) : c.Served (accept g r c) where
  unwinds := (Ctl.Unwinds.refl c).accept g r
  wq := accept_wq ..
  slotTags := accept_slotTags ..
  clk := accept_clk ..

theorem Ctl.Served.dropXfer {c d : Ctl} (h : c.Served d) (x : HostXfer) : c.Served (dropXfer x d) where
  unwinds := h.unwinds.of_eq rfl rfl
  wq := h.wq
  slotTags := h.slotTags
  clk := h.clk

section
variable {s : State} {d : Ctl} {r : Req} {j : Job} {h : Handle} {tile slot off : Nat} (hs : s.ready) (hd : s.ctl.Served d)
  (hput : writeSlot r s.mem s.ctl = putFragment s.mem r j h tile slot off d)
include hs hd hput

/-- A fragment that is the last of its transfer is written and answered, and sets the slot full where it asks to (R408). -/
theorem completes_lastFragment {g : Gate} (hserved : served g r s.ctl) (hempty : s.ctl.slotFull (h.slotKey tile slot) = false)
    (hlast : bit r.flags 2 = true) : completes (.slotWrite r) s fun t => replies s t r 0x18 .ok [[]] ∧
      t.mem = s.mem.apply (runWrite s.mem (h.addr tile (slot * h.slotBytes + off)) (r.payload.drop 16) 0 false) ∧
      t.ctl.slotFull (h.slotKey tile slot) = bit (r.be 12 4) 0 ∧
      (∀ k, k ≠ h.slotKey tile slot → t.ctl.slotFull k = s.ctl.slotFull k) ∧ t.ctl.proto.xfers = d.proto.xfers := by
  have hend := hput.trans (putFragment_last s.mem r j h tile slot off d hlast)
  have htags : (putBytes s.mem r j h tile slot off d).slotTags = s.ctl.slotTags := (putBytes_slotTags ..).trans hd.slotTags
  have hwq := putBytes_wq s.mem r j h tile slot off d
  rw [hd.wq, hs.2, List.nil_append] at hwq
  have hunwinds := hd.unwinds.putBytes s.mem r j h tile slot off
  refine ⟨_, rfl, replies_run hserved hend (hunwinds.setFull _ |>.ite hunwinds), ?_, ?_, fun k hk => ?_, ?_⟩
  · rw [State.run_mem, hend, answer_wq, apply_ite Ctl.wq, setFull_wq, ite_self, hwq]
  · rw [State.run_slotFull, hend, Ctl.slotFull_of_slotTags (answer_slotTags ..)]
    split
    · simp [setFull_slotFull, *]
    · simp [Ctl.slotFull_of_slotTags htags, *]
  · rw [State.run_slotFull, hend, Ctl.slotFull_of_slotTags (answer_slotTags ..)]
    split
    · simp [setFull_slotFull, hk, Ctl.slotFull_of_slotTags htags]
    · exact Ctl.slotFull_of_slotTags htags k
  · rw [State.run_proto_xfers, hend, answer_proto_xfers, apply_ite (fun c : Ctl => c.proto.xfers), setFull_proto, ite_self,
      putBytes_proto_xfers]

/-- A fragment that more follow is written, and leaves the transfer that the next one continues (R408). -/
theorem completes_fragment (hmore : bit r.flags 2 = false) : completes (.slotWrite r) s fun t =>
      t.mem = s.mem.apply (runWrite s.mem (h.addr tile (slot * h.slotBytes + off)) (r.payload.drop 16) 0 false) ∧
      t.ctl.slotTags = s.ctl.slotTags ∧ t.ctl.proto.xfers = d.proto.xfers ++ [openXfer r j tile slot off s.ctl.clk.ns] := by
  have hend := hput.trans (putFragment_more s.mem r j h tile slot off d hmore)
  have hwq := putBytes_wq s.mem r j h tile slot off d
  rw [hd.wq, hs.2, List.nil_append] at hwq
  refine ⟨_, rfl, ?_, ?_, ?_⟩
  · rw [State.run_mem, hend, Ctl.withProto_wq, hwq]
  · rw [State.run_slotTags, hend, Ctl.withProto_slotTags, putBytes_slotTags, hd.slotTags]
  · rw [State.run_proto_xfers, hend, ← hd.clk, ← putBytes_proto_xfers s.mem r j h tile slot off d]
    rfl
end

/-! ### A transfer that ends partly written (R257, R408) -/

theorem voidPart_of_full {h : Handle} {s k : Nat} {c : Ctl} (hfull : c.slotFull k = true) : voidPart h s k c = c := if_pos hfull

theorem voidPart_of_empty {h : Handle} {s k : Nat} {c : Ctl} (hempty : c.slotFull k = false) :
    (voidPart h s k c).slotTags = (setVoided k c).slotTags := by
  unfold voidPart
  rw [if_neg (by simp [hempty])]
  split
  · rfl
  · exact count_slotTags ..

theorem voidPart_slotFull (h : Handle) (s k : Nat) (c : Ctl) : (voidPart h s k c).slotFull k = true := by
  cases hfull : c.slotFull k with
  | true => rw [voidPart_of_full hfull, hfull]
  | false => simp [Ctl.slotFull_of_slotTags (voidPart_of_empty hfull)]

theorem voidPart_slotVoided {h : Handle} {s k : Nat} {c : Ctl} (hempty : c.slotFull k = false) :
    (voidPart h s k c).slotVoided k = true := by
  simp [Ctl.slotVoided_of_slotTags (voidPart_of_empty hempty)]

theorem voidPart_wq (h : Handle) (s k : Nat) (c : Ctl) : (voidPart h s k c).wq = c.wq := by
  simp [voidPart, apply_ite Ctl.wq]

theorem voidPart_proto_xfers (h : Handle) (s k : Nat) (c : Ctl) : (voidPart h s k c).proto.xfers = c.proto.xfers := by
  simp [voidPart, setVoided, setTag, apply_ite (fun c : Ctl => c.proto.xfers)]

theorem voidXfer_wq (x : HostXfer) (c : Ctl) : (voidXfer x c).wq = c.wq := by
  unfold voidXfer
  extract_lets d
  split
  · exact voidPart_wq ..
  · rfl

theorem voidXfer_proto_xfers (x : HostXfer) (c : Ctl) : (voidXfer x c).proto.xfers = c.proto.xfers.filter (· ≠ x) := by
  unfold voidXfer
  extract_lets d
  split
  · exact voidPart_proto_xfers ..
  · rfl

theorem voidXfer_of_handle {x : HostXfer} {c : Ctl} {j : Job} {h : Handle} (hj : c.job? x.jobNo = some j)
    (hh : j.handle? x.handle = some h) : voidXfer x c = voidPart h x.slot (h.slotKey x.tile x.slot) (dropXfer x c) := by
  have hfound : ((dropXfer x c).job? x.jobNo).bind (fun j => j.handle? x.handle) = some h :=
    (congrArg (fun o : Option Job => o.bind fun j => j.handle? x.handle) hj).trans hh
  unfold voidXfer
  extract_lets d
  rw [hfound]

/-- The timeout of a transfer that has waited too long (R408). -/
theorem xferTimeout_of_late {c : Ctl} {x : HostXfer} {j : Job}
    (hx : c.proto.xfers.find? (fun y => y.jobNo = x.jobNo && y.handle = x.handle && y.tile = x.tile && y.slot = x.slot) = some x)
    (hj : c.job? x.jobNo = some j) (hlate : x.at' + 1000000 * c.param 0x0D02 < c.clk.ns) :
    xferTimeout x.jobNo x.handle x.tile x.slot c = event 9 x.jobNo KS.badSequence.code 0 0 0 [] [j.submitter] (voidXfer x c) := by
  unfold xferTimeout
  rw [hx, hj]
  exact if_neg (not_le.mpr hlate)

/-- The timeout of a transfer that has not waited too long. -/
theorem xferTimeout_of_early {c : Ctl} {x : HostXfer}
    (hx : c.proto.xfers.find? (fun y => y.jobNo = x.jobNo && y.handle = x.handle && y.tile = x.tile && y.slot = x.slot) = some x)
    (hearly : c.clk.ns ≤ x.at' + 1000000 * c.param 0x0D02) : xferTimeout x.jobNo x.handle x.tile x.slot c = c := by
  unfold xferTimeout
  rw [hx]
  exact if_pos hearly

/-! ### The clauses -/

/-- A SLOT_READ that is served answers the bytes, and empties the part that it names where it asks to. -/
theorem completes_slotRead {s : State} {r : Req} {j : Job} {h : Handle} {tile slot : Nat} (hs : s.ready)
    (ht : slotTarget s.ctl r = .ok (j, h, tile, slot)) (halign : r.be 8 4 % 32 = 0) (hout : s.ctl.resultOut j.bundle = true)
    (hfits : r.be 8 4 + r.be 12 4 % 2 ^ 24 ≤ h.slotBytes) (hfull : s.ctl.handleFull h slot = true)
    (hserved : served (slotReadGate r) r s.ctl) : completes (.slotRead r) s fun t =>
      replies s t r 0x19 .ok (slotFragments r (s.mem.bytesAt (h.addr tile (slot * h.slotBytes + r.be 8 4)) (r.be 12 4 % 2 ^ 24))) ∧
      sameMem s t ∧ (bit (r.be 12 4) 24 = true → t.ctl.slotFull (h.slotKey tile slot) = false) ∧
      (bit (r.be 12 4) 24 = false → t.ctl.slotTags = s.ctl.slotTags) ∧
      (∀ k, k ≠ h.slotKey tile slot → t.ctl.slotFull k = s.ctl.slotFull k) := by
  have hend := readSlot_of_served (m := s.mem) ht hserved hout halign hfits hfull
  extract_lets a n d at hend
  have hread : d.unread = (accept (slotReadGate r) r s.ctl).unread := noteReads_unread ..
  have htags : d.slotTags = s.ctl.slotTags := (Ctl.slotTags_of_unread hread).trans (accept_slotTags ..)
  have hwq : d.wq = [] := ((Ctl.wq_of_unread hread).trans (accept_wq ..)).trans hs.2
  have hunwinds : s.ctl.Unwinds d := ((Ctl.Unwinds.refl s.ctl).accept _ _).noteReads ..
  refine ⟨_, rfl, replies_run hserved hend ((hunwinds.setEmpty _).ite hunwinds), sameMem_of_run ?_, fun hempty => ?_, fun hkept => ?_,
    fun k hk => ?_⟩
  · rw [hend, answerAll_wq, apply_ite Ctl.wq, setEmpty_wq, ite_self, hwq]
  · rw [State.run_slotFull, hend, Ctl.slotFull_of_slotTags (answerAll_slotTags ..), if_pos hempty]
    simp [setEmpty_slotFull]
  · rw [State.run_slotTags, hend, answerAll_slotTags, if_neg (by simp [hkept]), htags]
  · rw [State.run_slotFull, hend, Ctl.slotFull_of_slotTags (answerAll_slotTags ..)]
    split
    · simp [setEmpty_slotFull, hk, Ctl.slotFull_of_slotTags htags]
    · exact Ctl.slotFull_of_slotTags htags k

/-- A fragment out of order, or for another slot, ends the transfer and leaves its slot VOIDED. -/
theorem completes_badSequence {s : State} {r : Req} {g : Gate} {x : HostXfer} (hs : s.ready) (hserved : served g r s.ctl)
    (hend : writeSlot r s.mem s.ctl = answer r 0x18 .badSequence [] (voidXfer x (accept g r s.ctl))) :
    completes (.slotWrite r) s fun t => replies s t r 0x18 .badSequence [[]] ∧ sameMem s t ∧
      t.ctl.proto.xfers = s.ctl.proto.xfers.filter (· ≠ x) ∧
      ∀ y e, s.ctl.job? x.jobNo = some y → y.handle? x.handle = some e → t.ctl.slotFull (e.slotKey x.tile x.slot) = true ∧
        (s.ctl.slotFull (e.slotKey x.tile x.slot) = false → t.ctl.slotVoided (e.slotKey x.tile x.slot) = true) := by
  have hunwinds : s.ctl.Unwinds (voidXfer x (accept g r s.ctl)) := ((Ctl.Unwinds.refl s.ctl).accept g r).voidXfer x
  have htags : (s.run (writeSlot r)).ctl.slotTags = (voidXfer x (accept g r s.ctl)).slotTags := by
    rw [State.run_slotTags, hend, answer_slotTags]
  refine ⟨_, rfl, replies_run hserved hend hunwinds, sameMem_of_run ?_, ?_, fun y e hy he => ?_⟩
  · rw [hend, answer_wq, voidXfer_wq, accept_wq, hs.2]
  · rw [State.run_proto_xfers, hend, answer_proto_xfers, voidXfer_proto_xfers, accept_proto_xfers]
  · rw [voidXfer_of_handle ((Ctl.accept_job? g r s.ctl _).trans hy) he] at htags
    rw [Ctl.slotFull_of_slotTags htags, Ctl.slotVoided_of_slotTags htags]
    refine ⟨voidPart_slotFull .., fun hempty => voidPart_slotVoided ?_⟩
    exact (Ctl.slotFull_of_slotTags (accept_slotTags g r s.ctl) _).trans hempty

/-- A transfer that has waited too long ends, and leaves its slot VOIDED where it is not full already. -/
theorem completes_xferTimeout {s : State} {x : HostXfer} {j : Job} {h : Handle} (hs : s.ready)
    (hx : s.ctl.proto.xfers.find? (fun y => y.jobNo = x.jobNo && y.handle = x.handle && y.tile = x.tile && y.slot = x.slot) = some x)
    (hj : s.ctl.job? x.jobNo = some j) (hh : j.handle? x.handle = some h)
    (hlate : x.at' + 1000000 * s.ctl.param 0x0D02 < s.ctl.clk.ns) :
    completes (.hostXferTimeout x.jobNo x.handle x.tile x.slot) s fun t => sameMem s t ∧
      t.ctl.proto.xfers = s.ctl.proto.xfers.filter (· ≠ x) ∧ t.ctl.slotFull (h.slotKey x.tile x.slot) = true ∧
      (s.ctl.slotFull (h.slotKey x.tile x.slot) = false → t.ctl.slotVoided (h.slotKey x.tile x.slot) = true) ∧
      (s.ctl.slotFull (h.slotKey x.tile x.slot) = true → t.ctl.slotTags = s.ctl.slotTags) := by
  have hend := xferTimeout_of_late hx hj hlate
  let f : Mem → Ctl → Ctl := fun _ c => xferTimeout x.jobNo x.handle x.tile x.slot c
  have htags : (s.run f).ctl.slotTags = (voidPart h x.slot (h.slotKey x.tile x.slot) (dropXfer x s.ctl)).slotTags := by
    rw [State.run_slotTags, ← voidXfer_of_handle hj hh]
    exact (congrArg Ctl.slotTags hend).trans (event_slotTags ..)
  refine ⟨s.run f, rfl, sameMem_of_run ?_, ?_, ?_, fun hempty => ?_, fun hfull => ?_⟩
  · exact (congrArg Ctl.wq hend).trans (by rw [event_wq, voidXfer_wq, hs.2])
  · rw [State.run_proto_xfers]
    exact (congrArg (fun c => c.proto.xfers) hend).trans (by rw [event_proto_xfers, voidXfer_proto_xfers])
  · rw [Ctl.slotFull_of_slotTags htags, voidPart_slotFull]
  · rw [Ctl.slotVoided_of_slotTags htags]
    exact voidPart_slotVoided hempty
  · have hkept := voidPart_of_full (h := h) (s := x.slot) (c := dropXfer x s.ctl) hfull
    rw [htags, hkept]
    rfl

/-- Settles O26: a SLOT_WRITE that its gate serves runs through `putFragment`, from the state that accepted it or, where it
continues a transfer, from that state without the transfer. -/
theorem slotTransfersMoveBytes : Obligations.SlotTransfersMoveBytes := by
  unfold Obligations.SlotTransfersMoveBytes
  intro s r hs
  have haccepted (fragment : Bool) := Ctl.Served.accept (slotWriteGate r fragment) r s.ctl
  refine ⟨fun j h tile slot ht halign => ⟨fun hnone hwaits hfits hempty hserved => ?_, fun hout hfits hfull hserved => ?_⟩,
    fun x hx hother hserved => ⟨fun j h ht hno hhandle hoff hfits hempty => ?_, fun j h tile slot ht hbad => ?_⟩,
    fun x j h hx hj hh => ⟨fun hearly => ?_, fun hlate => completes_xferTimeout hs hx hj hh hlate⟩⟩
  case refine_1 =>
    have hput := writeSlot_first (m := s.mem) ht hnone hwaits hserved halign hfits hempty
    have hleft : (accept (slotWriteGate r false) r s.ctl).proto.xfers = s.ctl.proto.xfers := accept_proto_xfers ..
    exact ⟨fun hlast => hleft ▸ completes_lastFragment hs (haccepted false) hput hserved hempty hlast,
      fun hmore => hleft ▸ completes_fragment hs (haccepted false) hput hmore⟩
  case refine_2 => exact completes_slotRead hs ht halign hout hfits hfull hserved
  case refine_3 =>
    have horder : ¬(j.no ≠ x.jobNo ∨ r.u8 2 ≠ x.handle ∨ x.tile ≠ x.tile ∨ x.slot ≠ x.slot ∨ r.be 8 4 ≠ x.nextOffset) := by
      simp [hno, hhandle, hoff]
    have hput := writeSlot_next (m := s.mem) ht hx hother hserved horder hfits hempty
    have hdropped := (haccepted true).dropXfer x
    have hleft : (dropXfer x (accept (slotWriteGate r true) r s.ctl)).proto.xfers = s.ctl.proto.xfers.filter (· ≠ x) :=
      congrArg (List.filter _) (accept_proto_xfers ..)
    refine ⟨fun hlast => ?_, fun hmore => ?_⟩
    · obtain ⟨t, hi, hreplies, hmem, hfull, hframe, hxfers⟩ := completes_lastFragment hs hdropped hput hserved hempty hlast
      exact ⟨t, hi, hreplies, hmem, hxfers.trans hleft, hfull, hframe⟩
    · obtain ⟨t, hi, hmem, htags, hxfers⟩ := completes_fragment hs hdropped hput hmore
      refine ⟨t, hi, hmem, htags, ?_⟩
      rw [hxfers, hleft, openXfer, hhandle]
  case refine_4 => exact completes_badSequence hs hserved (writeSlot_badSequence ht hx hother hserved hbad)
  case refine_5 => exact exec_eq_self hs rfl (xferTimeout_of_early hx hearly)

end Sys2Proof.Machine
end

section
/-! SUPPORT for O43. Which counters the rows of a drain count: never those of the stall limits and of the mutual wait (04 R229, R230;
08 R262; 09 R307). -/

namespace Sys2Proof.Machine

/-! ### The counters of the waits -/

/-- The counters of stall-limit faults and of mutual waits. -/
def Cnt.ofWait (k : Cnt) : Bool := k = .tstStall || k = .strMutual

/-- None of the events is a stall-limit fault or a mutual wait. -/
def Events.waitFree (ev : Events) : Bool := ev.all fun e => !e.1.ofWait

@[simp] theorem Events.waitFree_nil : Events.waitFree [] = true := rfl
@[simp] theorem Events.waitFree_cons (e : Cnt × Nat × Nat) (ev : Events) :
    Events.waitFree (e :: ev) = (!e.1.ofWait && Events.waitFree ev) := rfl
@[simp] theorem Events.waitFree_append (ev ev' : Events) :
    Events.waitFree (ev ++ ev') = (Events.waitFree ev && Events.waitFree ev') := List.all_append

theorem Events.ofWait_of_mem {ev : Events} (h : ev.waitFree = true) {e : Cnt × Nat × Nat} (he : e ∈ ev) : e.1.ofWait = false := by
  simpa using List.all_eq_true.mp h e he

theorem Events.waitFree_flatMap {α : Type} {f : α → Events} {l : List α} (h : ∀ x ∈ l, (f x).waitFree = true) :
    Events.waitFree (l.flatMap f) = true := by
  induction l with
  | nil => rfl
  | cons x l ih => simp [h x, ih fun y hy => h y (List.mem_cons_of_mem x hy)]

theorem Events.waitFree_filter {ev : Events} (h : ev.waitFree = true) (p : Cnt × Nat × Nat → Bool) :
    Events.waitFree (ev.filter p) = true :=
  List.all_eq_true.mpr fun e he => List.all_eq_true.mp h e (List.mem_of_mem_filter he)

@[simp] theorem vecEvents_waitFree (v : VCount) : (vecEvents v).waitFree = true := by
  simp [vecEvents, Events.waitFree, Cnt.ofWait, Function.comp_def]

@[simp] theorem encEvents_waitFree (t : Nat) (e : Enc) : (encEvents t e).waitFree = true := rfl

@[simp] theorem writeRow_waitFree (r : Nat) (x : RowAt) (xs : List F32) : (writeRow r x xs).2.waitFree = true := by
  unfold writeRow
  dsimp only
  rw [Events.waitFree_append, List.flatMap_map, Events.waitFree_flatMap fun s _ => encEvents_waitFree .., Bool.and_true]
  split <;> rfl

@[simp] theorem finishRow_waitFree (r : Nat) (x : RowAt) (inp : StageIn) (xs : List F32) :
    (finishRow r x inp xs).2.waitFree = true := by
  change Events.waitFree (vecEvents _ ++ (writeRow r x _).2) = true
  simp

@[simp] theorem windowOut_waitFree (r : Nat) (x : RowAt) (f : Vec (List F32)) : (windowOut r x f).2.waitFree = true := by
  change Events.waitFree (vecEvents _ ++ (writeRow r x _).2 ++ [(.plnWinVoid, x.tile, _)]) = true
  simp [Cnt.ofWait]

/-! ### The rows of each command -/

/-- Whatever the port holds, the row counts no stall-limit fault and no mutual wait. -/
structure RowFree (x : Rd RowOut) : Prop where
  free : ∀ p, (x.run p).1.2.waitFree = true

theorem RowFree.pure {o : RowOut} (h : o.2.waitFree = true) : RowFree (Pure.pure o) := ⟨fun _ => h⟩
/-- What comes last decides what a row counts. -/
theorem RowFree.bind {α : Type} {x : Rd α} {f : α → Rd RowOut} (h : ∀ a, RowFree (f a)) : RowFree (x >>= f) :=
  ⟨fun p => (h (x.run p).1).free (x.run p).2⟩
/-- Saturations of the coordinates come before the events of the row's output. -/
theorem RowFree.pure_cons {o : RowOut} (h : o.2.waitFree = true) {e : Cnt × Nat × Nat} (he : e.1.ofWait = false) :
    RowFree (Pure.pure (o.1, e :: o.2)) := .pure (by simp [h, he])

section
variable (m : Mem) (c : Ctl) (j : Job) (r : Nat) (d : Drain) (x : RowAt)

theorem arrayRow_waitFree : RowFree (arrayRow m c j r d x) :=
  RowFree.bind fun _ => RowFree.pure (finishRow_waitFree ..)

theorem elementRow_waitFree : RowFree (elementRow m c j r d x) :=
  RowFree.bind fun _ => RowFree.bind fun _ => RowFree.pure (finishRow_waitFree ..)

theorem poolRow_waitFree : RowFree (poolRow m c j r x) :=
  RowFree.bind fun _ => RowFree.pure (windowOut_waitFree ..)

theorem nearestRow_waitFree : RowFree (nearestRow m c j r x) :=
  RowFree.bind fun _ => RowFree.pure (windowOut_waitFree ..)

theorem bilinearRow_waitFree : RowFree (bilinearRow m c j r x) :=
  RowFree.bind fun f => RowFree.pure_cons (windowOut_waitFree r x f) rfl

theorem cropRow_waitFree : RowFree (cropRow m c j r x) := by
  refine RowFree.bind fun cs => ?_
  dsimp only
  split
  · exact RowFree.pure_cons (writeRow_waitFree r x _) rfl
  · -- the two coordinates, then whether the box lies outside
    split
    split
    split
    · exact RowFree.pure_cons (writeRow_waitFree r x _) rfl
    · exact RowFree.bind fun f => RowFree.pure_cons (windowOut_waitFree r x f) rfl

theorem argmaxRow_waitFree : RowFree (argmaxRow m c j r x) :=
  RowFree.bind fun _ => RowFree.pure (by simp [Cnt.ofWait])

theorem s2cRow_waitFree : RowFree (s2cRow m c j r x) :=
  RowFree.bind fun _ => RowFree.pure (by simp [Cnt.ofWait])

theorem gatherRow_waitFree : RowFree (gatherRow m c j r x) := by
  refine RowFree.bind fun idx => ?_
  cases idx with
  | none => exact RowFree.pure (by simp [Cnt.ofWait])
  | some i =>
    dsimp only
    split
    · refine RowFree.bind fun _ => ?_
      split <;> exact RowFree.bind fun _ => RowFree.pure Events.waitFree_nil
    · split
      · exact RowFree.pure Events.waitFree_nil
      · exact RowFree.pure (by simp [Cnt.ofWait])

theorem scatterRow_waitFree : RowFree (scatterRow m c j r x) := by
  refine RowFree.bind fun idx => ?_
  cases idx with
  | none => exact RowFree.pure (by simp [Cnt.ofWait])
  | some i =>
    dsimp only
    split
    · split
      · exact RowFree.bind fun _ => RowFree.bind fun _ => RowFree.pure (vecEvents_waitFree _)
      · refine RowFree.bind fun _ => ?_
        split <;> exact RowFree.bind fun _ => RowFree.pure Events.waitFree_nil
    · exact RowFree.pure (by simp [Cnt.ofWait])

theorem adaptRow_waitFree : RowFree (adaptRow m c j r x) := by
  refine RowFree.bind fun gr => RowFree.bind fun ws => RowFree.bind fun ms => ?_
  dsimp only
  -- with or without the second moment; then the terms, and the elements
  split <;> refine RowFree.bind fun vs => ?_
  all_goals
    split
    split
    split
    · exact RowFree.pure (by simp [Cnt.ofWait])
    · exact RowFree.pure (by simp [Cnt.ofWait, Events.waitFree_filter])

/-- No row of a command counts a stall-limit fault or a mutual wait. -/
theorem outRow_waitFree : RowFree (outRow m c j r d x) := by
  unfold outRow
  split
  · exact poolRow_waitFree ..
  · exact poolRow_waitFree ..
  · exact nearestRow_waitFree ..
  · exact bilinearRow_waitFree ..
  · exact cropRow_waitFree ..
  · exact argmaxRow_waitFree ..
  · exact s2cRow_waitFree ..
  · exact gatherRow_waitFree ..
  · exact scatterRow_waitFree ..
  · exact elementRow_waitFree ..
  · exact adaptRow_waitFree ..
  · exact arrayRow_waitFree ..
end

end Sys2Proof.Machine
end

section
/-! SUPPORT for O43. What the end of a job keeps: the list of frozen objects, the counters of stall limits and mutual waits, what the
ports hold frozen, and what each job owns (08 R262; 09 R307; 13 R407; 15 R468). -/

namespace Sys2Proof.Machine

/-- What a job that ends leaves to itself where it is frozen: its number, handles and pages. -/
def Job.owned (j : Job) : Nat × List (Nat × Handle) × List Page := (j.no, j.handles, j.pages)

/-- What no end of a job, and nothing within it, changes of the jobs, the frozen objects, the ports and the counters of the waits. -/
def Ctl.estate (c : Ctl) : List (Nat × List (Nat × Handle) × List Page) × List Frozen × List (List (Nat × Nat × Nat × Nat)) × Nat × Nat :=
  (c.jobs.map Job.owned, c.sec.frozen, c.group.ports.map XwPort.frozen, c.counter .tstStall 0, c.counter .strMutual 0)

section
variable {a b : Ctl}
theorem Ctl.estate_of_eq (howned : a.jobs.map Job.owned = b.jobs.map Job.owned) (hsec : a.sec.frozen = b.sec.frozen)
    (hports : a.group.ports.map XwPort.frozen = b.group.ports.map XwPort.frozen)
    (hstall : a.counter .tstStall 0 = b.counter .tstStall 0) (hmutual : a.counter .strMutual 0 = b.counter .strMutual 0) :
    a.estate = b.estate := by
  rw [estate, estate, howned, hsec, hports, hstall, hmutual]

variable (h : a.estate = b.estate)
include h
theorem Ctl.owned_of_estate : a.jobs.map Job.owned = b.jobs.map Job.owned := congrArg (·.1) h
theorem Ctl.frozen_of_estate : a.sec.frozen = b.sec.frozen := congrArg (·.2.1) h
theorem Ctl.mutuals_of_estate : a.counter .strMutual 0 = b.counter .strMutual 0 := congrArg (·.2.2.2.2) h
end

@[simp] theorem Ctl.estate_ite (p : Prop) [Decidable p] (a b : Ctl) :
    (if p then a else b).estate = if p then a.estate else b.estate := apply_ite Ctl.estate p a b

theorem foldl_estate {α : Type} {f : Ctl → α → Ctl} (h : ∀ c x, (f c x).estate = c.estate) (l : List α) (c : Ctl) :
    (l.foldl f c).estate = c.estate := foldl_keeps Ctl.estate h l c

/-! ### Fields, jobs, packets and counters -/

@[simp] theorem Ctl.withPlane_estate (c : Ctl) (f : Plane → Plane) : (c.withPlane f).estate = c.estate := rfl
@[simp] theorem Ctl.withStore_estate (c : Ctl) (f : Store → Store) : (c.withStore f).estate = c.estate := rfl
@[simp] theorem Ctl.withProto_estate (c : Ctl) (f : Proto → Proto) : (c.withProto f).estate = c.estate := rfl
@[simp] theorem Ctl.setBank_estate (c : Ctl) (k : Nat) (b : Bank) : (c.setBank k b).estate = c.estate := rfl
@[simp] theorem emit_estate (ws : List Wr) (c : Ctl) : (emit ws c).estate = c.estate := rfl
@[simp] theorem setTag_estate (k v : Nat) (c : Ctl) : (setTag k v c).estate = c.estate := rfl
@[simp] theorem takeFree_estate (c : Ctl) : (takeFree c).2.estate = c.estate := rfl

theorem Ctl.setPort_estate (c : Ctl) (p : Nat) {x : XwPort} (hx : x.frozen = (c.port p).frozen) : (c.setPort p x).estate = c.estate := by
  refine Ctl.estate_of_eq rfl rfl ?_ rfl rfl
  change (c.group.ports.set p x).map XwPort.frozen = _
  rw [List.map_set, hx, Ctl.port]
  refine List.ext_getElem (by simp) fun i hi hi' => ?_
  rw [List.getElem_set]
  split
  · rename_i heq
    subst heq
    have hlen : p < c.group.ports.length := by simpa using hi'
    simp [List.getElem?_eq_getElem hlen]
  · rfl

theorem Ctl.mapJob_estate (no : Nat) {f : Job → Job} (c : Ctl) (hf : ∀ j, (f j).owned = j.owned) : (c.mapJob no f).estate = c.estate := by
  refine Ctl.estate_of_eq ?_ rfl rfl rfl rfl
  rw [Ctl.mapJob_jobs, List.map_map]
  refine List.map_congr_left fun k _ => ?_
  by_cases hk : k.no = no
  · simp [hk, hf]
  · simp [hk]

@[simp] theorem Ctl.mapJob_exec_estate (no : Nat) (f : Job → Exec) (c : Ctl) :
    (c.mapJob no fun j => { j with exec := f j }).estate = c.estate := Ctl.mapJob_estate no c fun _ => rfl
@[simp] theorem noteMove_estate (no : Nat) (c : Ctl) : (noteMove no c).estate = c.estate := Ctl.mapJob_estate no c fun _ => rfl
@[simp] theorem onExec_estate (no : Nat) (f : Exec → Exec) (c : Ctl) : (onExec no f c).estate = c.estate :=
  (noteMove_estate _ _).trans (Ctl.mapJob_estate no c fun _ => rfl)

@[simp] theorem send_estate (p : Packet) (c : Ctl) : (send p c).estate = c.estate :=
  Ctl.estate_of_eq (by rw [send_jobs]) (by rw [send_sec]) (by rw [send_group]) (send_counter rfl ..) (send_counter rfl ..)

@[simp] theorem event_estate (code job status list idx tag : Nat) (detail : List Byte) (more : List Peer) (c : Ctl) :
    (event code job status list idx tag detail more c).estate = c.estate :=
  Ctl.estate_of_eq (by rw [event_jobs]) (by rw [event_sec]) (by rw [event_group]) (event_counter rfl ..) (event_counter rfl ..)

@[simp] theorem answer_estate (r : Req) (kind : Nat) (st : KS) (body : List Byte) (c : Ctl) :
    (answer r kind st body c).estate = c.estate := by
  unfold answer answerAll
  extract_lets ps hit copy sent copied
  have hsent : sent.estate = c.estate := foldl_estate (fun c p => send_estate p c) ps c
  refine Eq.trans (b := copied.estate) rfl ?_
  unfold copied
  cases copy with
  | some q => exact (foldl_estate (fun c _ => send_estate _ c) ps sent).trans hsent
  | none => exact hsent

@[simp] theorem count_estate {k : Cnt} (hstall : k ≠ .tstStall) (hmutual : k ≠ .strMutual) (i n : Nat) (c : Ctl) :
    (count k i n c).estate = c.estate := by
  obtain rfl | hn := eq_or_ne n 0
  · rfl
  · exact Ctl.estate_of_eq (by rw [count_jobs]) (by rw [count_sec]) (by rw [count_group])
      (count_counter_ne rfl 0 hstall.symm i hn c) (count_counter_ne rfl 0 hmutual.symm i hn c)

theorem countEvents_estate {ev : Events} (h : ev.waitFree = true) (c : Ctl) : (countEvents ev c).estate = c.estate := by
  induction ev generalizing c with
  | nil => rfl
  | cons e ev ih =>
    have he : e.1 ≠ .tstStall ∧ e.1 ≠ .strMutual := by simpa [Cnt.ofWait] using Events.ofWait_of_mem h (List.mem_cons_self ..)
    have hev : Events.waitFree ev = true := (Bool.and_eq_true_iff.mp h).2
    exact (ih hev _).trans (count_estate he.1 he.2 ..)

/-! ### Slot tags -/

theorem setAll_estate {f : Nat → Ctl → Ctl} (h : ∀ k c, (f k c).estate = c.estate) (ks : List Nat) (c : Ctl) :
    (setAll f ks c).estate = c.estate := foldl_estate (fun c k => h k c) ks c
@[simp] theorem setFull_estate (k : Nat) (c : Ctl) : (setFull k c).estate = c.estate := by simp [setFull]
@[simp] theorem setEmpty_estate (k : Nat) (c : Ctl) : (setEmpty k c).estate = c.estate := by simp [setEmpty]
@[simp] theorem setVoided_estate (k : Nat) (c : Ctl) : (setVoided k c).estate = c.estate := rfl
@[simp] theorem setAllFull_estate (ks : List Nat) (c : Ctl) : (setAll setFull ks c).estate = c.estate := setAll_estate setFull_estate ks c
@[simp] theorem setAllEmpty_estate (ks : List Nat) (c : Ctl) : (setAll setEmpty ks c).estate = c.estate :=
  setAll_estate setEmpty_estate ks c
@[simp] theorem voidPart_estate (h : Handle) (s k : Nat) (c : Ctl) : (voidPart h s k c).estate = c.estate := by simp [voidPart]

/-! ### Reads of the memories -/

@[simp] theorem noteRead_estate (m : Mem) (w : Nat) (c : Ctl) : (noteRead m w c).estate = c.estate := by
  unfold noteRead
  dsimp only
  split
  · rfl
  · split <;>
      simp only [Ctl.estate_ite, Ctl.withStore_estate, ne_eq, reduceCtorEq, not_false_eq_true, count_estate, ite_self]

@[simp] theorem noteReads_estate (m : Mem) (ws : List Nat) (c : Ctl) : (noteReads m ws c).estate = c.estate :=
  foldl_estate (fun c w => noteRead_estate m w c) ws c
@[simp] theorem touchRow_estate (pc bk row n : Nat) (c : Ctl) : (touchRow pc bk row n c).estate = c.estate := by simp [touchRow]
@[simp] theorem touchHbm_estate (a n : Nat) (c : Ctl) : (touchHbm a n c).estate = c.estate :=
  foldl_estate (fun c _ => touchRow_estate _ _ _ _ c) _ c
@[simp] theorem touchPage_estate (fa : Nat) (big : Bool) (c : Ctl) : (touchPage fa big c).estate = c.estate := rfl
@[simp] theorem touchFrames_estate (ws : List Nat) (c : Ctl) : (touchFrames ws c).estate = c.estate :=
  foldl_estate (fun c _ => touchPage_estate _ _ c) _ c

@[simp] theorem noteVector_estate (m : Mem) (no idx : Nat) (p : Port) (c : Ctl) : (noteVector m no idx p c).estate = c.estate := by
  simp [noteVector, foldl_estate]

/-! ### Transfers of the stream engines -/

@[simp] theorem leaveSlots_estate (m : Mem) (j : Job) (x : Xfer) (rest : List Xfer) (c : Ctl) :
    (leaveSlots m j x rest c).estate = c.estate := by
  have tags (b : Bool) (ks : List Nat) (c : Ctl) : (setAll (if b then setFull else setEmpty) ks c).estate = c.estate ∧
      (setAll (if b then setEmpty else setFull) ks c).estate = c.estate := by cases b <;> simp
  unfold leaveSlots
  cases c.streamPos x with
  | none => rfl
  | some p =>
    dsimp only
    cases j.handle? (tMemHandle (j.stream x.record)) <;> simp [tags]

@[simp] theorem deliver_estate (m : Mem) (x : Xfer) (c : Ctl) : (deliver m x c).estate = c.estate := by
  unfold deliver
  extract_lets rest left moved read
  have hread : read.estate = c.estate := by simp [read, moved, show left.estate = c.estate from rfl]
  split
  · exact hread
  · split
    · exact (touchHbm_estate ..).trans hread
    · change (leaveSlots ..).estate = _
      simp [hread]

@[simp] theorem deliverAll_estate (no n : Nat) (m : Mem) (c : Ctl) : (deliverAll no n m c).estate = c.estate := by
  induction n generalizing m c with
  | zero => rfl
  | succ n ih =>
    rw [deliverAll]
    split
    · rfl
    · rw [ih]
      exact deliver_estate ..

@[simp] theorem deliverData_estate (no : Nat) (m : Mem) (c : Ctl) : (deliverData no m c).estate = c.estate := deliverAll_estate ..

@[simp] theorem voidParts_estate (m : Mem) (no : Nat) (c : Ctl) : (voidParts m no c).estate = c.estate := by
  unfold voidParts
  split
  · rfl
  · exact foldl_estate (fun c (x : Handle × Nat × Nat) => voidPart_estate x.1 x.2.1 x.2.2 c) _ _

@[simp] theorem saveStreams_estate (no : Nat) (c : Ctl) : (saveStreams no c).estate = c.estate :=
  Ctl.mapJob_estate no c fun _ => rfl

/-! ### Drains of the Plane -/

theorem payFor_estate (cls : Nat) (need : List (Nat × Nat × Nat)) (c : Ctl) : (payFor cls need c).2.estate = c.estate := by
  refine foldl_keeps (fun a : Bool × Ctl => a.2.estate) (fun a t => ?_) _ _
  simp [apply_ite Prod.snd, show ∀ t cls h n c, (chargeEngine t cls h n c).estate = c.estate from fun _ _ _ _ _ => rfl]

theorem payFor_granted_estate {cls : Nat} {need : List (Nat × Nat × Nat)} {c c' : Ctl} {granted : Bool}
    (h : payFor cls need c = (granted, c')) : c'.estate = c.estate := by simpa [h] using payFor_estate cls need c

theorem writeRuns_estate (qs : List (Nat × OutRun)) (m : Mem) (c : Ctl) : (writeRuns qs m c).2.1.estate = c.estate := by
  induction qs generalizing m c with
  | nil => rfl
  | cons q qs ih =>
    rw [writeRuns]
    dsimp only
    rw [ih]
    simp

theorem putRuns_estate {j : Job} {op : Nat} {want : Option Nat → Bool} {qs : List OutRun} {tagged : Bool} {m m' : Mem}
    {c c' : Ctl} {w : List Wr} (h : putRuns j op want qs tagged m c = .ok (m', c', w)) : c'.estate = c.estate := by
  unfold putRuns at h
  dsimp only at h
  split at h
  · cases h
  · split at h
    · cases h
    · obtain rfl : _ = c' := congrArg (·.2.1) (Except.ok.inj h)
      exact writeRuns_estate _ m c

theorem computeRows_waitFree (m : Mem) (c : Ctl) (j : Job) (r : Nat) (d : Drain) (xs : List RowAt) (p : RowAt × RowOut × Port → Bool) :
    Events.waitFree (((computeRows m c j r d xs).filter p).flatMap fun y => y.2.1.2) = true := by
  refine Events.waitFree_flatMap fun y hy => ?_
  obtain ⟨x, -, rfl⟩ := List.mem_map.mp (List.mem_filter.mp hy).1
  exact (outRow_waitFree m c j r d x).free _

theorem writeRows_estate {m : Mem} {d : Drain} {j : Job} {xs : List RowAt} {want : Option Nat → Bool} {c c' : Ctl}
    {w : List Wr} (h : writeRows m d j xs want c = .ok (c', w)) : c'.estate = c.estate := by
  unfold writeRows at h
  dsimp only at h
  split at h
  · cases h
  · split at h
    · cases h
    · rename_i hpay
      split at h
      · cases h
      · rename_i hput
        split at h
        · cases h
        · rename_i hput'
          obtain rfl : _ = c' := congrArg (·.1) (Except.ok.inj h)
          rw [countEvents_estate (computeRows_waitFree ..), noteVector_estate, putRuns_estate hput', putRuns_estate hput,
            payFor_granted_estate hpay]

theorem scatterRows_estate {j : Job} {r : Nat} {d : Drain} {xs : List RowAt} {need need' : List (Nat × Nat × Nat)}
    {u u' : List Wr} {m : Mem} {c c0 c' : Ctl} (h : scatterRows j r d xs need u m c c0 = .ok (c', need', u')) :
    c'.estate = c.estate := by
  induction xs generalizing need u m c with
  | nil =>
    cases h
    rfl
  | cons x xs ih =>
    have hfree := (outRow_waitFree m c j r d x).free Port.empty
    rw [scatterRows] at h
    split at h
    rename_i hrow
    rw [hrow] at hfree
    dsimp only at h
    split at h
    · cases h
    · split at h
      · cases h
      · rename_i hput
        rw [ih h, countEvents_estate hfree, noteVector_estate, putRuns_estate hput]

@[simp] theorem freeDrain_estate (c : Ctl) : (freeDrain c).estate = c.estate := by
  unfold freeDrain
  split
  · rfl
  · simp [freeRegisters]

theorem completeDrain_estate {m : Mem} {d : Drain} {j : Job} {c c' : Ctl} (h : completeDrain m d j c = .ok c') :
    c'.estate = c.estate := by
  unfold completeDrain at h
  dsimp only at h
  split at h
  · split at h
    · rename_i hput
      cases h
      simp [putRuns_estate hput]
    · cases h
  · split at h
    · split at h
      · cases h
      · rename_i hrows
        split at h
        · cases h
        · cases h
          rw [freeDrain_estate, setAllFull_estate, ← scatterRows_estate hrows]
          rfl
    · split at h
      · cases h
      · rename_i hrows
        cases h
        simp [writeRows_estate hrows]

@[simp] theorem finishDrain_estate (m : Mem) (c : Ctl) : (finishDrain m c).estate = c.estate := by
  unfold finishDrain
  split
  · rfl
  · split
    · simp
    · split
      · rename_i h
        exact completeDrain_estate h
      · rfl

@[simp] theorem undoDrain_estate (c : Ctl) : (undoDrain c).estate = c.estate := by
  unfold undoDrain
  split <;> simp

@[simp] theorem settleCut_estate (m : Mem) (no idx : Nat) (c : Ctl) : (settleCut m no idx c).estate = c.estate := by
  unfold settleCut
  dsimp only
  split
  · rfl
  · split
    · rfl
    · split
      · simp
      · split
        · rename_i h
          simp [completeDrain_estate h]
        · rfl

@[simp] theorem closeCommand_estate (j : Job) (i : Nat) (c : Ctl) : (closeCommand j i c).estate = c.estate := by
  unfold closeCommand
  simp only [onExec_estate, Ctl.estate_ite, ne_eq, reduceCtorEq, not_false_eq_true, count_estate, ite_self]
  -- what is left are the releases and the signal, each through a handle that the job may not have
  repeat' split
  all_goals simp

@[simp] theorem closeEarlier_estate (no idx : Nat) (c : Ctl) : (closeEarlier no idx c).estate = c.estate := by
  unfold closeEarlier
  split
  · rfl
  · refine foldl_estate (fun c i => ?_) _ _
    split
    · simp
    · rfl

@[simp] theorem settleDrain_estate (m : Mem) (no idx : Nat) (c : Ctl) : (settleDrain m no idx c).estate = c.estate := by
  unfold settleDrain
  dsimp only
  rw [closeEarlier_estate, settleCut_estate]
  split <;> simp

@[simp] theorem dropDrain_estate (no : Nat) (c : Ctl) : (dropDrain no c).estate = c.estate := by
  unfold dropDrain
  dsimp only
  split
  · rw [setAllEmpty_estate, emit_estate, Ctl.mapJob_exec_estate]
    split <;> simp
  · split <;> simp

@[simp] theorem leavePlane_estate (m : Mem) (j : Job) (idx : Nat) (c : Ctl) : (leavePlane m j idx c).estate = c.estate :=
  settleDrain_estate m j.no idx c

/-! ### Links, host transfers and results -/

@[simp] theorem pushPacket_estate (port type : Nat) (pk : XwPacket) (c : Ctl) : (pushPacket port type pk c).estate = c.estate := by
  unfold pushPacket
  extract_lets x
  split
  · exact Ctl.setPort_estate c port rfl
  · exact Ctl.setPort_estate c port rfl

@[simp] theorem tellMembers_estate (type : Nat) (j : Job) (words : List XwWord) (c : Ctl) :
    (tellMembers type j words c).estate = c.estate := by
  refine foldl_estate (fun c k => ?_) _ _
  split <;> simp

@[simp] theorem dropLinks_estate (no : Nat) (c : Ctl) : (dropLinks no c).estate = c.estate :=
  Ctl.estate_of_eq rfl rfl (List.map_map ..) rfl rfl

@[simp] theorem voidXfer_estate (x : HostXfer) (c : Ctl) : (voidXfer x c).estate = c.estate := by
  unfold voidXfer
  dsimp only
  split <;> simp [dropXfer]

@[simp] theorem voidHost_estate (j : Job) (c : Ctl) : (voidHost j c).estate = c.estate :=
  foldl_estate (fun c x => voidXfer_estate x c) _ _

@[simp] theorem freeFrames_estate (j : Job) (c : Ctl) : (freeFrames j c).estate = c.estate := rfl
@[simp] theorem endSlots_estate (j : Job) (c : Ctl) : (endSlots j c).estate = c.estate := foldl_estate (fun c p => by simp) _ _

@[simp] theorem sendResult_estate (m : Mem) (j : Job) (rp : Reply) (c : Ctl) : (sendResult m j rp c).estate = c.estate := by
  unfold sendResult
  extract_lets release parts read all max trunc counted body sizes pieces
  have hrelease (c : Ctl) : (release c).estate = c.estate := by
    unfold release
    split
    · exact foldl_estate (fun c h => by split <;> simp) _ _
    · rfl
  have hcounted : counted.estate = c.estate := by simp [counted, read]
  split
  · simp [hrelease]
  · rw [hrelease, foldl_estate fun c i => send_estate _ c, takeFree_estate, hcounted]

@[simp] theorem flushReplies_estate (m : Mem) (j : Job) (c : Ctl) : (flushReplies m j c).estate = c.estate := by
  refine foldl_estate (fun c rp => ?_) _ _
  split <;> simp

end Sys2Proof.Machine
end

section
/-! SUPPORT for O43. A job that ends at a record of its list: what is left of a job that is frozen itself, and that the end of a job
freezes nothing (13 R148, R407; 15 R470). -/

namespace Sys2Proof.Machine

/-! ### A frozen object is listed -/

section
variable (kind : Nat) (st : KS) (job tile ctx idx tag : Nat) (c : Ctl)

theorem freeze_jobs : (freeze kind st job tile ctx idx tag c).jobs = c.jobs := count_jobs ..

theorem freeze_job? (no : Nat) : (freeze kind st job tile ctx idx tag c).job? no = c.job? no := Ctl.job?_of_jobs (freeze_jobs ..) no

theorem freeze_slotTags : (freeze kind st job tile ctx idx tag c).slotTags = c.slotTags := count_slotTags ..

theorem freeze_group : (freeze kind st job tile ctx idx tag c).group = c.group := count_group ..

theorem freeze_wq : (freeze kind st job tile ctx idx tag c).wq = c.wq := count_wq ..

theorem freeze_proto_replies : (freeze kind st job tile ctx idx tag c).proto.replies = c.proto.replies := count_proto_replies ..

theorem freeze_intakes : (freeze kind st job tile ctx idx tag c).intakes = c.intakes := count_intakes ..

theorem freeze_counter {k : Cnt} (hk : k.reports = false) (hne : k ≠ .secFreeze) (i : Nat) :
    (freeze kind st job tile ctx idx tag c).counter k i = c.counter k i := count_counter_ne hk i hne _ Nat.one_ne_zero _

theorem mem_freeze : ∃ f ∈ (freeze kind st job tile ctx idx tag c).sec.frozen,
    f.kind = kind ∧ f.job = job ∧ f.tile = tile ∧ f.ctx = ctx ∧ f.status = st.code := by
  have hsec : (freeze kind st job tile ctx idx tag c).sec.frozen = c.sec.frozen ++ [_] := congrArg (·.frozen) (count_sec ..)
  rw [hsec]
  exact ⟨_, List.mem_append_right _ (List.mem_singleton_self _), rfl, rfl, rfl, rfl, rfl⟩
end

/-! ### A job that is found -/

theorem Ctl.map_job? {α : Type} (g : Job → α) (p : α → Nat) (hg : ∀ j, p (g j) = j.no) (c : Ctl) (no : Nat) :
    (c.jobs.map g).find? (fun x => decide (p x = no)) = (c.job? no).map g := by
  rw [List.find?_map]
  simp only [Function.comp_def, hg]
  rfl

/-- Where the jobs own what they owned, a job is found where one was, and owns the same. -/
theorem Ctl.job?_of_owned {a b : Ctl} (h : b.jobs.map Job.owned = a.jobs.map Job.owned) {no : Nat} {j : Job} (hj : a.job? no = some j) :
    ∃ k, b.job? no = some k ∧ k.owned = j.owned := by
  have hfind := congrArg (List.find? fun x => decide (x.1 = no)) h
  rw [Ctl.map_job? Job.owned (·.1) fun _ => rfl, Ctl.map_job? Job.owned (·.1) fun _ => rfl, hj] at hfind
  exact Option.map_eq_some_iff.mp hfind

theorem Ctl.job?_of_roster {a b : Ctl} (h : b.roster = a.roster) {no : Nat} {j : Job} (hj : a.job? no = some j) :
    ∃ k, b.job? no = some k ∧ k.ended = j.ended := by
  have hfind := congrArg (List.find? fun x => decide (x.1 = no)) h
  rw [roster, roster, Ctl.map_job? Job.face (·.1) fun _ => rfl, Ctl.map_job? Job.face (·.1) fun _ => rfl, hj] at hfind
  obtain ⟨k, hk, hface⟩ := Option.map_eq_some_iff.mp hfind
  exact ⟨k, hk, congrArg (·.2.2) hface⟩

/-! ### The end of a job -/

/-- A job as its end leaves it: frozen itself, it keeps its pages, handles and windows (R262, R407, R470). -/
def Job.atEnd (kept : Bool) (st : KS) (list idx tag : Nat) (k : Job) : Job :=
  { k with
    ended := true, running := none, waiting := none, lastStatus := st.code, lastList := list, lastIndex := idx
    lastTag := tag, exec := Exec.start, endReq := none, abortReq := none, admitReq := none
    pages := if kept then k.pages else [], handles := if kept then k.handles else []
    windows := if kept then k.windows else [] }

/-- The job that ends stays as an ended one where something of it is left, and is gone otherwise. -/
def Ctl.withoutRun (kept : Bool) (no : Nat) (st : KS) (list idx tag : Nat) (c : Ctl) : Ctl :=
  if c.leftOf no then c.mapJob no (Job.atEnd kept st list idx tag) else { c with jobs := c.jobs.filter fun k => k.no ≠ no }

theorem Ctl.withoutRun_estate (kept : Bool) (no : Nat) (st : KS) (list idx tag : Nat) (c : Ctl) :
    (c.withoutRun kept no st list idx tag).estate.2 = c.estate.2 := by
  unfold withoutRun
  split <;> rfl

/-- The end of a job is a change of its own entry among the jobs, after which it is told. -/
theorem endJobWith_entry (detail : List Byte) (m : Mem) {no : Nat} (st : KS) (list idx tag : Nat) {c : Ctl} {j : Job}
    (hj : c.job? no = some j) (he : j.ended = false) : ∃ freed : Ctl, freed.estate = c.estate ∧
      (endJobWith detail m no st list idx tag c).estate = (freed.withoutRun (c.jobFrozen no) no st list idx tag).estate ∧
      (endJobWith detail m no st list idx tag c).jobs = (freed.withoutRun (c.jobFrozen no) no st list idx tag).jobs := by
  unfold endJobWith
  simp -zeta only [hj, he, Bool.false_eq_true, if_false]
  extract_lets left hit faulted delivered saved flushed seq told unlinked voided kept emptied dropped freed mark ended sent
    endAnswered admitAnswered
  have hvoided : voided.estate = c.estate := by
    simp [voided, unlinked, told, flushed, saved, delivered, faulted, left]
  have hkept : kept = c.jobFrozen no := by
    unfold kept Ctl.jobFrozen
    rw [Ctl.frozen_of_estate hvoided]
  have hfreed : freed.estate = c.estate := by simp [freed, dropped, emptied, hvoided]
  have hended : ended = freed.withoutRun (c.jobFrozen no) no st list idx tag := hkept ▸ rfl
  have hend : endAnswered.estate = ended.estate ∧ endAnswered.jobs = ended.jobs := by
    unfold endAnswered
    split <;> simp [sent]
  have hadmit : admitAnswered.estate = ended.estate ∧ admitAnswered.jobs = ended.jobs := by
    unfold admitAnswered
    split <;> simp [hend]
  refine ⟨freed, hfreed, ?_⟩
  rw [← hended]
  split <;> simp [hadmit]

/-- The end of a job freezes nothing, and counts neither a stall limit nor a mutual wait. -/
theorem endJobWith_estate (detail : List Byte) (m : Mem) (no : Nat) (st : KS) (list idx tag : Nat) (c : Ctl) :
    (endJobWith detail m no st list idx tag c).estate.2 = c.estate.2 := by
  cases hj : c.job? no with
  | none => simp [endJobWith, hj]
  | some j =>
    cases he : j.ended with
    | true => simp [endJobWith, hj, he]
    | false =>
      obtain ⟨freed, hfreed, hestate, -⟩ := endJobWith_entry detail m st list idx tag hj he
      rw [hestate, Ctl.withoutRun_estate, hfreed]

/-- A job that is frozen itself stays as an ended one, and keeps its handles and pages (R262, R470). -/
theorem endJobWith_keeps (detail : List Byte) (m : Mem) {no : Nat} (st : KS) (list idx tag : Nat) {c : Ctl} {j : Job}
    (hj : c.job? no = some j) (he : j.ended = false) (hfrozen : c.jobFrozen no = true) :
    ∃ k, (endJobWith detail m no st list idx tag c).job? no = some k ∧ k.ended = true ∧ k.handles = j.handles ∧ k.pages = j.pages ∧
      k.lastStatus = st.code := by
  obtain ⟨freed, hfreed, -, hjobs⟩ := endJobWith_entry detail m st list idx tag hj he
  obtain ⟨k, hk, howned⟩ := Ctl.job?_of_owned (Ctl.owned_of_estate hfreed) hj
  have hleft : freed.leftOf no = true := by
    obtain ⟨f, hf, hkind⟩ := List.any_eq_true.mp hfrozen
    rw [Ctl.leftOf, Ctl.frozen_of_estate hfreed, Bool.or_eq_true]
    exact .inl (List.any_eq_true.mpr ⟨f, hf, by simpa using (Bool.and_eq_true_iff.mp hkind).2⟩)
  rw [Ctl.withoutRun, if_pos hleft, hfrozen] at hjobs
  refine ⟨k.atEnd true st list idx tag, ?_, rfl, congrArg (·.2.1) howned, congrArg (·.2.2) howned, rfl⟩
  rw [Ctl.job?_of_jobs hjobs]
  exact Ctl.job?_mapJob_self hk fun _ => rfl

theorem failAt_of_job {m : Mem} {no : Nat} {st : KS} {idx : Nat} {c : Ctl} {j : Job} (hj : c.job? no = some j) :
    failAt m no st idx c = endJobWith [] m no st 4 idx (rTag (j.cmds.getD idx 0)) c := by
  rw [failAt, hj]
  rfl

theorem failJob_of_job {m : Mem} {no : Nat} {st : KS} {c : Ctl} {j : Job} (hj : c.job? no = some j) :
    failJob m no st c = endJobWith [] m no st 4 j.exec.pc (rTag (j.cmds.getD j.exec.pc 0)) c := by
  rw [failJob, hj]
  rfl

section
variable (m : Mem) {no : Nat} (st : KS) (idx : Nat) {c : Ctl} {j : Job} (hj : c.job? no = some j)
include hj

theorem failAt_estate : (failAt m no st idx c).estate.2 = c.estate.2 := by
  rw [failAt_of_job hj, endJobWith_estate]

theorem failAt_frozen : (failAt m no st idx c).sec.frozen = c.sec.frozen := congrArg (·.1) (failAt_estate m st idx hj)
theorem failAt_stalls : (failAt m no st idx c).counter .tstStall 0 = c.counter .tstStall 0 :=
  congrArg (·.2.2.1) (failAt_estate m st idx hj)
theorem failAt_mutuals : (failAt m no st idx c).counter .strMutual 0 = c.counter .strMutual 0 :=
  congrArg (·.2.2.2) (failAt_estate m st idx hj)

theorem failAt_allOver (he : j.ended = false) : (failAt m no st idx c).allOver no := by
  rw [failAt_of_job hj]
  exact (endJobWith_endsJob [] m st 4 idx _ hj he).allOver

theorem failJob_estate : (failJob m no st c).estate.2 = c.estate.2 := by
  rw [failJob_of_job hj, endJobWith_estate]

theorem failJob_frozen : (failJob m no st c).sec.frozen = c.sec.frozen := congrArg (·.1) (failJob_estate m st hj)
theorem failJob_ports : (failJob m no st c).group.ports.map XwPort.frozen = c.group.ports.map XwPort.frozen :=
  congrArg (·.2.1) (failJob_estate m st hj)
theorem failJob_stalls : (failJob m no st c).counter .tstStall 0 = c.counter .tstStall 0 :=
  congrArg (·.2.2.1) (failJob_estate m st hj)

theorem failJob_allOver (he : j.ended = false) : (failJob m no st c).allOver no := by
  rw [failJob_of_job hj]
  exact (endJobWith_endsJob [] m st 4 _ _ hj he).allOver
end

end Sys2Proof.Machine
end

section
/-! PROOF of O43. Waits past their limits, for each of the seven masters (08 R260 to R262; 09 R304 to R307; 13 R390, R411; 17 R541). -/

namespace Sys2Proof.Machine

theorem State.run_sec_frozen {f : Mem → Ctl → Ctl} {s : State} : (s.run f).ctl.sec.frozen = (f s.mem s.ctl).sec.frozen := by simp

/-! ### Waits of a job that holds the Plane -/

theorem copySuspends_of_none {c : Ctl} (h : c.plane.copying = none) (w : Waiter) : copySuspends c w = false := by
  cases w <;> simp [copySuspends, h]

theorem stallLimit_of_free {c : Ctl} (h : c.plane.copying = none) (w : Waiter) (m : Mem) : stallLimit w m c = pastLimit w m c := by
  simp [stallLimit, copySuspends_of_none h]

theorem drainWait_job {m : Mem} {c : Ctl} {j : Job} {d : Drain} {on : List (Nat × Nat)} (h : drainWait m c = some (j, d, on)) :
    c.job? j.no = some j := by
  unfold drainWait at h
  split at h
  · cases h
  · split at h
    · rename_i k hk
      have hjk : k = j := by
        split at h
        · cases h
        · split at h <;> cases h <;> rfl
      subst hjk
      rw [Ctl.no_of_job? hk, hk]
    · cases h

section
variable {m : Mem} {j : Job} {start : Option Nat} {read : Bool} {on : List (Nat × Nat)} {fault : Ctl → Ctl} {c : Ctl}

/-- A wait that no tag holds, that halted streams would end, or that is within its limit, is left as it is (R262, R304). -/
theorem stall_of_idle (h : on = [] ∨ onHalted m c j on = true ∨ overdue c (stallUs c j read on) start = false) :
    stall m j start read on fault c = c := by
  refine if_pos ?_
  simpa using h

section
variable (hon : on ≠ []) (hhalted : onHalted m c j on = false) (hdue : overdue c (stallUs c j read on) start = true)
include hon hhalted hdue

theorem stall_of_mutual (hmutual : mutualWait m c j = true) : stall m j start read on fault c = endMutual m j c := by
  unfold stall
  rw [if_neg (by simp [hon, hhalted, hdue]), if_pos hmutual]

theorem stall_of_fault (hmutual : mutualWait m c j = false) : stall m j start read on fault c = fault c := by
  unfold stall
  rw [if_neg (by simp [hon, hhalted, hdue]), if_neg (by simp [hmutual])]
end
end

/-! ### A mutual wait (R307) -/

/-- Slots that the hit command released are empty before its job ends. -/
def releaseHit (j : Job) (i h : Nat) (c : Ctl) : Ctl :=
  match j.handle? h with
  | some e => setAll setEmpty (((j.exec.readSlots.filter fun x => x.1 = i && x.2.1 = h).map (·.2.2)).flatMap e.slotKeys) c
  | none => c

theorem releaseHit_estate (j : Job) (i h : Nat) (c : Ctl) : (releaseHit j i h c).estate = c.estate := by
  unfold releaseHit
  split <;> simp

theorem releaseHit_underway (j : Job) (i h : Nat) (c : Ctl) : (releaseHit j i h c).underway = c.underway := by
  unfold releaseHit
  split <;> simp

/-- A mutual wait ends its job with nothing frozen, and is counted. -/
theorem endMutual_ends (m : Mem) {c : Ctl} {j : Job} (hj : c.job? j.no = some j) (he : j.ended = false) :
    (endMutual m j c).allOver j.no ∧ (endMutual m j c).sec.frozen = c.sec.frozen ∧
    (endMutual m j c).counter .strMutual 0 = (countValue Cnt.strMutual.info.2.2 (c.counter .strMutual 0) 1).1 := by
  unfold endMutual
  extract_lets delivered i r read release released freed
  have hrelease (h : Nat) (c : Ctl) : release h c = releaseHit j i h c := rfl
  have hfreed : freed.estate = c.estate := by simp [freed, released, delivered, hrelease, releaseHit_estate]
  have hunderway : freed.underway = c.underway := by
    simp [freed, released, delivered, hrelease, releaseHit_underway, deliverData]
  obtain ⟨k, hk, hended⟩ := Ctl.job?_of_roster (b := count .strMutual 0 1 freed)
    (Ctl.roster_of_underway ((count_underway ..).trans hunderway)) hj
  refine ⟨failAt_allOver m .mutualWait i hk (hended.trans he), ?_, ?_⟩
  · rw [failAt_frozen m .mutualWait i hk, count_sec, Ctl.frozen_of_estate hfreed]
  · rw [failAt_mutuals m .mutualWait i hk, count_counter_self rfl 0 Nat.one_ne_zero, Ctl.mutuals_of_estate hfreed]

/-! ### A stall-limit fault -/

/-- A job past its stall limit is frozen with all that it owns. -/
theorem stallJob_ends (m : Mem) (idx : Nat) {c : Ctl} {j : Job} (hj : c.job? j.no = some j) (he : j.ended = false) :
    (∃ f ∈ (stallJob m j idx c).sec.frozen, f.kind = 2 ∧ f.job = j.no ∧ f.status = KS.stallLimit.code) ∧
    (stallJob m j idx c).counter .tstStall 0 = (countValue Cnt.tstStall.info.2.2 (c.counter .tstStall 0) 1).1 ∧
    ∃ k, (stallJob m j idx c).job? j.no = some k ∧ k.ended = true ∧ k.handles = j.handles ∧ k.pages = j.pages ∧
      k.lastStatus = KS.stallLimit.code := by
  unfold stallJob
  extract_lets frozen
  have hjobs : frozen.jobs = c.jobs := (freeze_jobs ..).trans (count_jobs ..)
  have hk : frozen.job? j.no = some j := (Ctl.job?_of_jobs hjobs _).trans hj
  obtain ⟨f, hf, hkind, hjob, -, -, hstatus⟩ := mem_freeze 2 .stallLimit j.no 0 0 idx (rTag (j.cmd idx)) (count .tstStall 0 1 c)
  have hlisted : frozen.jobFrozen j.no = true := List.any_eq_true.mpr ⟨f, hf, by simp [hkind, hjob]⟩
  refine ⟨⟨f, (failAt_frozen m .stallLimit idx hk).symm ▸ hf, hkind, hjob, hstatus⟩, ?_, ?_⟩
  · have hcount : frozen.counter .tstStall 0 = (count .tstStall 0 1 c).counter .tstStall 0 := freeze_counter _ _ _ _ _ _ _ _ rfl (by decide) 0
    rw [failAt_stalls m .stallLimit idx hk, hcount, count_counter_self rfl 0 Nat.one_ne_zero]
  · rw [failAt_of_job hk]
    exact endJobWith_keeps [] m .stallLimit 4 idx _ hk he hlisted

/-! ### The four masters of a job -/

/-- A stream past its stall limit is frozen, and its job ends. -/
theorem streamFault_ends (m : Mem) {x : Ctx} {c : Ctl} {j : Job} (hj : c.job? x.job = some j) (he : j.ended = false) :
    (streamFault m .stallLimit true x c).allOver x.job ∧ ∃ f ∈ (streamFault m .stallLimit true x c).sec.frozen,
      f.kind = 1 ∧ f.job = x.job ∧ f.tile = x.tile ∧ f.ctx = x.ctx ∧ f.status = KS.stallLimit.code := by
  unfold streamFault
  rw [hj]
  dsimp only
  rw [if_pos rfl, if_neg (by decide)]
  generalize hidx : tCmd (j.stream x.pos.record) = idx
  obtain ⟨f, hf, hfacts⟩ := mem_freeze 1 .stallLimit x.job x.tile x.ctx idx (rTag (j.cmds.getD idx 0)) c
  have hk := (Ctl.job?_of_jobs (freeze_jobs 1 .stallLimit x.job x.tile x.ctx idx (rTag (j.cmds.getD idx 0)) c) _).trans hj
  exact ⟨failAt_allOver m .stallLimit idx hk he, f, (failAt_frozen m .stallLimit idx hk).symm ▸ hf, hfacts⟩

/-- What a wait of a master of a job does: nothing within its limit; then the end of a mutual wait, or the fault. -/
theorem ends_of_stall {i : Instr} {s : State} {f : Mem → Ctl → Ctl} {j : Job} {start : Option Nat} {read : Bool}
    {on : List (Nat × Nat)} {fault : Ctl → Ctl} {P : State → Prop} (hs : s.ready) (hi : exec i s = .next (s.run f))
    (hf : f s.mem s.ctl = stall s.mem j start read on fault s.ctl) (hj : s.ctl.job? j.no = some j) (he : j.ended = false)
    (hfault : f s.mem s.ctl = fault s.ctl → P (s.run f)) :
    (on = [] ∨ onHalted s.mem s.ctl j on = true ∨ overdue s.ctl (stallUs s.ctl j read on) start = false → exec i s = .next s) ∧
    (on ≠ [] → onHalted s.mem s.ctl j on = false → overdue s.ctl (stallUs s.ctl j read on) start = true →
      mutualWait s.mem s.ctl j = true →
      completes i s fun t => endedJob t j.no ∧ counted .strMutual 0 1 s t ∧ t.ctl.sec.frozen = s.ctl.sec.frozen) ∧
    (on ≠ [] → onHalted s.mem s.ctl j on = false → overdue s.ctl (stallUs s.ctl j read on) start = true →
      mutualWait s.mem s.ctl j = false → completes i s P) := by
  refine ⟨fun hidle => ?_, fun hon hhalted hdue hmutual => ⟨s.run f, hi, ?_⟩, fun hon hhalted hdue hmutual => ⟨s.run f, hi, ?_⟩⟩
  · exact exec_eq_self hs hi (hf.trans (stall_of_idle hidle))
  · have hend := hf.trans (stall_of_mutual (fault := fault) hon hhalted hdue hmutual)
    obtain ⟨hover, hfrozen, hcounter⟩ := endMutual_ends s.mem hj he
    rw [← hend] at hover hfrozen hcounter
    exact ⟨endedJob_run.mpr hover, counted_of_run rfl hcounter, State.run_sec_frozen.trans hfrozen⟩
  · exact hfault (hf.trans (stall_of_fault hon hhalted hdue hmutual))

/-- A stall-limit fault of a job freezes it with its handles and pages. -/
theorem stalled_run {s : State} {f : Mem → Ctl → Ctl} {j : Job} (idx : Nat) (hj : s.ctl.job? j.no = some j) (he : j.ended = false)
    (hf : f s.mem s.ctl = stallJob s.mem j idx s.ctl) : frozenNow (s.run f) 2 j.no .stallLimit ∧ counted .tstStall 0 1 s (s.run f) ∧
      withJob (s.run f) j.no fun k => k.ended = true ∧ k.handles = j.handles ∧ k.pages = j.pages ∧ k.lastStatus = KS.stallLimit.code := by
  obtain ⟨⟨x, hx, hfacts⟩, hcounter, k, hk, hkept⟩ := stallJob_ends s.mem idx hj he
  rw [← hf] at hx hcounter hk
  exact ⟨⟨x, State.run_sec_frozen ▸ hx, hfacts⟩, counted_of_run rfl hcounter, withJob_run hk hkept⟩

end Sys2Proof.Machine
end

section
/-! SUPPORT for O43. An intake context that is ended by force: every slot that it was filling is VOIDED (08 R257; 13 R388, R390). -/

namespace Sys2Proof.Machine

/-! ### Slots that are VOIDED -/

/-- The slot is full and VOIDED. -/
def Ctl.voidedAt (c : Ctl) (k : Nat) : Prop := c.slotFull k = true ∧ c.slotVoided k = true

theorem Ctl.voidedAt_of_slotTags {a b : Ctl} (h : a.slotTags = b.slotTags) (k : Nat) : a.voidedAt k ↔ b.voidedAt k := by
  rw [voidedAt, voidedAt, slotFull_of_slotTags h, slotVoided_of_slotTags h]

theorem setVoided_voidedAt (x : Nat) (c : Ctl) (k : Nat) : (setVoided x c).voidedAt k ↔ k = x ∨ c.voidedAt k := by
  simp only [Ctl.voidedAt, setVoided_slotFull, setVoided_slotVoided, Bool.or_eq_true, beq_iff_eq]
  tauto

theorem setAllVoided_voidedAt (ks : List Nat) (c : Ctl) (k : Nat) : (setAll setVoided ks c).voidedAt k ↔ k ∈ ks ∨ c.voidedAt k := by
  induction ks generalizing c with
  | nil => simp [setAll]
  | cons x ks ih =>
    refine (ih (setVoided x c)).trans ?_
    rw [setVoided_voidedAt, List.mem_cons]
    tauto

/-! ### What the trigger of a run leaves of the intake contexts (R418) -/

/-- What the end of a frame reads: the intake contexts, the parameters and the slot tags. -/
def Ctl.landing (c : Ctl) : List (Nat × Intake) × List (Nat × Nat) × List (Nat × Nat) := (c.intakes, c.params, c.slotTags)

theorem count_landing (k : Cnt) (i n : Nat) (c : Ctl) : (count k i n c).landing = c.landing := by simp [Ctl.landing]
theorem event_landing (code job status list idx tag : Nat) (detail : List Byte) (more : List Peer) (c : Ctl) :
    (event code job status list idx tag detail more c).landing = c.landing := by simp [Ctl.landing]

theorem runTold_landing (j : Job) (who : Peer) (time : Nat) (c : Ctl) : (runTold j who time c).landing = c.landing := by
  unfold runTold
  extract_lets told gale
  have htold : told.landing = c.landing := by
    unfold told
    split
    · have hsame := tellMembers_unported 3 j [startWord who time] c
      exact (congrArg Ctl.landing hsame : (tellMembers 3 j [startWord who time] c).unported.landing = c.unported.landing)
    · rfl
  have hgale : gale.landing = told.landing := by
    unfold gale
    split <;> rfl
  rw [count_landing, hgale, htold]

theorem beginRun_landing (no : Nat) (who : Peer) (time : Nat) (c : Ctl) : (beginRun no who time c).landing = c.landing := by
  cases hj : c.job? no with
  | none => simp [beginRun, hj]
  | some j =>
    rw [beginRun_eq hj]
    exact runTold_landing j who time c

theorem galeTrigger_landing (context time : Nat) (c : Ctl) : (galeTrigger context time c).landing = c.landing := by
  refine foldl_keeps Ctl.landing (fun c j0 => ?_) _ c
  split
  · rfl
  · dsimp only
    repeat' split
    · exact event_landing ..
    · exact event_landing ..
    · exact (event_landing ..).trans (count_landing ..)
    · exact (event_landing ..).trans (count_landing ..)
    · exact beginRun_landing ..

/-! ### A frame that ends by force (R388) -/

/-- What the end by force reads of intake context `n`. -/
def Ctl.taking (n : Nat) (c : Ctl) : List (Nat × Nat) × Bool × List Frame × Nat × Option Nat :=
  (c.params, (c.intake n).busy, (c.intake n).ended, (c.intake n).next, (c.intake n).layout)

theorem Ctl.cfg_of_taking {n : Nat} {a b : Ctl} (h : a.taking n = b.taking n) : a.cfg n = b.cfg n := by
  have hparams : a.params = b.params := congrArg (·.1) h
  have hlayout : (a.intake n).layout = (b.intake n).layout := congrArg (·.2.2.2.2) h
  rw [cfg, cfg, param, param, hparams, hlayout]

theorem Ctl.taking_of_landing {a b : Ctl} (h : a.landing = b.landing) (n : Nat) : a.taking n = b.taking n := by
  have hintakes : a.intakes = b.intakes := congrArg (·.1) h
  have hparams : a.params = b.params := congrArg (·.2.1) h
  rw [taking, taking, intake, intake, hintakes, hparams]

theorem Ctl.setIntake_intake (c : Ctl) (n : Nat) (x : Intake) : (c.setIntake n x).intake n = x := by
  rw [intake, setIntake, SMap.get_put, if_pos rfl]

theorem Ctl.slotTags_of_landing {a b : Ctl} (h : a.landing = b.landing) : a.slotTags = b.slotTags := congrArg (·.2.2) h

theorem setAllVoided_taking (n : Nat) (ks : List Nat) (c : Ctl) : (setAll setVoided ks c).taking n = c.taking n :=
  foldl_keeps (Ctl.taking n) (fun c k => (rfl : (setVoided k c).taking n = c.taking n)) ks c

/-- A frame that ends by force leaves its slot VOIDED in every store of it. -/
theorem setFrameFull_forced (m : Mem) (n : Nat) (f : Frame) (c : Ctl) : (setFrameFull m n f true c).taking n = c.taking n ∧
    ∀ k, (setFrameFull m n f true c).voidedAt k ↔ k ∈ landKeys (c.cfg n) f.slot ∨ c.voidedAt k := by
  unfold setFrameFull
  extract_lets cfg stamped keys voided counted
  have hvoided : voided = count .tstSlotVoided 0 1 (setAll setVoided keys stamped) := if_pos rfl
  have hcounted : counted.landing = (setAll setVoided keys stamped).landing := by
    unfold counted
    rw [count_landing, hvoided, count_landing]
  have htaking : counted.taking n = c.taking n := (Ctl.taking_of_landing hcounted n).trans (setAllVoided_taking n keys stamped)
  have hkeys (k : Nat) : counted.voidedAt k ↔ k ∈ keys ∨ c.voidedAt k :=
    (Ctl.voidedAt_of_slotTags (Ctl.slotTags_of_landing hcounted) k).trans (setAllVoided_voidedAt keys stamped k)
  split
  · refine ⟨?_, hkeys⟩
    rw [← htaking, Ctl.taking, Ctl.setIntake_intake]
    rfl
  · split
    · have hgale := galeTrigger_landing n f.tEnd counted
      exact ⟨(Ctl.taking_of_landing hgale n).trans htaking,
        fun k => (Ctl.voidedAt_of_slotTags (Ctl.slotTags_of_landing hgale) k).trans (hkeys k)⟩
    · exact ⟨htaking, hkeys⟩

/-- Frames that end by force leave each its slot VOIDED. -/
theorem foldl_setFrameFull_forced (m : Mem) (n : Nat) (fs : List Frame) (c : Ctl) :
    (fs.foldl (fun c f => setFrameFull m n f true c) c).taking n = c.taking n ∧
    ∀ k, (fs.foldl (fun c f => setFrameFull m n f true c) c).voidedAt k ↔
      (∃ f ∈ fs, k ∈ landKeys (c.cfg n) f.slot) ∨ c.voidedAt k := by
  induction fs generalizing c with
  | nil => simp
  | cons f fs ih =>
    obtain ⟨htaking, hkeys⟩ := setFrameFull_forced m n f c
    obtain ⟨htakings, hall⟩ := ih (setFrameFull m n f true c)
    refine ⟨htakings.trans htaking, fun k => (hall k).trans ?_⟩
    rw [hkeys, Ctl.cfg_of_taking htaking, List.exists_mem_cons_iff, or_left_comm, or_assoc]

/-- The frames that had ended and still waited end by force: their slots are VOIDED, and none is left. -/
theorem forceEnded_voids (m : Mem) (n : Nat) (c : Ctl) :
    (forceEnded m n c).taking n = (c.params, (c.intake n).busy, [], (c.intake n).next, (c.intake n).layout) ∧
    (forceEnded m n c).cfg n = c.cfg n ∧
    ∀ k, (∃ f ∈ (c.intake n).ended, k ∈ landKeys (c.cfg n) f.slot) → (forceEnded m n c).voidedAt k := by
  unfold forceEnded
  extract_lets fs
  generalize hopen : c.setIntake n { c.intake n with ended := [] } = opened
  have hview : opened.taking n = (c.params, (c.intake n).busy, [], (c.intake n).next, (c.intake n).layout) := by
    rw [← hopen, Ctl.taking, Ctl.setIntake_intake]
    rfl
  have hcfg : opened.cfg n = c.cfg n := by
    rw [← hopen, Ctl.cfg, Ctl.cfg, Ctl.setIntake_intake]
    rfl
  obtain ⟨htaking, hkeys⟩ := foldl_setFrameFull_forced m n fs opened
  exact ⟨htaking.trans hview, (Ctl.cfg_of_taking htaking).trans hcfg, fun k hk => (hkeys k).mpr (.inl (hcfg ▸ hk))⟩

/-- The context that is ended by force has no frame left, and every slot that it was filling is VOIDED. -/
theorem forceEnd_voids (m : Mem) (n : Nat) (c : Ctl) : ((forceEnd m n c).intake n).busy = false ∧
    ((forceEnd m n c).intake n).ended = [] ∧
    ∀ k, ((c.intake n).busy = true ∧ k ∈ landKeys (c.cfg n) (c.intake n).next) ∨
      (∃ f ∈ (c.intake n).ended, k ∈ landKeys (c.cfg n) f.slot) → (forceEnd m n c).voidedAt k := by
  obtain ⟨hview, hcfg, hvoids⟩ := forceEnded_voids m n c
  unfold forceEnd
  extract_lets d
  change d.taking n = _ at hview
  have hbusy : (d.intake n).busy = (c.intake n).busy := congrArg (·.2.1) hview
  have hended : (d.intake n).ended = [] := congrArg (·.2.2.1) hview
  have hnext : (d.intake n).next = (c.intake n).next := congrArg (·.2.2.2.1) hview
  split
  · obtain ⟨hframe, hclosed⟩ := setFrameFull_forced m n (frameOf d (d.intake n)) d
    have hleft : ((setFrameFull m n (frameOf d (d.intake n)) true d).intake n).ended = [] :=
      (congrArg (·.2.2.1) hframe).trans hended
    unfold closeFrame nextFrame
    rw [Ctl.setIntake_intake]
    refine ⟨rfl, hleft, fun k hk => (hclosed k).mpr (hk.imp (fun hk => ?_) (hvoids k))⟩
    have hslot : (frameOf d (d.intake n)).slot = (c.intake n).next := hnext
    rw [hcfg, hslot]
    exact hk.2
  · rename_i hidle
    refine ⟨by simpa using hidle, hended, fun k hk => hvoids k (hk.resolve_left fun hk => hidle ?_)⟩
    rw [hbusy, hk.1]

end Sys2Proof.Machine
end

section
/-! PROOF of O43. Results, intake contexts and links past their limits, and the seven masters together (08 R260 to R262; 09 R304 to
R307; 13 R390, R411; 17 R541). -/

namespace Sys2Proof.Machine

/-! ### A RESULT (R411) -/

/-- The first RESULT that has waited too long is marked frozen. -/
def markReply (rp : Reply) (c : Ctl) : Ctl :=
  (count .tstStall 0 1 c).withProto fun p => { p with replies := p.replies.map fun x => if x = rp then { x with frozen := true } else x }

theorem markReply_leaves (rp : Reply) (c : Ctl) : (markReply rp c).wq = c.wq ∧ (markReply rp c).jobs = c.jobs ∧
    (markReply rp c).proto.replies = c.proto.replies.map fun x => if x = rp then { x with frozen := true } else x := by
  have hreplies := congrArg (List.map fun x => if x = rp then { x with frozen := true } else x) (count_proto_replies .tstStall 0 1 c)
  exact ⟨count_wq .tstStall 0 1 c, count_jobs .tstStall 0 1 c, hreplies⟩

/-- It is listed, and its submitter is told. -/
def freezeReply (rp : Reply) (c : Ctl) : Ctl :=
  event 9 rp.job KS.stallLimit.code 0 0 0 (toBe 2 rp.code ++ toBe 4 rp.run.seq)
    (match c.job? rp.job with | some j => [j.submitter] | none => []) (freeze 3 .stallLimit rp.job 0 0 0 0 (markReply rp c))

theorem pastLimit_reply_none {m : Mem} {c : Ctl} (h : c.proto.replies.find? (fun rp => !rp.frozen && replyLate c rp) = none) :
    pastLimit .reply m c = c := by
  rw [pastLimit, h]

theorem pastLimit_reply {m : Mem} {c : Ctl} {rp : Reply}
    (h : c.proto.replies.find? (fun rp => !rp.frozen && replyLate c rp) = some rp) : pastLimit .reply m c = freezeReply rp c := by
  obtain ⟨-, hjobs, -⟩ := markReply_leaves rp c
  have hjob : (freeze 3 .stallLimit rp.job 0 0 0 0 (markReply rp c)).job? rp.job = c.job? rp.job :=
    (freeze_job? 3 .stallLimit rp.job 0 0 0 0 (markReply rp c) rp.job).trans (Ctl.job?_of_jobs hjobs rp.job)
  rw [freezeReply, ← hjob, pastLimit, h]
  rfl

theorem freezeReply_leaves (rp : Reply) (c : Ctl) : (freezeReply rp c).wq = c.wq ∧ (freezeReply rp c).jobs = c.jobs ∧
    (freezeReply rp c).proto.replies = c.proto.replies.map (fun x => if x = rp then { x with frozen := true } else x) ∧
    ∃ f ∈ (freezeReply rp c).sec.frozen, f.kind = 3 ∧ f.job = rp.job ∧ f.status = KS.stallLimit.code := by
  obtain ⟨hwq, hjobs, hreplies⟩ := markReply_leaves rp c
  obtain ⟨f, hf, hkind, hjob, -, -, hstatus⟩ := mem_freeze 3 .stallLimit rp.job 0 0 0 0 (markReply rp c)
  unfold freezeReply
  refine ⟨?_, ?_, ?_, f, ?_, hkind, hjob, hstatus⟩
  · rw [event_wq, freeze_wq, hwq]
  · rw [event_jobs, freeze_jobs, hjobs]
  · rw [event_proto_replies, freeze_proto_replies, hreplies]
  · rwa [event_sec]

/-! ### An intake context (R390) -/

theorem pastLimit_intake_early {m : Mem} {c : Ctl} {n : Nat} (h : overdue c (c.param 0x0800) (c.intake n).waitSince = false) :
    pastLimit (.intake n) m c = c := if_neg (by simp [h])

/-- An intake context past its limit is frozen, and what it was filling is VOIDED. -/
theorem pastLimit_intake {m : Mem} {c : Ctl} {n : Nat} (h : overdue c (c.param 0x0800) (c.intake n).waitSince = true) :
    let t := pastLimit (.intake n) m c
    (∃ f ∈ t.sec.frozen, f.kind = 5 ∧ f.job = 0 ∧ f.status = KS.stallLimit.code) ∧ (t.intake n).frozen = true ∧
    (t.intake n).blocked = none ∧ (t.intake n).busy = false ∧ (t.intake n).ended = [] ∧
    ∀ k, ((c.intake n).busy = true ∧ k ∈ landKeys (c.cfg n) (c.intake n).next) ∨
      (∃ f ∈ (c.intake n).ended, k ∈ landKeys (c.cfg n) f.slot) → t.voidedAt k := by
  have hwaits : ¬(c.intake n).waitSince.isNone = true := by
    intro hnone
    rw [Option.isNone_iff_eq_none.mp hnone] at h
    exact Bool.false_ne_true h
  intro t
  have ht : t = intakeStall n m c := if_pos h
  rw [ht, intakeStall, if_neg hwaits]
  extract_lets d
  have hland : (count .tstStall 0 1 c).landing = c.landing := count_landing ..
  have hintake : (count .tstStall 0 1 c).intake n = c.intake n := by rw [Ctl.intake, count_intakes, ← Ctl.intake]
  have hcfg : (count .tstStall 0 1 c).cfg n = c.cfg n := Ctl.cfg_of_taking (Ctl.taking_of_landing hland n)
  obtain ⟨hbusy, hended, hvoids⟩ := forceEnd_voids m n (count .tstStall 0 1 c)
  rw [hintake, hcfg] at hvoids
  generalize hset : d.setIntake n { d.intake n with frozen := true, blocked := none, parked := [] } = stopped
  have hstopped : stopped.intake n = { d.intake n with frozen := true, blocked := none, parked := [] } := by
    rw [← hset, Ctl.setIntake_intake]
  have htags : stopped.slotTags = d.slotTags := by
    rw [← hset]
    rfl
  obtain ⟨f, hf, hkind, hjob, -, -, hstatus⟩ := mem_freeze 5 .stallLimit 0 ((d.cfg n).home) n 0 0 stopped
  have hfrozen : (freeze 5 .stallLimit 0 ((d.cfg n).home) n 0 0 stopped).intake n =
      { d.intake n with frozen := true, blocked := none, parked := [] } := by
    rw [Ctl.intake, freeze_intakes, ← Ctl.intake, hstopped]
  refine ⟨⟨f, hf, hkind, hjob, hstatus⟩, ?_, ?_, ?_, ?_, fun k hk => ?_⟩
  · rw [hfrozen]
  · rw [hfrozen]
  · rw [hfrozen]
    exact hbusy
  · rw [hfrozen]
    exact hended
  · have hsame := (freeze_slotTags 5 .stallLimit 0 ((d.cfg n).home) n 0 0 stopped).trans htags
    exact (Ctl.voidedAt_of_slotTags hsame k).mpr (hvoids k hk)

/-! ### A link (R261, R262) -/

/-- A link past its limit at a port: its transfer is listed at the port. -/
def freezeLink (p : Nat) (k : Nat × Nat × Nat × Nat) (j : Job) (c : Ctl) : Ctl :=
  freeze 4 .stallLimit j.no k.2.2.2 p j.exec.pc (rTag j.now) (count .tstStall 0 1
    (c.setPort p { c.port p with
      frozen := (c.port p).frozen ++ [k]
      sending := (c.port p).sending.filter fun y => (y.1, y.2.1, y.2.2.1, y.2.2.2.1) ≠ k }))

theorem pastLimit_crosswind {m : Mem} {c : Ctl} {p : Nat} (hp : p < 4) {k : Nat × Nat × Nat × Nat} {since : Nat} {j : Job}
    (hw : (c.port p).waits.find? (fun w => (sendable c p).any (fun k => !k.2 && k.1 == w.1) && overdue c (c.param 0x0800) (some w.2)) =
      some (k, since)) (hj : c.job? k.1 = some j) : pastLimit (.crosswind p) m c =
        if j.running.isSome then failJob m j.no .stallLimit (freezeLink p k j c) else freezeLink p k j c := by
  rw [pastLimit, if_neg (not_le.mpr hp)]
  extract_lets x dry
  have hfind : x.waits.find? (fun w => (dry.any fun k => k.1 == w.1) && overdue c (c.param 0x0800) (some w.2)) = some (k, since) := by
    simpa only [dry, List.any_filter] using hw
  rw [hfind]
  dsimp only
  rw [hj]
  rfl

theorem freezeLink_leaves {p : Nat} {k : Nat × Nat × Nat × Nat} {j : Job} {c : Ctl} (hp : p < c.group.ports.length) :
    (freezeLink p k j c).jobs = c.jobs ∧
    (∃ f ∈ (freezeLink p k j c).sec.frozen, f.kind = 4 ∧ f.job = j.no ∧ f.status = KS.stallLimit.code) ∧
    (freezeLink p k j c).counter .tstStall 0 = (countValue Cnt.tstStall.info.2.2 (c.counter .tstStall 0) 1).1 ∧
    k ∈ ((freezeLink p k j c).port p).frozen := by
  unfold freezeLink
  generalize hx : ({ c.port p with
      frozen := (c.port p).frozen ++ [k]
      sending := (c.port p).sending.filter fun y => (y.1, y.2.1, y.2.2.1, y.2.2.2.1) ≠ k } : XwPort) = x
  have hlisted : k ∈ x.frozen := by
    rw [← hx]
    exact List.mem_append_right _ (List.mem_singleton_self k)
  obtain ⟨f, hf, hkind, hjob, -, -, hstatus⟩ := mem_freeze 4 .stallLimit j.no k.2.2.2 p j.exec.pc (rTag j.now)
    (count .tstStall 0 1 (c.setPort p x))
  refine ⟨?_, ⟨f, hf, hkind, hjob, hstatus⟩, ?_, ?_⟩
  · rw [freeze_jobs, count_jobs]
    rfl
  · rw [freeze_counter _ _ _ _ _ _ _ _ rfl (by decide), count_counter_self rfl 0 Nat.one_ne_zero]
    rfl
  · rw [Ctl.port, freeze_group, count_group]
    change k ∈ ((c.group.ports.set p x).getD p XwPort.reset).frozen
    rw [List.getD_eq_getElem?_getD, List.getElem?_set_self hp]
    exact hlisted

theorem State.run_group {f : Mem → Ctl → Ctl} {s : State} : (s.run f).ctl.group = (f s.mem s.ctl).group :=
  Ctl.group_of_quiet (b := (f s.mem s.ctl).settle) ((State.run_quiet f s).trans (Ctl.settle_quiet _).symm)

theorem State.run_intakes {f : Mem → Ctl → Ctl} {s : State} : (s.run f).ctl.intakes = (f s.mem s.ctl).intakes :=
  Ctl.intakes_of_quiet (b := (f s.mem s.ctl).settle) ((State.run_quiet f s).trans (Ctl.settle_quiet _).symm)

/-- Ports that hold the same frozen hold them each. -/
theorem port_frozen_of_ports {a b : Ctl} (h : a.group.ports.map XwPort.frozen = b.group.ports.map XwPort.frozen) (p : Nat) :
    (a.port p).frozen = (b.port p).frozen := by
  have hget := congrArg (·.getD p XwPort.reset.frozen) h
  rwa [List.getD_map, List.getD_map] at hget

/-- A link past its limit freezes its transfer, and ends the run of its job. -/
theorem completes_crosswind {s : State} (hcopy : s.ctl.plane.copying = none) {p : Nat} (hp : p < 4) (hlen : p < s.ctl.group.ports.length)
    {k : Nat × Nat × Nat × Nat} {since : Nat} {j : Job}
    (hw : (s.ctl.port p).waits.find? (fun w => (sendable s.ctl p).any (fun k => !k.2 && k.1 == w.1) &&
      overdue s.ctl (s.ctl.param 0x0800) (some w.2)) = some (k, since)) (hj : s.ctl.job? k.1 = some j) :
    completes (.stallLimitExceeded (.crosswind p)) s fun t => frozenNow t 4 k.1 .stallLimit ∧ counted .tstStall 0 1 s t ∧
      k ∈ (t.ctl.port p).frozen ∧ (j.running.isSome = true → j.ended = false → endedJob t k.1) := by
  have hno : j.no = k.1 := Ctl.no_of_job? hj
  have hend := (stallLimit_of_free hcopy (.crosswind p) s.mem).trans (pastLimit_crosswind hp hw hj)
  obtain ⟨hjobs, ⟨f, hf, hfacts⟩, hcounter, hlisted⟩ := freezeLink_leaves (k := k) (j := j) hlen
  have hk : (freezeLink p k j s.ctl).job? j.no = some j := by rw [Ctl.job?_of_jobs hjobs, hno, hj]
  rw [← hno]
  refine ⟨s.run (stallLimit (.crosswind p)), rfl, ?_⟩
  cases hrunning : j.running.isSome with
  | false =>
    rw [hrunning] at hend
    replace hend : stallLimit (.crosswind p) s.mem s.ctl = freezeLink p k j s.ctl := hend
    refine ⟨⟨f, ?_, hfacts⟩, counted_of_run rfl (hend ▸ hcounter), ?_, fun h => absurd h Bool.false_ne_true⟩
    · rw [State.run_sec_frozen, hend]
      exact hf
    · rw [Ctl.port, State.run_group, hend]
      exact hlisted
  | true =>
    rw [hrunning, if_pos rfl] at hend
    refine ⟨⟨f, ?_, hfacts⟩, counted_of_run rfl ?_, ?_, fun _ he => ?_⟩
    · rw [State.run_sec_frozen, hend, failJob_frozen s.mem .stallLimit hk]
      exact hf
    · rw [hend, failJob_stalls s.mem .stallLimit hk, hcounter]
    · rw [Ctl.port, State.run_group, hend]
      exact port_frozen_of_ports (failJob_ports s.mem .stallLimit hk) p ▸ hlisted
    · rw [endedJob_run, hend]
      exact failJob_allOver s.mem .stallLimit hk he

/-! ### The seven masters -/

/-- Settles O43: a master of a job goes through `stall`, whose two ends are the mutual wait and the fault; the others freeze what
waited. -/
theorem stallLimitsFreeze : Obligations.StallLimitsFreeze := by
  unfold Obligations.StallLimitsFreeze
  intro s hs
  refine ⟨fun w hw => exec_eq_self hs rfl (if_pos hw), fun hcopy => ?_⟩
  have hfree (w : Waiter) : stallLimit w s.mem s.ctl = pastLimit w s.mem s.ctl := stallLimit_of_free hcopy w s.mem
  refine ⟨fun j on b hj hwait => ?operand, fun j d on hwait he => ?drain, fun j hj hfull => ?waitFull,
    fun tile n x j hx hj he => ?stream, fun hnone => ?replyNone, fun rp hrp => ?reply, fun n => ⟨fun hearly => ?early, fun hlate => ?late⟩,
    fun p no link slot tile since j hp hlen hw hj => completes_crosswind hcopy hp hlen hw hj⟩
  case operand =>
    obtain ⟨-, hfound, -, he⟩ := Ctl.holding_eq_some.mp hj
    have hstall : pastLimit .operand s.mem s.ctl = stall s.mem j s.ctl.plane.operandWait true on
        (stallJob s.mem j (j.exec.incomplete.getLastD j.exec.pc)) s.ctl := by
      simp only [pastLimit, hj, hwait]
    exact ends_of_stall hs rfl ((hfree _).trans hstall) hfound he (stalled_run _ hfound he)
  case drain =>
    have hfound := drainWait_job hwait
    have hstall : pastLimit .drain s.mem s.ctl = stall s.mem j s.ctl.plane.drainWait (on.all fun w => !s.ctl.slotFull w.2) on
        (fun c => stallJob s.mem j d.idx c) s.ctl := by
      simp only [pastLimit, hwait]
    exact ends_of_stall hs rfl ((hfree _).trans hstall) hfound he (stalled_run _ hfound he)
  case waitFull =>
    obtain ⟨-, hfound, -, he⟩ := Ctl.holding_eq_some.mp hj
    have hwaits : ¬s.ctl.plane.waitFull.isNone = true := by simpa [Option.isSome_iff_ne_none] using hfull
    have hstall : pastLimit .waitFull s.mem s.ctl = stall s.mem j s.ctl.plane.waitFull true (fullWait s.ctl j)
        (stallJob s.mem j j.exec.pc) s.ctl := by
      simp only [pastLimit, hj, if_neg hwaits]
    exact ends_of_stall hs rfl ((hfree _).trans hstall) hfound he (stalled_run _ hfound he)
  case stream =>
    have hfound : s.ctl.job? j.no = some j := by rw [Ctl.no_of_job? hj, hj]
    have hplace : x.tile = tile ∧ x.ctx = n := by
      have hhit := List.find?_some hx
      simp only [Bool.and_eq_true, decide_eq_true_eq] at hhit
      exact hhit.1.1
    have hstall : pastLimit (.stream tile n) s.mem s.ctl = stall s.mem j x.blocked
        ((streamWait s.mem s.ctl j x).all fun w => !s.ctl.slotFull w.2) (streamWait s.mem s.ctl j x)
        (fun c => streamFault s.mem .stallLimit true x (count .tstStall 0 1 c)) s.ctl := by
      simp only [pastLimit, hx, hj]
    refine ends_of_stall hs rfl ((hfree _).trans hstall) hfound he fun hfault => ?_
    have hcounted : (count .tstStall 0 1 s.ctl).job? x.job = some j := (Ctl.job?_of_jobs (count_jobs ..) _).trans hj
    obtain ⟨hover, f, hf, hkind, hjob, htile, hctx, hstatus⟩ := streamFault_ends s.mem hcounted he
    rw [← hfault] at hover hf
    exact ⟨endedJob_run.mpr hover, f, State.run_sec_frozen ▸ hf, hkind, hjob, htile.trans hplace.1, hctx.trans hplace.2, hstatus⟩
  case replyNone => exact exec_eq_self hs rfl ((hfree _).trans (pastLimit_reply_none hnone))
  case reply =>
    have hend := (hfree .reply).trans (pastLimit_reply hrp)
    obtain ⟨hwq, hjobs, hreplies, f, hf, hfacts⟩ := freezeReply_leaves rp s.ctl
    refine ⟨s.run (stallLimit .reply), rfl, sameMem_of_run ?_, ⟨f, ?_, hfacts⟩, ?_, ?_⟩
    · rw [hend, hwq, hs.2]
    · rwa [State.run_sec_frozen, hend]
    · rw [State.run_jobs, hend, hjobs]
    · rw [State.run_replies, hend, hreplies]
  case early => exact exec_eq_self hs rfl ((hfree _).trans (pastLimit_intake_early hearly))
  case late =>
    have hend := hfree (.intake n)
    obtain ⟨⟨f, hf, hfacts⟩, hfrozen, hblocked, hbusy, hended, hvoids⟩ := pastLimit_intake (m := s.mem) hlate
    rw [← hend] at hf hfrozen hblocked hbusy hended hvoids
    have hintake : (s.run (stallLimit (.intake n))).ctl.intake n = (stallLimit (.intake n) s.mem s.ctl).intake n := by
      rw [Ctl.intake, State.run_intakes, ← Ctl.intake]
    refine ⟨s.run (stallLimit (.intake n)), rfl, ⟨f, State.run_sec_frozen ▸ hf, hfacts⟩, hintake ▸ hfrozen, hintake ▸ hblocked,
      hintake ▸ hbusy, hintake ▸ hended, fun sl hsl k hk => ?_⟩
    refine (Ctl.voidedAt_of_slotTags State.run_slotTags k).mpr (hvoids k ?_)
    obtain ⟨hb, rfl⟩ | ⟨g, hg, rfl⟩ := hsl
    · exact .inl ⟨hb, hk⟩
    · exact .inr ⟨g, hg, hk⟩

end Sys2Proof.Machine
end

section
/-! SUPPORT. What the stream engines' operations leave as it was: streams that resume, the engine that issues next, and a stream that
ends its job (09 R275, R298, R302, R308). -/

namespace Sys2Proof.Machine

/-! ### Streams that resume (R302) -/

/-- The control state without the contexts, the waits of the Plane and what streams leave in the jobs. -/
def Ctl.unwaited (c : Ctl) : Ctl := { c.unstreamed with plane := Plane.reset }

theorem Ctl.unwaited_of_unstreamed {a b : Ctl} (h : a.unstreamed = b.unstreamed) : a.unwaited = b.unwaited := by
  rw [Ctl.unwaited, h, Ctl.unwaited]

section
variable {a b : Ctl} (h : a.unwaited = b.unwaited)
include h
theorem Ctl.clk_of_unwaited : a.clk = b.clk := (congrArg Ctl.clk h : a.unwaited.clk = b.unwaited.clk)
theorem Ctl.slotTags_of_unwaited : a.slotTags = b.slotTags := (congrArg Ctl.slotTags h : a.unwaited.slotTags = b.unwaited.slotTags)
theorem Ctl.xfers_of_unwaited : a.xfers = b.xfers := (congrArg Ctl.xfers h : a.unwaited.xfers = b.unwaited.xfers)
theorem Ctl.charges_of_unwaited : a.charges = b.charges := (congrArg Ctl.charges h : a.unwaited.charges = b.unwaited.charges)
theorem Ctl.wq_of_unwaited : a.wq = b.wq := (congrArg Ctl.wq h : a.unwaited.wq = b.unwaited.wq)
end

theorem restartWaits_unwaited (m : Mem) (c0 c : Ctl) : (restartWaits m c0 c).unwaited = c.unwaited := by
  unfold restartWaits
  split <;> rfl

theorem unhalt_unwaited (m : Mem) (c : Ctl) : (unhalt m c).unwaited = c.unwaited := by
  unfold unhalt
  extract_lets goes wake woken
  split
  · rfl
  · rw [foldl_keeps Ctl.unwaited fun c (x : Ctx) => Ctl.unwaited_of_unstreamed (noteMove_unstreamed x.job c), restartWaits_unwaited]
    rfl

theorem openWaiting_unwaited (tile : Nat) (m : Mem) (c : Ctl) : (openWaiting tile m c).unwaited = c.unwaited := by
  unfold openWaiting
  split
  · split
    · exact Ctl.unwaited_of_unstreamed (resumeStreams_unstreamed ..)
    · rfl
  · rfl

/-- The state in which an engine chooses: the streams whose pages have come, and those that waited for a context, have resumed. -/
def resumed (tile : Nat) (m : Mem) (c : Ctl) : Ctl := openWaiting tile m (unhalt m c)

theorem resumed_unwaited (tile : Nat) (m : Mem) (c : Ctl) : (resumed tile m c).unwaited = c.unwaited :=
  (openWaiting_unwaited ..).trans (unhalt_unwaited ..)

/-! ### The engine that issues next (R298) -/

/-- The control state without the contexts, counters and packets: what noting the waits of an engine leaves. -/
def Ctl.unmarked (c : Ctl) : Ctl := { c.quiet with ctxs := [] }

theorem Ctl.unmarked_of_quiet {a b : Ctl} (h : a.quiet = b.quiet) : a.unmarked = b.unmarked := by
  rw [Ctl.unmarked, h, Ctl.unmarked]

section
variable {a b : Ctl} (h : a.unmarked = b.unmarked)
include h
theorem Ctl.clk_of_unmarked : a.clk = b.clk := (congrArg Ctl.clk h : a.unmarked.clk = b.unmarked.clk)
theorem Ctl.slotTags_of_unmarked : a.slotTags = b.slotTags := (congrArg Ctl.slotTags h : a.unmarked.slotTags = b.unmarked.slotTags)
theorem Ctl.plane_of_unmarked : a.plane = b.plane := (congrArg Ctl.plane h : a.unmarked.plane = b.unmarked.plane)
theorem Ctl.jobs_of_unmarked : a.jobs = b.jobs := (congrArg Ctl.jobs h : a.unmarked.jobs = b.unmarked.jobs)
theorem Ctl.xfers_of_unmarked : a.xfers = b.xfers := (congrArg Ctl.xfers h : a.unmarked.xfers = b.unmarked.xfers)
theorem Ctl.charges_of_unmarked : a.charges = b.charges := (congrArg Ctl.charges h : a.unmarked.charges = b.unmarked.charges)
theorem Ctl.wq_of_unmarked : a.wq = b.wq := (congrArg Ctl.wq h : a.unmarked.wq = b.unmarked.wq)

theorem dryTime_of_unmarked (m : Mem) (j : Job) (x : Ctx) : dryTime m a j x = dryTime m b j x :=
  (congrArg (fun c => dryTime m c j x) h : dryTime m a.unmarked j x = dryTime m b.unmarked j x)
theorem memSide_of_unmarked (j : Job) (x : Ctx) (q : Piece) : memSide a j x q = memSide b j x q :=
  (congrArg (fun c => memSide c j x q) h : memSide a.unmarked j x q = memSide b.unmarked j x q)
theorem windowOpen_of_unmarked (t addr n : Nat) : windowOpen a t addr n = windowOpen b t addr n :=
  (congrArg (fun c => windowOpen c t addr n) h : windowOpen a.unmarked t addr n = windowOpen b.unmarked t addr n)
theorem Ctl.hbmFailed_of_unmarked (addr n : Nat) : a.hbmFailed addr n = b.hbmFailed addr n :=
  (congrArg (fun c => Ctl.hbmFailed c addr n) h : a.unmarked.hbmFailed addr n = b.unmarked.hbmFailed addr n)
end

/-- A context of an engine lies in it, and serves the job that holds the Plane. -/
theorem Ctl.mem_engine {c : Ctl} {tile : Nat} {x : Ctx} (h : x ∈ c.engine tile) :
    x ∈ c.ctxs ∧ x.tile = tile ∧ c.plane.holder = some x.job := by
  unfold engine at h
  split at h
  · cases h
  · simpa using h

/-- The place of a context in the ranking of an engine: its dry time, then its number (R298). -/
def issueRank (m : Mem) (c : Ctl) (j : Job) (x : Ctx) : Nat := dryTime m c j x * 16 + x.ctx

/-- A context stands before every other of its engine that could issue. -/
def ranksFirst (m : Mem) (c : Ctl) (tile : Nat) (j : Job) (x : Ctx) : Prop :=
  ∀ y ∈ c.engine tile, y ≠ x →
    (ready m c j y = .bad ∨ ∃ q t, ready m c j y = .yes q t) → issueRank m c j x < issueRank m c j y

/-- Of ranked things, the one found first is the one before all others. -/
theorem find?_least {α : Type} {l : List (Nat × α)} {a : Nat × α} (ha : a ∈ l) (h : ∀ b ∈ l, b ≠ a → a.1 < b.1) :
    (l.find? fun a => l.all fun b => a.1 ≤ b.1) = some a := by
  have hall : (l.all fun b => a.1 ≤ b.1) = true := by
    rw [List.all_eq_true]
    intro b hb
    by_cases hba : b = a
    · simp [hba]
    · simpa using (h b hb hba).le
  cases hfind : l.find? fun a => l.all fun b => a.1 ≤ b.1 with
  | none => exact absurd hall (List.find?_eq_none.mp hfind a ha)
  | some b =>
    by_contra hne
    have hlt := h b (List.mem_of_find?_eq_some hfind) fun hba => hne (congrArg some hba)
    have hle := List.all_eq_true.mp (List.find?_some (p := fun a : Nat × α => l.all fun b => a.1 ≤ b.1) hfind) a ha
    exact absurd hlt (by simpa using hle)

/-- The context that ranks first issues its piece, in a state in which the waits have been noted. -/
theorem issueNext_of_first {tile : Nat} {m : Mem} {c : Ctl} {j : Job} {x : Ctx} {q : Piece} {t : Nat}
    (hj : (resumed tile m c).plane.holder.bind (resumed tile m c).job? = some j) (hx : x ∈ (resumed tile m c).engine tile)
    (hready : ready m (resumed tile m c) j x = .yes q t) (hfirst : ranksFirst m (resumed tile m c) tile j x) :
    ∃ c' b, c'.unmarked = (resumed tile m c).unmarked ∧ (∃ z ∈ c'.ctxs, z.tile = x.tile ∧ z.ctx = x.ctx) ∧
      issueNext tile m c = issue m j { x with blocked := b } q t c' := by
  unfold issueNext
  extract_lets c₁
  change c₁.plane.holder.bind c₁.job? = some j at hj
  change ready m c₁ j x = .yes q t at hready
  change ranksFirst m c₁ tile j x at hfirst
  simp -zeta only [hj]
  extract_lets xs has c₂ c₃ mark c₄ go
  have hcounted : c₃.quiet = c₁.quiet := by
    have hif (p : Prop) [Decidable p] (k : Cnt) (i : Nat) (c : Ctl) : (if p then count k i 1 c else c).quiet = c.quiet := by
      split <;> simp
    exact (hif _ _ _ c₂).trans (hif _ _ _ c₁)
  have hmarked : c₄.unmarked = c₁.unmarked := (Ctl.unmarked_of_quiet hcounted :)
  have hmark (z : Ctx) : (mark z).tile = z.tile ∧ (mark z).ctx = z.ctx := by
    unfold mark
    split
    · split <;> exact ⟨rfl, rfl⟩
    · exact ⟨rfl, rfl⟩
  have hgo : (issueRank m c₁ j x, x, Ready.yes q t) ∈ go := by
    refine List.mem_map.mpr ⟨(x, .yes q t), List.mem_filter.mpr ⟨List.mem_map.mpr ⟨x, hx, by rw [hready]⟩, rfl⟩, ?_⟩
    rw [issueRank, dryTime_of_unmarked hmarked]
  have hleast : ∀ b ∈ go, b ≠ (issueRank m c₁ j x, x, Ready.yes q t) → issueRank m c₁ j x < b.1 := by
    intro b hb hne
    obtain ⟨p, hp, rfl⟩ := List.mem_map.mp hb
    obtain ⟨hp, hgoes⟩ := List.mem_filter.mp hp
    obtain ⟨y, hy, rfl⟩ := List.mem_map.mp hp
    rw [dryTime_of_unmarked hmarked] at hne ⊢
    refine hfirst y hy (fun hyx => hne ?_) ?_
    · rw [hyx, hready, issueRank]
    · cases hr : ready m c₁ j y <;> simp [hr] at hgoes ⊢
  rw [find?_least hgo hleast]
  refine ⟨c₄, _, hmarked, ⟨mark x, ?_, hmark x⟩, rfl⟩
  refine List.mem_map_of_mem ?_
  rw [Ctl.ctxs_of_quiet hcounted]
  exact (Ctl.mem_engine hx).1

/-! ### A stream that ends its job (R308) -/

theorem freeze_plane (kind : Nat) (st : KS) (job tile ctx idx tag : Nat) (c : Ctl) :
    (freeze kind st job tile ctx idx tag c).plane = c.plane := count_plane ..

section
variable (m : Mem) (st : KS) (frozen : Bool) {x : Ctx} {c : Ctl} {j : Job}

/-- A stream that ends its job is listed first where its context is frozen, and then the job ends at the command it serves. -/
theorem streamFault_of_job (hj : c.job? x.job = some j) : ∃ c' idx, c'.jobs = c.jobs ∧ c'.plane = c.plane ∧
    (frozen = true → ∃ f ∈ c'.sec.frozen, f.kind = 1 ∧ f.job = x.job ∧ f.tile = x.tile ∧ f.ctx = x.ctx ∧ f.status = st.code) ∧
    streamFault m st frozen x c = failAt m x.job st idx c' := by
  unfold streamFault
  simp -zeta only [hj]
  extract_lets idx c₁ c₂
  have hcounted : c₁.quiet = c.quiet := by
    unfold c₁
    split <;> simp
  refine ⟨c₂, idx, ?_, ?_, ?_, rfl⟩
  · unfold c₂
    split
    · exact (freeze_jobs ..).trans (Ctl.jobs_of_quiet hcounted)
    · exact Ctl.jobs_of_quiet hcounted
  · unfold c₂
    split
    · exact (freeze_plane ..).trans (Ctl.plane_of_quiet hcounted)
    · exact Ctl.plane_of_quiet hcounted
  · intro hfrozen
    unfold c₂
    rw [if_pos hfrozen]
    exact mem_freeze ..

variable (hj : c.job? x.job = some j) (he : j.ended = false)
include hj he

theorem streamFault_allOver : (streamFault m st frozen x c).allOver x.job := by
  obtain ⟨c', idx, hjobs, -, -, hend⟩ := streamFault_of_job m st frozen hj
  rw [hend]
  exact failAt_allOver m st idx ((Ctl.job?_of_jobs hjobs _).trans hj) he

theorem streamFault_holder (hh : c.plane.holder = some x.job) : (streamFault m st frozen x c).plane.holder = none := by
  obtain ⟨c', idx, hjobs, hplane, -, hend⟩ := streamFault_of_job m st frozen hj
  have hj' := (Ctl.job?_of_jobs hjobs _).trans hj
  rw [hend, failAt_of_job hj']
  exact endJobWith_holder [] m st 4 idx _ hj' he (hplane ▸ hh)

omit he in
theorem streamFault_lists : ∃ f ∈ (streamFault m st true x c).sec.frozen,
    f.kind = 1 ∧ f.job = x.job ∧ f.tile = x.tile ∧ f.ctx = x.ctx ∧ f.status = st.code := by
  obtain ⟨c', idx, hjobs, -, hlist, hend⟩ := streamFault_of_job m st true hj
  rw [hend, failAt_frozen m st idx ((Ctl.job?_of_jobs hjobs _).trans hj)]
  exact hlist rfl
end

end Sys2Proof.Machine
end

section
/-! PROOF of O47. A stream writes to no page that is flash-backed or read-only: its job ends, and its context is frozen (09 R305, R308;
15 R468). -/

namespace Sys2Proof.Machine

/-- A piece whose memory side no one may name ends its job, with the context frozen. -/
theorem issue_of_refused {m : Mem} {c : Ctl} {j : Job} {x : Ctx} {q : Piece} {t : Nat} {e : Handle} {st : KS}
    (he : j.handle? (tSlotHandle (j.stream x.pos.record)) = some e) (hside : memSide c j x q = .error st) :
    issue m j x q t c = streamFault m st true x c := by
  simp only [issue, he, hside]

/-- A page that is flash-backed or whose WRITE bit is 0 takes no store of a stream (R305). -/
theorem memSide_of_unwritable {c : Ctl} {j : Job} {x : Ctx} {q : Piece} {p : Page} (hstore : tStore (j.stream x.pos.record) = true)
    (hspace : tSpace (j.stream x.pos.record) = false) (hp : j.page? q.mem = some p) (hno : p.flash = true ∨ p.write = false) :
    memSide c j x q = .error .addressFault := by
  have hmay : j.mayWrite p = false := by
    obtain h | h := hno <;> simp [Job.mayWrite, h]
  simp [memSide, hstore, hspace, hp, hmay]

/-- Settles O47: the context is the only one of its engine, so it issues, and the page that its piece names takes no write. -/
theorem writeToFlashPageFaults : Obligations.WriteToFlashPageFaults := by
  unfold Obligations.WriteToFlashPageFaults
  intro s j x q t p e hs c hj hend r hengine hno hready hhandle hstore hspace hp hpage
  have hx : x ∈ c.engine x.tile := by simp [hengine]
  have hfirst : ranksFirst s.mem c x.tile j x := fun y hy hne => absurd (by simpa [hengine] using hy) hne
  obtain ⟨c', b, hsame, -, hissue⟩ := issueNext_of_first (c := s.ctl) hj hx hready hfirst
  rw [issue_of_refused (x := { x with blocked := b }) hhandle (memSide_of_unwritable hstore hspace hp hpage)] at hissue
  have hholder : c'.plane.holder = some x.job := by
    rw [Ctl.plane_of_unmarked hsame]
    exact (Ctl.mem_engine hx).2.2
  have hfound : c'.job? x.job = some j := by
    obtain ⟨no, hno', hjob⟩ := Option.bind_eq_some_iff.mp hj
    rw [Ctl.job?_of_jobs (Ctl.jobs_of_unmarked hsame), hno, Ctl.no_of_job? hjob]
    exact hjob
  refine ⟨s.run (issueNext x.tile), rfl, ?_, ?_, ?_⟩
  · rw [endedJob_run, hissue, ← hno]
    exact streamFault_allOver (x := { x with blocked := b }) _ _ _ hfound hend
  · rw [State.run_plane, hissue]
    exact streamFault_holder (x := { x with blocked := b }) _ _ _ hfound hend hholder
  · rw [State.run_sec_frozen, hissue, ← hno]
    exact streamFault_lists (x := { x with blocked := b }) _ _ hfound

end Sys2Proof.Machine
end

section
/-! SUPPORT for O46. The charges of an engine, the runs of block entries that it reads and the pieces that it issues (09 R280, R283, R289
to R298, R302). -/

namespace Sys2Proof.Machine

/-! ### What a command and the reads of the memories leave -/

section
variable {a b : Ctl} (h : a.unread = b.unread)
include h
theorem Ctl.xfers_of_unread : a.xfers = b.xfers := (congrArg Ctl.xfers h : a.unread.xfers = b.unread.xfers)
theorem Ctl.charges_of_unread : a.charges = b.charges := (congrArg Ctl.charges h : a.unread.charges = b.unread.charges)
theorem Ctl.ctxs_of_unread : a.ctxs = b.ctxs := (congrArg Ctl.ctxs h : a.unread.ctxs = b.unread.ctxs)
end

theorem State.run_xfers {f : Mem → Ctl → Ctl} {s : State} : (s.run f).ctl.xfers = (f s.mem s.ctl).xfers := by
  rw [State.run_ctl, Ctl.settle_xfers, Ctl.xfers_of_quiet (reportOverflows_quiet ..)]
theorem State.run_charges {f : Mem → Ctl → Ctl} {s : State} : (s.run f).ctl.charges = (f s.mem s.ctl).charges := by
  rw [State.run_ctl, Ctl.settle_charges, Ctl.charges_of_quiet (reportOverflows_quiet ..)]

/-! ### Charges (R291, R294) -/

theorem addAt_get (l : List (Nat × Nat)) (k n k' : Nat) :
    SMap.get 0 (addAt l k n) k' = if k' = k then SMap.get 0 l k + n else SMap.get 0 l k' := SMap.get_put ..

theorem Ctl.charge_of_charges {a b : Ctl} (h : a.charges = b.charges) (tile k : Nat) : a.charge tile k = b.charge tile k := by
  rw [charge, charge, h]

/-- The HBM bytes go to the class, and no charge of the NoC reaches its budget. -/
theorem chargeEngine_hbm (tile hbm noc : Nat) {cls : Nat} (hcls : cls < 3) (c : Ctl) :
    (chargeEngine tile cls hbm noc c).charge tile cls = c.charge tile cls + hbm := by
  simp [chargeEngine, Ctl.charge, addAt_get, hcls.ne]

/-- The NoC bytes go to the budget that Breeze and Lull share; Gale is not charged (R296). -/
theorem chargeEngine_noc (tile hbm noc : Nat) {cls : Nat} (hcls : cls < 3) (c : Ctl) :
    (chargeEngine tile cls hbm noc c).charge tile 3 = c.charge tile 3 + (if cls = 0 then 0 else noc) := by
  simp [chargeEngine, Ctl.charge, addAt_get, hcls.ne']

/-! ### Runs of block entries (R280) -/

/-- Entries of the next run of a context's block list. -/
def runEntries (j : Job) (x : Ctx) : Nat := min 128 (tBlocks (j.stream x.pos.record) - x.fetched)
/-- Job virtual address of the first of them. -/
def runStart (j : Job) (x : Ctx) : Nat := tDesc (j.stream x.pos.record) + 16 * x.fetched
/-- The transfer that reads them from page `p`. -/
def runXfer (c : Ctl) (tile n t : Nat) (j : Job) (x : Ctx) (p : Page) : Xfer :=
  { tile := tile, tag := t, ctx := n, job := j.no, record := x.pos.record
    src := (p.frame + (runStart j x - p.va)) / 32 * 32, dst := 0, words := cdiv (runStart j x % 32 + 16 * runEntries j x) 32
    slot := x.fetched + runEntries j x, visit := x.pos.visit, hbm := true, listRead := true, issued := c.clk.ns }

/-- Context `n` of the engine may read its next run under tag `t`: entries of its list are left, none is being read, and tag, page
and budget are there. -/
structure FetchesRun (c : Ctl) (tile n t : Nat) (j : Job) (x : Ctx) (p : Page) : Prop where
  found : (c.engine tile).find? (fun y => y.ctx = n) = some x
  job : c.job? x.job = some j
  blocks : tStrided (j.stream x.pos.record) = false
  going : x.pos.halted = false
  left : x.fetched < tBlocks (j.stream x.pos.record)
  idle : c.xfers.any (fun y => y.tile = tile && y.ctx = n && y.listRead) = false
  tag : freeTag c j.cls x = some t
  page : j.page? (runStart j x) = some p
  room : hbmRoom c tile j.cls (max (16 * runEntries j x) 512) = true

theorem fetchList_of_fetchesRun {c : Ctl} {tile n t : Nat} {j : Job} {x : Ctx} {p : Page} (h : FetchesRun c tile n t j x p) (m : Mem) :
    fetchList tile n m c =
      let f := runXfer c tile n t j x p
      if c.hbmFailed f.src f.words then streamFault m .hbmFault false x c
      else noteMove j.no (chargeEngine tile j.cls (max (16 * runEntries j x) 512) 0 { c with xfers := c.xfers ++ [f] }) := by
  obtain ⟨hfound, hjob, hblocks, hgoing, hleft, hidle, htag, hpage, hroom⟩ := h
  have hentries : runEntries j x ≠ 0 := by
    unfold runEntries
    omega
  have hcharge : hbmCharge (16 * runEntries j x) = max (16 * runEntries j x) 512 := if_neg (by omega)
  unfold fetchList
  simp -zeta only [hfound, hjob]
  extract_lets r left a flying charge f
  have hgoes : ¬(tStrided r = true ∨ left = 0 ∨ flying = true ∨ x.pos.halted = true) := by
    rintro (h | h | h | h)
    · exact absurd h (by simp [r, hblocks])
    · exact hentries h
    · exact absurd h (by simp [flying, hidle])
    · exact absurd h (by simp [hgoing])
  rw [if_neg hgoes, htag, show j.page? a = some p from hpage]
  rw [show charge = _ from hcharge]
  simp only [hroom]
  rfl

/-- A run of block entries is in flight, its bytes charged to the class; on a failed channel the job ends instead (R280, R348). -/
theorem blockListFetch_of_fetchesRun {s : State} (hs : s.ready) {tile n t : Nat} {j : Job} {x : Ctx} {p : Page} (hcls : j.cls < 3)
    (h : FetchesRun s.ctl tile n t j x p) :
    let f := runXfer s.ctl tile n t j x p
    (s.ctl.hbmFailed f.src f.words = true → j.ended = false → completes (.blockListFetch tile n) s fun u => endedJob u j.no) ∧
    (s.ctl.hbmFailed f.src f.words = false → completes (.blockListFetch tile n) s fun u => sameMem s u ∧
      u.ctl.slotTags = s.ctl.slotTags ∧ u.ctl.charge tile j.cls = s.ctl.charge tile j.cls + max (16 * runEntries j x) 512 ∧
      u.ctl.xfers = s.ctl.xfers ++ [f]) := by
  intro f
  have hfetch := fetchList_of_fetchesRun h s.mem
  refine ⟨fun hfailed he => ⟨s.run (fetchList tile n), rfl, ?_⟩, fun hfailed => ⟨s.run (fetchList tile n), rfl, ?_⟩⟩
  · have hend : fetchList tile n s.mem s.ctl = streamFault s.mem .hbmFault false x s.ctl := hfetch.trans (if_pos hfailed)
    refine endedJob_run.mpr ?_
    rw [hend, Ctl.no_of_job? h.job]
    exact streamFault_allOver s.mem .hbmFault false h.job he
  · have hread := hfetch.trans (if_neg (by simpa using hfailed))
    refine ⟨sameMem_of_run ?_, ?_, ?_, ?_⟩
    · rw [hread]
      exact hs.2
    · rw [State.run_slotTags, hread]
      rfl
    · rw [Ctl.charge_of_charges State.run_charges, hread]
      exact chargeEngine_hbm tile _ 0 hcls _
    · rw [State.run_xfers, hread]
      rfl

/-! ### Pieces that are issued (R283, R289 to R291, R302) -/

/-- Device address of a piece's slot side. -/
def slotSide (x : Ctx) (q : Piece) (e : Handle) : Nat := e.addr x.tile (x.pos.slot * e.slotBytes + 32 * q.slotWord)
/-- Device address that a piece is written to, its memory side being at `mem`. -/
def pieceDst (j : Job) (x : Ctx) (q : Piece) (e : Handle) (mem : Nat) : Nat :=
  if tStore (j.stream x.pos.record) then mem else slotSide x q e
/-- The transfer that moves a piece under tag `t`. -/
def pieceXfer (j : Job) (x : Ctx) (q : Piece) (t : Nat) (e : Handle) (mem now : Nat) : Xfer :=
  { tile := x.tile, tag := t, ctx := x.ctx, job := x.job, record := x.pos.record
    src := if tStore (j.stream x.pos.record) then slotSide x q e else mem, dst := pieceDst j x q e mem, words := q.words
    slot := x.pos.slot, visit := x.pos.visit, hbm := !tSpace (j.stream x.pos.record), listRead := false, issued := now }
/-- The context once its piece is issued: the halo block is done with, or the position moves on and the time at which it left a slot
is noted (R297, R303). -/
def movedOn (m : Mem) (j : Job) (x : Ctx) (q : Piece) (e : Handle) (now : Nat) : Ctx :=
  match x.refetch with
  | _ :: l => { x with refetch := l }
  | [] =>
    let p := x.pos.after (j.stream x.pos.record) (j.descOf m (j.stream x.pos.record)) e.slotCount q
    { x with pos := if p.visit = x.pos.visit then p else { p with past := SMap.insert p.past x.pos.slot now } }
/-- Context `y` in the place of `x`. -/
def putCtx (x y z : Ctx) : Ctx := if z.tile = x.tile ∧ z.ctx = x.ctx then y else z

theorem movedOn_place (m : Mem) (j : Job) (x : Ctx) (q : Piece) (e : Handle) (now : Nat) :
    (movedOn m j x q e now).tile = x.tile ∧ (movedOn m j x q e now).ctx = x.ctx := by
  unfold movedOn
  split <;> exact ⟨rfl, rfl⟩

theorem movedOn_pos_of_nil (m : Mem) (j : Job) {x : Ctx} (q : Piece) (e : Handle) (now : Nat) (h : x.refetch = []) :
    (movedOn m j x q e now).pos =
      let p := x.pos.after (j.stream x.pos.record) (j.descOf m (j.stream x.pos.record)) e.slotCount q
      if p.visit = x.pos.visit then p else { p with past := SMap.insert p.past x.pos.slot now } := by
  simp only [movedOn, h]

theorem movedOn_of_cons (m : Mem) (j : Job) {x : Ctx} (q : Piece) (e : Handle) (now : Nat) {b : Nat} {l : List Nat}
    (h : x.refetch = b :: l) : (movedOn m j x q e now).pos = x.pos ∧ (movedOn m j x q e now).refetch = l := by
  simp only [movedOn, h, and_self]

/-- Nothing stops a piece of the context once it is issued: both of its sides lie where the engine may use them, its destination is
the engine's own or a window is open on it, and its channel has not failed. -/
structure Sends (c : Ctl) (j : Job) (x : Ctx) (q : Piece) (e : Handle) (mem : Nat) : Prop where
  handle : j.handle? (tSlotHandle (j.stream x.pos.record)) = some e
  side : memSide c j x q = .ok (some mem)
  writes : tStore (j.stream x.pos.record) = false → e.write = true
  window : ∀ u, regionOf (pieceDst j x q e mem) = .tile u → u ≠ x.tile →
    windowOpen c x.tile (pieceDst j x q e mem) (32 * q.words) = true
  sound : tSpace (j.stream x.pos.record) = false → c.hbmFailed mem q.words = false

theorem Sends.of_unmarked {a b : Ctl} (hsame : a.unmarked = b.unmarked) {j : Job} {x : Ctx} {q : Piece} {e : Handle} {mem : Nat}
    (h : Sends b j x q e mem) : Sends a j x q e mem :=
  ⟨h.handle, (memSide_of_unmarked hsame ..).trans h.side, h.writes,
    fun u hu hne => (windowOpen_of_unmarked hsame ..).trans (h.window u hu hne),
    fun hspace => (Ctl.hbmFailed_of_unmarked hsame ..).trans (h.sound hspace)⟩

theorem chargeEngine_unread (tile cls hbm noc : Nat) {a b : Ctl} (h : a.unread = b.unread) :
    (chargeEngine tile cls hbm noc a).unread = (chargeEngine tile cls hbm noc b).unread := by
  have hcharge (c : Ctl) : (chargeEngine tile cls hbm noc c).unread = chargeEngine tile cls hbm noc c.unread := rfl
  rw [hcharge, hcharge, h]

/-- The resident page of a piece is requested, its bytes are charged, and what its issue counts is counted (R291, R310, R358). -/
def chargePiece (j : Job) (x : Ctx) (q : Piece) (mem : Nat) (c : Ctl) : Ctl :=
  let inHbm : Bool := !tSpace (j.stream x.pos.record)
  let c := if tSpace (j.stream x.pos.record) then c else touchFrames [mem / 32] c
  let c := chargeEngine x.tile j.cls (pieceCharge j x q).1 (pieceCharge j x q).2 c
  let c := if q.halo then count .plnHaloRow x.tile 1 c else c
  let c := if x.refetch = [] then c else count .strRefetch x.tile 1 c
  if inHbm && 32 * q.words < 512 then count .strSmall x.tile 1 c else c

theorem chargePiece_unread (j : Job) (x : Ctx) (q : Piece) (mem : Nat) (c : Ctl) :
    (chargePiece j x q mem c).unread = (chargeEngine x.tile j.cls (pieceCharge j x q).1 (pieceCharge j x q).2 c).unread := by
  unfold chargePiece
  extract_lets inHbm touched charged haloed refetched
  have htouched : touched.unread = c.unread := by simp [touched]
  have hcharged := chargeEngine_unread x.tile j.cls (pieceCharge j x q).1 (pieceCharge j x q).2 htouched
  rw [← hcharged]
  simp [refetched, haloed, charged]

/-- A piece that is issued is charged, its transfer is in flight, and its context has moved on. -/
theorem issue_of_sends {c : Ctl} {j : Job} {x : Ctx} {q : Piece} {e : Handle} {mem : Nat} (h : Sends c j x q e mem) (m : Mem)
    (t : Nat) : issue m j x q t c =
      let d := chargePiece j x q mem c
      noteMove x.job { d with
        ctxs := d.ctxs.map (putCtx x (movedOn m j x q e d.clk.ns)), xfers := d.xfers ++ [pieceXfer j x q t e mem c.clk.ns] } := by
  obtain ⟨hhandle, hside, hwrites, hwindow, hsound⟩ := h
  have hwritable : ¬(!tStore (j.stream x.pos.record) && !e.write) = true := by
    cases hr : tStore (j.stream x.pos.record)
    · simp [hwrites hr]
    · simp
  have hopen : ¬((match regionOf (pieceDst j x q e mem) with | .tile t => t | _ => x.tile) ≠ x.tile ∧
      (!windowOpen c x.tile (pieceDst j x q e mem) (32 * q.words)) = true) := by
    rintro ⟨haway, hshut⟩
    split at haway
    · rename_i u hu
      exact absurd (hwindow u hu haway) (by simpa using hshut)
    · exact haway rfl
  have hchannel : ¬((!tSpace (j.stream x.pos.record)) = true ∧ c.hbmFailed mem q.words = true) := by
    rintro ⟨hspace, hfailed⟩
    exact absurd (hsound (by simpa using hspace)) (by simp [hfailed])
  unfold issue
  simp only [hhandle, hside]
  exact (if_neg hwritable).trans ((if_neg hopen).trans ((if_neg hchannel).trans rfl))

/-- What a piece's issue leaves of the control state: its context among the others, its bytes charged, and its transfer. -/
theorem issue_leaves {c : Ctl} {j : Job} {x : Ctx} {q : Piece} {e : Handle} {mem : Nat} (h : Sends c j x q e mem) (m : Mem)
    (t : Nat) (hcls : j.cls < 3) :
    (issue m j x q t c).wq = c.wq ∧ (issue m j x q t c).slotTags = c.slotTags ∧
    (issue m j x q t c).charge x.tile j.cls = c.charge x.tile j.cls + (pieceCharge j x q).1 ∧
    (issue m j x q t c).charge x.tile 3 = c.charge x.tile 3 + (if j.cls = 0 then 0 else (pieceCharge j x q).2) ∧
    (issue m j x q t c).ctxs = c.ctxs.map (putCtx x (movedOn m j x q e c.clk.ns)) ∧
    (issue m j x q t c).xfers = c.xfers ++ [pieceXfer j x q t e mem c.clk.ns] := by
  have hpaid := chargePiece_unread j x q mem c
  have hcharges : (issue m j x q t c).charges = (chargeEngine x.tile j.cls (pieceCharge j x q).1 (pieceCharge j x q).2 c).charges := by
    rw [issue_of_sends h]
    exact (Ctl.charges_of_unread hpaid :)
  have hclk : (chargePiece j x q mem c).clk = c.clk := (Ctl.clk_of_unread hpaid :)
  have hctxs : (chargePiece j x q mem c).ctxs = c.ctxs := (Ctl.ctxs_of_unread hpaid :)
  have hxfers : (chargePiece j x q mem c).xfers = c.xfers := (Ctl.xfers_of_unread hpaid :)
  refine ⟨?_, ?_, ?_, ?_, ?_, ?_⟩
  · rw [issue_of_sends h]
    exact (Ctl.wq_of_unread hpaid :)
  · rw [issue_of_sends h]
    exact (Ctl.slotTags_of_unread hpaid :)
  · rw [Ctl.charge_of_charges hcharges, chargeEngine_hbm _ _ _ hcls]
  · rw [Ctl.charge_of_charges hcharges, chargeEngine_noc _ _ _ hcls]
  · rw [issue_of_sends h, ← hclk, ← hctxs]
    rfl
  · rw [issue_of_sends h, ← hxfers]
    rfl

/-- The context that ranks first has its piece in flight, charged, and has moved on. -/
theorem transferIssue_of_first {s : State} (hs : s.ready) {tile : Nat} {j : Job} {x : Ctx} {q : Piece} {t : Nat} {e : Handle}
    {mem : Nat} (hj : (resumed tile s.mem s.ctl).plane.holder.bind (resumed tile s.mem s.ctl).job? = some j) (hcls : j.cls < 3)
    (hx : x ∈ (resumed tile s.mem s.ctl).engine tile) (hready : ready s.mem (resumed tile s.mem s.ctl) j x = .yes q t)
    (hfirst : ranksFirst s.mem (resumed tile s.mem s.ctl) tile j x) (h : Sends (resumed tile s.mem s.ctl) j x q e mem) :
    completes (.transferIssue tile) s fun u => sameMem s u ∧ u.ctl.slotTags = s.ctl.slotTags ∧
      u.ctl.charge tile j.cls = s.ctl.charge tile j.cls + (pieceCharge j x q).1 ∧
      u.ctl.charge tile 3 = s.ctl.charge tile 3 + (if j.cls = 0 then 0 else (pieceCharge j x q).2) ∧
      (∃ b, movedOn s.mem j { x with blocked := b } q e s.ctl.clk.ns ∈ u.ctl.ctxs) ∧
      u.ctl.xfers = s.ctl.xfers ++ [pieceXfer j x q t e mem s.ctl.clk.ns] := by
  obtain ⟨c', b, hsame, ⟨z, hz, hzx⟩, hissue⟩ := issueNext_of_first hj hx hready hfirst
  have hrest := resumed_unwaited tile s.mem s.ctl
  have hcharge (k : Nat) : c'.charge tile k = s.ctl.charge tile k :=
    Ctl.charge_of_charges ((Ctl.charges_of_unmarked hsame).trans (Ctl.charges_of_unwaited hrest)) tile k
  have hclk : c'.clk = s.ctl.clk := (Ctl.clk_of_unmarked hsame).trans (Ctl.clk_of_unwaited hrest)
  obtain rfl : x.tile = tile := (Ctl.mem_engine hx).2.1
  have hsends : Sends c' j { x with blocked := b } q e mem := .of_unmarked hsame ⟨h.handle, h.side, h.writes, h.window, h.sound⟩
  obtain ⟨hwq, htags, hhbm, hnoc, hctxs, hxfers⟩ := issue_leaves hsends s.mem t hcls
  rw [← hissue] at hwq htags hhbm hnoc hctxs hxfers
  refine ⟨s.run (issueNext x.tile), rfl, sameMem_of_run ?_, ?_, ?_, ?_, ⟨b, ?_⟩, ?_⟩
  · rw [hwq, Ctl.wq_of_unmarked hsame, Ctl.wq_of_unwaited hrest, hs.2]
  · rw [State.run_slotTags, htags, Ctl.slotTags_of_unmarked hsame, Ctl.slotTags_of_unwaited hrest]
  · rw [Ctl.charge_of_charges State.run_charges, ← hcharge]
    exact hhbm
  · rw [Ctl.charge_of_charges State.run_charges, ← hcharge]
    exact hnoc
  · rw [State.run_ctxs, hctxs, hclk]
    exact List.mem_map.mpr ⟨z, hz, if_pos hzx⟩
  · rw [State.run_xfers, hxfers, Ctl.xfers_of_unmarked hsame, Ctl.xfers_of_unwaited hrest, hclk]
    rfl

end Sys2Proof.Machine
end

section
/-! PROOF of O46. Transfers that are delivered or stay in flight, and with the runs of entries and the pieces above the whole statement
(09 R276, R289, R294; 11 R342). -/

namespace Sys2Proof.Machine

/-! ### What a delivery leaves (R276, R282, R289) -/

theorem Ctl.xfers_of_untagged {a b : Ctl} (h : a.untagged = b.untagged) : a.xfers = b.xfers :=
  (congrArg Ctl.xfers h : a.untagged.xfers = b.untagged.xfers)

/-- A stream that leaves slots changes their tags alone. -/
theorem leaveSlots_untagged (m : Mem) (j : Job) (x : Xfer) (rest : List Xfer) (c : Ctl) :
    (leaveSlots m j x rest c).untagged = c.untagged := by
  have tags (b : Bool) (ks : List Nat) (c : Ctl) : (setAll (if b then setFull else setEmpty) ks c).untagged = c.untagged ∧
      (setAll (if b then setEmpty else setFull) ks c).untagged = c.untagged := by
    cases b <;> simp [setAllFull_untagged, setAllEmpty_untagged]
  have hif (p : Prop) [Decidable p] (a b : Ctl) : (if p then a else b).untagged = if p then a.untagged else b.untagged :=
    apply_ite Ctl.untagged p a b
  unfold leaveSlots
  cases c.streamPos x with
  | none => rfl
  | some p =>
    dsimp only
    cases j.handle? (tMemHandle (j.stream x.record)) <;> simp [tags, hif]

theorem mem_reap {m : Mem} {x : Xfer} {c : Ctl} {y : Ctx} (h : y ∈ (reap m x c).ctxs) : y ∈ c.ctxs := (List.mem_filter.mp h).1

/-- Whether the words are poisoned is read from the slot tags. -/
theorem Xfer.wordsOf_of_slotTags {a b : Ctl} (h : a.slotTags = b.slotTags) (x : Xfer) (m : Mem) (j : Job) :
    x.wordsOf m j a = x.wordsOf m j b := by
  have hvoid : a.slotVoided = b.slotVoided := by
    funext k
    rw [Ctl.slotVoided, Ctl.slotVoided, h]
  rw [wordsOf, wordsOf, hvoid]

/-- The writes of a transfer's words at its destination, each with its tag byte. -/
def Xfer.writesOf (x : Xfer) (m : Mem) (j : Job) (c : Ctl) : List Wr :=
  (List.range x.words).flatMap fun i =>
    let w := (x.wordsOf m j c).getD i { data := [], tag := 0, found := .clean }
    wholeWord (x.dst / 32 + i) w.data w.tag

/-- The state in which a transfer's words have been read and its tag is free. -/
def landed (m : Mem) (x : Xfer) (c : Ctl) : Ctl :=
  noteReads m ((List.range x.words).map fun i => x.src / 32 + i) (noteMove x.job { c with xfers := c.xfers.filter (· ≠ x) })

theorem landed_job? (m : Mem) {x : Xfer} {c : Ctl} {j : Job} (hj : c.job? x.job = some j) :
    (landed m x c).job? x.job = some { j with moved := c.clk.ns } :=
  (Ctl.job?_of_jobs (Ctl.jobs_of_unread (noteReads_unread ..)) _).trans
    (Ctl.job?_mapJob_self (c := { c with xfers := c.xfers.filter (· ≠ x) }) hj fun _ => rfl)

/-- The context that reads a block list holds the entries up to those that have come. -/
def holdEntries (x : Xfer) (y : Ctx) : Ctx :=
  if y.tile = x.tile && y.ctx = x.ctx && y.job = x.job && y.pos.record = x.record then { y with fetched := max y.fetched x.slot }
  else y

theorem holdEntries_place (x : Xfer) (y : Ctx) : (holdEntries x y).tile = y.tile ∧ (holdEntries x y).ctx = y.ctx ∧
    (holdEntries x y).job = y.job ∧ (holdEntries x y).pos = y.pos := by
  unfold holdEntries
  split <;> exact ⟨rfl, rfl, rfl, rfl⟩

theorem le_fetched_holdEntries {x : Xfer} {y : Ctx} (htile : y.tile = x.tile) (hctx : y.ctx = x.ctx) (hjob : y.job = x.job)
    (hrecord : y.pos.record = x.record) : x.slot ≤ (holdEntries x y).fetched := by
  rw [holdEntries, if_pos (by simp [htile, hctx, hjob, hrecord])]
  exact Nat.le_max_right ..

/-- The words of a transfer of job `j` are written; its accesses of HBM, the slot that it fills and its delivery are noted. -/
def depositWords (m : Mem) (x : Xfer) (j : Job) (c : Ctl) : Ctl :=
  let c := emit (x.writesOf m j c) c
  let c := if regionOf x.src = .hbm then touchHbm x.src x.words c else c
  let c := if regionOf x.dst = .hbm then touchHbm x.dst x.words c else c
  let c := c.mapJob x.job fun k => { k with exec := { k.exec with writers := k.exec.writers.filter fun w => w.1 ≠ x.dstHandle j } }
  count .strXfer x.tile 1 c

theorem depositWords_leaves (m : Mem) (x : Xfer) (j : Job) (c : Ctl) :
    (depositWords m x j c).wq = c.wq ++ x.writesOf m j c ∧ (depositWords m x j c).xfers = c.xfers := by
  unfold depositWords
  extract_lets written source placed filled
  have htouch (a : Nat) (d : Ctl) : (if regionOf a = .hbm then touchHbm a x.words d else d).unread = d.unread := by
    split <;> simp
  have hplaced : placed.unread = written.unread := (htouch x.dst source).trans (htouch x.src written)
  exact ⟨(count_wq ..).trans (Ctl.wq_of_unread hplaced :), (count_xfers ..).trans (Ctl.xfers_of_unread hplaced :)⟩

section
variable (m : Mem) {x : Xfer} {c : Ctl} {j : Job} (hj : c.job? x.job = some j)
include hj

theorem deliver_of_listRead (hlist : x.listRead = true) : deliver m x c =
    let d := touchHbm x.src x.words (landed m x c)
    reap m x { d with ctxs := d.ctxs.map (holdEntries x) } := by
  unfold deliver
  extract_lets rest left moved read
  rw [show read.job? x.job = _ from landed_job? m hj]
  dsimp only
  rw [if_pos hlist]
  rfl

/-- Block entries that arrive are there for their context, and nothing is written. -/
theorem deliver_leaves_entries (hlist : x.listRead = true) :
    (deliver m x c).wq = c.wq ∧ (deliver m x c).xfers = c.xfers.filter (· ≠ x) ∧ (deliver m x c).slotTags = c.slotTags ∧
    ∀ y ∈ (deliver m x c).ctxs, y.tile = x.tile → y.ctx = x.ctx → y.job = x.job → y.pos.record = x.record →
      x.slot ≤ y.fetched := by
  have hread : (touchHbm x.src x.words (landed m x c)).unread =
      (noteMove x.job { c with xfers := c.xfers.filter (· ≠ x) }).unread := (touchHbm_unread ..).trans (noteReads_unread ..)
  rw [deliver_of_listRead m hj hlist]
  refine ⟨(Ctl.wq_of_unread hread :), (Ctl.xfers_of_unread hread :), (Ctl.slotTags_of_unread hread :), fun y hy => ?_⟩
  obtain ⟨z, -, rfl⟩ := List.mem_map.mp (mem_reap hy)
  obtain ⟨htile, hctx, hjob, hpos⟩ := holdEntries_place x z
  rw [htile, hctx, hjob, hpos]
  exact le_fetched_holdEntries

theorem deliver_of_words (hlist : x.listRead = false) : deliver m x c =
    let k := { j with moved := c.clk.ns }
    reap m x (leaveSlots m k x (c.xfers.filter (· ≠ x)) (depositWords m x k (landed m x c))) := by
  unfold deliver
  extract_lets rest left moved read
  rw [show read.job? x.job = _ from landed_job? m hj]
  dsimp only
  rw [if_neg (by simp [hlist])]
  rfl

/-- Words that arrive are written with their tag bytes. -/
theorem deliver_leaves_words (hlist : x.listRead = false) :
    (deliver m x c).wq = c.wq ++ x.writesOf m j c ∧ (deliver m x c).xfers = c.xfers.filter (· ≠ x) := by
  have hread : (landed m x c).unread = (noteMove x.job { c with xfers := c.xfers.filter (· ≠ x) }).unread := noteReads_unread ..
  have hwrites : x.writesOf m { j with moved := c.clk.ns } (landed m x c) = x.writesOf m j c := by
    rw [Xfer.writesOf, Xfer.wordsOf_of_slotTags (Ctl.slotTags_of_unread hread :)]
    rfl
  obtain ⟨hwq, hxfers⟩ := depositWords_leaves m x { j with moved := c.clk.ns } (landed m x c)
  have hleft := leaveSlots_untagged m { j with moved := c.clk.ns } x (c.xfers.filter (· ≠ x))
    (depositWords m x { j with moved := c.clk.ns } (landed m x c))
  rw [deliver_of_words m hj hlist]
  refine ⟨?_, ?_⟩
  · rw [hwrites, Ctl.wq_of_unread hread] at hwq
    exact (Ctl.wq_of_untagged hleft).trans hwq
  · exact (Ctl.xfers_of_untagged hleft).trans (hxfers.trans (Ctl.xfers_of_unread hread :))
end

section
variable {tile tag : Nat} {c : Ctl} {x : Xfer} (hx : c.xfers.find? (fun y => y.tile = tile && y.tag = tag) = some x)
include hx

/-- A transfer that is held back, or that the scheduler serves later, moves nothing (R254, R342). -/
theorem deliverTag_of_held (hheld : c.deliverable x = false ∨ servedLater c x = true) (m : Mem) :
    (deliverTag tile tag m c).wq = c.wq ∧ (deliverTag tile tag m c).xfers = c.xfers ∧
    (deliverTag tile tag m c).slotTags = c.slotTags := by
  unfold deliverTag
  simp -zeta only [hx]
  split
  · rename_i hdeliverable
    rw [if_pos (hheld.resolve_left (by simp [hdeliverable]))]
    exact ⟨rfl, rfl, rfl⟩
  · split <;> exact ⟨rfl, rfl, rfl⟩

theorem deliverTag_of_served (hdeliverable : c.deliverable x = true) (hserved : servedLater c x = false) (m : Mem) :
    deliverTag tile tag m c = deliver m x c := by
  simp [deliverTag, hx, hdeliverable, hserved]
end

section
variable {s : State} (hs : s.ready) {tile tag : Nat} (ups : List Upset) {x : Xfer}
  (hx : s.ctl.xfers.find? (fun y => y.tile = tile && y.tag = tag) = some x)
include hs hx

theorem transferDelivered_of_held (hheld : s.ctl.deliverable x = false ∨ servedLater s.ctl x = true) :
    completes (.transferDelivered tile tag ups) s fun u =>
      u.mem = s.mem.apply (upsetWrites s.mem ups) ∧ u.ctl.xfers = s.ctl.xfers ∧ u.ctl.slotTags = s.ctl.slotTags := by
  have hstays := deliverTag_of_held (c := emit (upsetWrites s.mem ups) s.ctl) hx hheld
  obtain ⟨hwq, hxfers, htags⟩ := hstays (s.mem.apply (upsetWrites s.mem ups))
  refine ⟨s.run (withUpsets ups (deliverTag tile tag)), rfl, ?_, ?_, ?_⟩
  · rw [State.run_mem, withUpsets, hwq, emit_wq, hs.2, List.nil_append]
  · rw [State.run_xfers, withUpsets, hxfers, emit_xfers]
  · rw [State.run_slotTags, withUpsets, htags, emit_slotTags]

/-- A transfer that is served is in flight no more: its entries are there for their context, or its words at their destination. -/
theorem transferDelivered_of_served {k : Job} (hdeliverable : s.ctl.deliverable x = true) (hserved : servedLater s.ctl x = false)
    (hk : s.ctl.job? x.job = some k) : completes (.transferDelivered tile tag ups) s fun u =>
      u.ctl.xfers = s.ctl.xfers.filter (· ≠ x) ∧
      (x.listRead = true → u.mem = s.mem.apply (upsetWrites s.mem ups) ∧ u.ctl.slotTags = s.ctl.slotTags ∧
        ∀ y ∈ u.ctl.ctxs, y.tile = x.tile → y.ctx = x.ctx → y.job = x.job → y.pos.record = x.record →
          x.slot ≤ y.fetched) ∧
      (x.listRead = false → u.mem = (s.mem.apply (upsetWrites s.mem ups)).apply
        (x.writesOf (s.mem.apply (upsetWrites s.mem ups)) k s.ctl)) := by
  let m := s.mem.apply (upsetWrites s.mem ups)
  have hend : withUpsets ups (deliverTag tile tag) s.mem s.ctl = deliver m x (emit (upsetWrites s.mem ups) s.ctl) :=
    deliverTag_of_served (c := emit (upsetWrites s.mem ups) s.ctl) hx hdeliverable hserved m
  have hk' : (emit (upsetWrites s.mem ups) s.ctl).job? x.job = some k := hk
  refine ⟨s.run (withUpsets ups (deliverTag tile tag)), rfl, ?_, fun hlist => ?_, fun hlist => ?_⟩
  · rw [State.run_xfers, hend]
    cases hlist : x.listRead
    · exact (deliver_leaves_words m hk' hlist).2
    · exact (deliver_leaves_entries m hk' hlist).2.1
  · obtain ⟨hwq, -, htags, hctxs⟩ := deliver_leaves_entries m hk' hlist
    refine ⟨?_, ?_, ?_⟩
    · rw [State.run_mem, hend, hwq, emit_wq, hs.2, List.nil_append]
    · rw [State.run_slotTags, hend, htags, emit_slotTags]
    · rw [State.run_ctxs, hend]
      exact hctxs
  · obtain ⟨hwq, -⟩ := deliver_leaves_words m hk' hlist
    rw [State.run_mem, hend, hwq, emit_wq, hs.2, List.nil_append, Mem.apply_append]
    rfl
end

/-! ### The statement -/

/-- Settles O46: a governor window has no other effect than its clause says, and the other clauses are what a run of entries, a piece
and a delivery leave. -/
theorem streamEnginesMoveWords : Obligations.StreamEnginesMoveWords := by
  unfold Obligations.StreamEnginesMoveWords
  intro s tile hs c
  refine ⟨exec_eq_withCtl rfl rfl hs.2 rfl, ?_, ?_, ?_⟩
  · intro j n x t p hj hcls hfound hjob r a left src words hblocks hgoing hleft hidle htag hpage hroom
    obtain ⟨hfails, hreads⟩ := blockListFetch_of_fetchesRun hs hcls
      ⟨hfound, hjob, hblocks, hgoing, hleft, hidle, htag, hpage, hroom⟩
    refine ⟨hfails, fun hsound => ?_⟩
    obtain ⟨u, hu, hmem, htags, hcharge, hxfers⟩ := hreads hsound
    exact ⟨u, hu, hmem, htags, hcharge, _, hxfers, rfl, rfl, rfl, rfl, rfl, rfl, rfl, rfl⟩
  · intro c₁ j x q t e mem hj hcls hx hready hfirst hhandle hside r slot dst hwrites hwindow hsound
    obtain ⟨u, hu, hmem, htags, hhbm, hnoc, ⟨b, hmoved⟩, hxfers⟩ := transferIssue_of_first hs hj hcls hx hready
      (fun y hy hne hgoes => (hfirst y hy hne).2 hgoes) ⟨hhandle, hside, hwrites, hwindow, hsound⟩
    obtain ⟨hyt, hyc⟩ := movedOn_place s.mem j { x with blocked := b } q e c.clk.ns
    have htile : (pieceXfer j x q t e mem c.clk.ns).tile = tile := (Ctl.mem_engine hx).2.1
    refine ⟨u, hu, hmem, htags, hhbm, hnoc, fun hnil => ⟨_, hmoved, hyt, hyc, ?_⟩, fun y l hcons => ⟨_, hmoved, hyt, hyc, ?_⟩,
      _, hxfers, htile, rfl, rfl, rfl, rfl, rfl, rfl, rfl, rfl⟩
    · exact movedOn_pos_of_nil s.mem j (x := { x with blocked := b }) q e c.clk.ns hnil
    · exact movedOn_of_cons s.mem j (x := { x with blocked := b }) q e c.clk.ns hcons
  · intro x tag ups hx m
    exact ⟨transferDelivered_of_held hs ups hx, fun _ => transferDelivered_of_served hs ups hx⟩

end Sys2Proof.Machine
end

section
/-! SUPPORT. Numbers as bits, most significant first, and the decoder of P6 and P4 blocks case by case (10 R313, R315, R326). -/

namespace Sys2Proof.Machine

theorem sp8IsZero_iff (b : Byte) : sp8IsZero b = true ↔ b = 0x00#8 := by
  rw [sp8IsZero, beq_iff_eq, ← BitVec.toNat_inj]
  rfl

/-! ### Bits of a number (R313) -/

theorem bit_eq_testBit (n i : Nat) : bit n i = n.testBit i := by
  rw [Nat.testBit_eq_decide_div_mod_eq]
  rfl

theorem natBits_succ (k n : Nat) : natBits (k + 1) n = natBits k (n / 2) ++ [bit n 0] := by
  have hbit : ∀ i ∈ List.range k, bit n (k + 1 - 1 - i) = bit (n / 2) (k - 1 - i) := by
    intro i hi
    have hi := List.mem_range.mp hi
    rw [bit_eq_testBit, bit_eq_testBit, Nat.testBit_div_two]
    congr 1
    omega
  rw [natBits, List.range_succ, List.map_append, List.map_congr_left hbit]
  simp [natBits]

@[simp] theorem length_natBits (k n : Nat) : (natBits k n).length = k := by simp [natBits]

theorem bitsNat_concat (bs : List Bool) (b : Bool) : bitsNat (bs ++ [b]) = 2 * bitsNat bs + b2n b := by simp [bitsNat]

theorem b2n_bit_zero (n : Nat) : b2n (bit n 0) = n % 2 := by
  rcases Nat.mod_two_eq_zero_or_one n with h | h <;> simp [b2n, bit, h]

/-- The bits of a number spell its remainder. -/
theorem bitsNat_natBits (k n : Nat) : bitsNat (natBits k n) = n % 2 ^ k := by
  induction k generalizing n with
  | zero => simp [natBits, bitsNat, Nat.mod_one]
  | succ k ih =>
    rw [natBits_succ, bitsNat_concat, ih, b2n_bit_zero, Nat.pow_succ', Nat.mod_mul]
    omega

/-- The number that bits spell has those bits. -/
theorem natBits_bitsNat (bs : List Bool) : natBits bs.length (bitsNat bs) = bs := by
  induction bs using List.reverseRecOn with
  | nil => rfl
  | append_singleton bs b ih =>
    have hhalf : (2 * bitsNat bs + b2n b) / 2 = bitsNat bs := by
      cases b with
      | false => simp [b2n]
      | true =>
        simp only [b2n, if_true]
        omega
    have hlast : bit (2 * bitsNat bs + b2n b) 0 = b := by
      cases b <;> simp [b2n, bit]
    rw [List.length_append, List.length_singleton, natBits_succ, bitsNat_concat, hhalf, hlast, ih]

theorem bitsNat_lt (bs : List Bool) : bitsNat bs < 2 ^ bs.length := by
  rw [← natBits_bitsNat bs, bitsNat_natBits, length_natBits]
  exact Nat.mod_lt _ (Nat.two_pow_pos _)

theorem byteBits_byte_bitsNat {bs : List Bool} (h : bs.length = 8) : byteBits (byte (bitsNat bs)) = bs := by
  have hlt : bitsNat bs < 256 := by simpa [h] using bitsNat_lt bs
  calc byteBits (byte (bitsNat bs)) = natBits 8 (byte (bitsNat bs)).toNat := rfl
    _ = natBits bs.length (bitsNat bs) := by rw [toNat_byte, Nat.mod_eq_of_lt hlt, h]
    _ = bs := natBits_bitsNat bs

/-- Bits put into bytes stand there as they were, with zeros behind them. -/
theorem flatMap_byteBits_packBits {k : Nat} {bs : List Bool} (h : bs.length ≤ 8 * k) :
    (packBits k bs).flatMap byteBits = bs ++ List.replicate (8 * k - bs.length) false := by
  induction k generalizing bs with
  | zero =>
    obtain rfl : bs = [] := List.eq_nil_of_length_eq_zero (by omega)
    rfl
  | succ k ih =>
    have hrest : (bs.drop 8).length ≤ 8 * k := by
      rw [List.length_drop]
      omega
    rw [packBits, List.flatMap_cons, byteBits_byte_bitsNat (by simp), ih hrest, List.length_drop]
    rcases Nat.le_total 8 bs.length with hlong | hshort
    · have hfull : 8 - (bs.take 8).length = 0 := by simp [hlong]
      have hpad : 8 * k - (bs.length - 8) = 8 * (k + 1) - bs.length := by omega
      rw [hfull, hpad, List.replicate_zero, List.append_nil, ← List.append_assoc, List.take_append_drop]
    · have hpad : 8 - bs.length + 8 * k = 8 * (k + 1) - bs.length := by omega
      rw [List.take_of_length_le hshort, List.drop_of_length_le hshort, List.nil_append, List.append_assoc,
        List.replicate_append_replicate, Nat.sub_eq_zero_of_le hshort, Nat.sub_zero, hpad]

/-! ### The decoder of P6 and P4 blocks (R315, R326) -/

section
variable {p4 : Bool} {blk : List Byte}

theorem decodeExp_of_overrun (hcodes : bit (blk.headD 0).toNat 4 = false)
    (hnone : decodeElems p4 ((blk.headD 0).toNat % 16) 128 ((blk.drop 1).flatMap byteBits) = none) :
    decodeExp p4 blk = .error .overrun := by
  simp only [decodeExp, hcodes, hnone, Bool.false_eq_true, if_false]

theorem decodeExp_of_elems (hcodes : bit (blk.headD 0).toNat 4 = false) {es : List (Option Byte)} {r : List Bool}
    (hsome : decodeElems p4 ((blk.headD 0).toNat % 16) 128 ((blk.drop 1).flatMap byteBits) = some (es, r)) :
    decodeExp p4 blk =
      if r.any id = true then .error .padding
      else if (blk.headD 0).toNat / 32 ≠ 0 ∨ es.any Option.isNone = true then .error .format
      else .ok (es.map (·.getD 0)) := by
  simp only [decodeExp, hcodes, hsome, Bool.false_eq_true, if_false]

theorem decodeExp_of_bvoid (hvoid : bit (blk.headD 0).toNat 4 = true) :
    decodeExp p4 blk =
      if (blk.headD 0).toNat % 16 ≠ 0 ∨ ((blk.drop 1).flatMap byteBits).any id = true then .error .padding
      else if (blk.headD 0).toNat / 32 ≠ 0 then .error .format
      else .ok (List.replicate 128 0x80#8) := by
  simp only [decodeExp, hvoid, if_true]
end

end Sys2Proof.Machine
end

section
/-! PROOF of O11. A P6 or P4 block decodes to the elements it was encoded from, flushed ones as zero (10 R313 to R318). -/

namespace Sys2Proof.Machine

/-! ### One element code (Table 10.3) -/

theorem turnOf_lt (b : Byte) : turnOf b < 16 := by
  rw [turnOf, sp8Mag]
  omega

/-- A byte is its sign, turn and fraction (R44). -/
theorem byte_sign_turn_fraction (b : Byte) : byte (b2n (sp8Neg b) * 128 + 8 * turnOf b + sp8Mag b % 8) = b := by
  have hsign : b2n (sp8Neg b) = b.toNat / 128 := by
    have := b.isLt
    by_cases h : 128 ≤ b.toNat <;> simp [sp8Neg, b2n, h] <;> omega
  have hsum : b.toNat / 128 * 128 + 8 * turnOf b + sp8Mag b % 8 = b.toNat := by
    rw [turnOf, sp8Mag]
    omega
  rw [hsign, hsum]
  exact BitVec.ofNat_toNat ..

/-- P4 codes half-turns alone: the fraction of such an element is 0 or 4. -/
def Codable (p4 : Bool) (b : Byte) : Prop := p4 = true → sp8Mag b % 4 = 0

/-- The element that the raw bits behind a prefix for turn `t` give, and the bits left (R315). -/
def rawElem (p4 : Bool) (t : Option Nat) (r : List Bool) : Option (Option Byte × List Bool) :=
  if r.length < (if p4 then 2 else 4) then none
  else
    let f := if p4 then 4 * bitsNat ((r.drop 1).take 1) else bitsNat ((r.drop 1).take 3)
    some (t.map fun t => byte (bitsNat (r.take 1) * 128 + 8 * t + f), r.drop (if p4 then 2 else 4))

section
variable (p4 : Bool) (top : Nat) (r : List Bool)

theorem decodeElem_top : decodeElem p4 top (false :: r) = rawElem p4 (some top) r := rfl

theorem decodeElem_below_top (h : 1 ≤ top) :
    decodeElem p4 top (true :: true :: false :: r) = rawElem p4 (some (top - 1)) r := by
  change rawElem p4 (if 1 ≤ top then some (top - 1) else none) r = _
  rw [if_pos h]

theorem decodeElem_two_below_top (h : 2 ≤ top) :
    decodeElem p4 top (true :: true :: true :: false :: r) = rawElem p4 (some (top - 2)) r := by
  change rawElem p4 (if 2 ≤ top then some (top - 2) else none) r = _
  rw [if_pos h]

/-- An escape carries its turn in four bits. -/
theorem decodeElem_escape {t : Nat} (h : t < 16) :
    decodeElem p4 top (true :: true :: true :: true :: false :: (natBits 4 t ++ r)) = rawElem p4 (some t) r := by
  have hturn : bitsNat ((natBits 4 t ++ r).take 4) = t := by
    rw [List.take_left' (length_natBits 4 t), bitsNat_natBits]
    exact Nat.mod_eq_of_lt h
  have hlong : ¬ (natBits 4 t ++ r).length < 4 := by simp
  calc decodeElem p4 top (true :: true :: true :: true :: false :: (natBits 4 t ++ r))
      = if (natBits 4 t ++ r).length < 4 then none
        else rawElem p4 (some (bitsNat ((natBits 4 t ++ r).take 4))) ((natBits 4 t ++ r).drop 4) := rfl
    _ = rawElem p4 (some t) r := by rw [if_neg hlong, hturn, List.drop_left' (length_natBits 4 t)]
end

theorem rawElem_rawBits {p4 : Bool} {b : Byte} (hb : Codable p4 b) (r : List Bool) :
    rawElem p4 (some (turnOf b)) (rawBits p4 b ++ r) = some (some b, r) := by
  have hsign : bitsNat [sp8Neg b] = b2n (sp8Neg b) := by simp [bitsNat]
  cases p4 with
  | false =>
    have hfraction : bitsNat (natBits 3 (sp8Mag b % 8)) = sp8Mag b % 8 := by
      rw [bitsNat_natBits]
      exact Nat.mod_mod ..
    have hrest : (natBits 3 (sp8Mag b % 8) ++ r).drop 3 = r := List.drop_left' (length_natBits ..)
    simp [rawElem, rawBits, hsign, hfraction, hrest, byte_sign_turn_fraction]
  | true =>
    have hfraction : 4 * bitsNat [bit (sp8Mag b % 8) 2] = sp8Mag b % 8 := by
      have hhalf := hb rfl
      obtain h | h : sp8Mag b % 8 = 0 ∨ sp8Mag b % 8 = 4 := by omega
      · rw [h]
        rfl
      · rw [h]
        rfl
    simp [rawElem, rawBits, hsign, hfraction, byte_sign_turn_fraction]

/-- The decoder reads back each element code, whatever stands behind it. -/
theorem decodeElem_elemCode {p4 : Bool} {b : Byte} (hb : Codable p4 b) (top : Nat) (r : List Bool) :
    decodeElem p4 top (elemCode p4 top b ++ r) = some (some b, r) := by
  have hraw := rawElem_rawBits hb r
  unfold elemCode
  split_ifs with hvoid hzero h0 h1 h2
  · rw [(sp8IsVoid_iff b).mp hvoid]
    rfl
  · rw [(sp8IsZero_iff b).mp hzero]
    rfl
  · rw [List.cons_append, decodeElem_top, ← h0, hraw]
  · have ht : top - 1 = turnOf b := by omega
    simp only [List.cons_append, List.nil_append]
    rw [decodeElem_below_top _ _ _ (by omega), ht, hraw]
  · have ht : top - 2 = turnOf b := by omega
    simp only [List.cons_append, List.nil_append]
    rw [decodeElem_two_below_top _ _ _ (by omega), ht, hraw]
  · simp only [List.append_assoc, List.cons_append, List.nil_append]
    rw [decodeElem_escape _ _ _ (turnOf_lt b), hraw]

theorem decodeElems_elemCodes {p4 : Bool} (top : Nat) {es : List Byte} (hes : ∀ b ∈ es, Codable p4 b) (r : List Bool) :
    decodeElems p4 top es.length (es.flatMap (elemCode p4 top) ++ r) = some (es.map some, r) := by
  induction es with
  | nil => rfl
  | cons b es ih =>
    obtain ⟨hb, hes⟩ := List.forall_mem_cons.mp hes
    rw [List.flatMap_cons, List.append_assoc, List.length_cons, decodeElems, decodeElem_elemCode hb]
    simp only [ih hes, List.map_cons]

/-! ### A block (R313, R315, R318) -/

theorem streamBits_eq (p4 : Bool) : 8 * (streamBits p4 / 8) = streamBits p4 := by cases p4 <;> rfl

/-- A block whose codes fit its stream decodes to the elements coded: the header holds the reference turn alone, and the stream
ends in zeros. -/
theorem decodeExp_codes {p4 : Bool} {top : Nat} {es : List Byte} (htop : top < 16) (hlen : es.length = 128)
    (hes : ∀ b ∈ es, Codable p4 b) (hfits : (es.flatMap (elemCode p4 top)).length ≤ streamBits p4) :
    decodeExp p4 (byte top :: packBits (streamBits p4 / 8) (es.flatMap (elemCode p4 top))) = .ok es := by
  set code := es.flatMap (elemCode p4 top)
  have hhead : ((byte top :: packBits (streamBits p4 / 8) code).headD 0).toNat = top := by
    rw [List.headD_cons, toNat_byte, Nat.mod_eq_of_lt (by omega)]
  have hcodes : bit top 4 = false := by rw [bit_eq_testBit, Nat.testBit_lt_two_pow htop]
  have helems := decodeElems_elemCodes top hes (List.replicate (8 * (streamBits p4 / 8) - code.length) false)
  rw [← flatMap_byteBits_packBits (by rwa [streamBits_eq]), hlen] at helems
  rw [decodeExp_of_elems (by rwa [hhead]) (by rwa [hhead, Nat.mod_eq_of_lt htop]), hhead]
  have hreserved : top / 32 = 0 := by omega
  have hmap : (es.map some).map (·.getD 0) = es := by simp
  have hturns : (es.map some).any Option.isNone = false := by simp
  have hpadding : (List.replicate (8 * (streamBits p4 / 8) - code.length) false).any id = false := by simp
  rw [hmap, hturns, hpadding, hreserved]
  rfl

theorem decodeExp_voidBlock (p4 : Bool) : decodeExp p4 (voidBlock p4).bytes = .ok (List.replicate 128 0x80#8) := by
  have hstream : ((List.replicate (streamBits p4 / 8) (0 : Byte)).flatMap byteBits).any id = false := by
    rw [List.any_flatMap, List.any_eq_false]
    intro b hb
    rw [List.eq_of_mem_replicate hb]
    decide
  have hhead : ((voidBlock p4).bytes.headD 0).toNat = 16 := rfl
  have hbody : (voidBlock p4).bytes.drop 1 = List.replicate (streamBits p4 / 8) 0 := rfl
  rw [decodeExp_of_bvoid (by rw [hhead]; decide), hhead, hbody, hstream]
  rfl

theorem topTurn_lt (es : List Byte) : topTurn es < 16 := by
  have hfold : ∀ t < 16, es.foldl (fun t b => if sp8IsVoid b || sp8IsZero b then t else max t (turnOf b)) t < 16 := by
    induction es with
    | nil => exact fun t ht => ht
    | cons b es ih =>
      intro t ht
      refine ih _ ?_
      dsimp only
      split
      · exact ht
      · exact max_lt ht (turnOf_lt b)
  exact hfold 0 (by decide)

theorem codable_flushElem {p4 : Bool} {b : Byte} (hb : Codable p4 b) (top l : Nat) : Codable p4 (flushElem top l b) := by
  unfold flushElem
  split_ifs
  · exact hb
  · exact fun _ => rfl
  · exact hb

/-- What the encoder wrote at flush depth `l`. -/
structure WrittenAt (p4 : Bool) (top : Nat) (es : List Byte) (l : Nat) (p : Packed) : Prop where
  fits : ((es.map (flushElem top l)).flatMap (elemCode p4 top)).length ≤ streamBits p4
  bytes : p.bytes = byte top :: packBits (streamBits p4 / 8) ((es.map (flushElem top l)).flatMap (elemCode p4 top))
  notVoid : p.blockVoid = 0
  unflushed : p.flushed = 0 → es.map (flushElem top l) = es

theorem map_eq_self_of_no_change {es : List Byte} {f : Byte → Byte}
    (h : ((es.zip (es.map f)).filter fun p => p.1 ≠ p.2).length = 0) : es.map f = es := by
  rw [List.length_eq_zero_iff, List.filter_eq_nil_iff, ← List.map_prod_left_eq_zip] at h
  refine (List.map_congr_left fun b hb => ?_).trans (List.map_id es)
  have hsame : b = f b := by simpa using h (b, f b) (List.mem_map_of_mem hb)
  exact hsame.symm

theorem writtenAt_of_encodeExpAt {p4 : Bool} {top l : Nat} {es : List Byte} {p : Packed}
    (h : encodeExpAt p4 top es l = some p) : WrittenAt p4 top es l p := by
  simp only [encodeExpAt] at h
  split at h
  case isFalse => cases h
  case isTrue hfits =>
    cases h
    exact ⟨hfits, rfl, rfl, map_eq_self_of_no_change⟩

/-- The encoder writes at some depth, or a wholly void block (R318). -/
theorem encodeExpFrom_cases (p4 : Bool) (top : Nat) (es : List Byte) (n : Nat) :
    encodeExpFrom p4 top es n = voidBlock p4 ∨ ∃ l ≤ n, WrittenAt p4 top es l (encodeExpFrom p4 top es n) := by
  induction n with
  | zero =>
    cases h : encodeExpAt p4 top es 0 with
    | none => exact .inl (by rw [encodeExpFrom, h]; rfl)
    | some p => exact .inr ⟨0, le_rfl, by rw [encodeExpFrom, h]; exact writtenAt_of_encodeExpAt h⟩
  | succ n ih =>
    cases h : encodeExpAt p4 top es (n + 1) with
    | none =>
      rw [encodeExpFrom, h, Option.getD_none]
      exact ih.imp_right fun ⟨l, hl, hw⟩ => ⟨l, by omega, hw⟩
    | some p => exact .inr ⟨n + 1, le_rfl, by rw [encodeExpFrom, h]; exact writtenAt_of_encodeExpAt h⟩

/-- The round trip of codable elements. -/
theorem decodeExp_encodeExp {p4 : Bool} {xs : List Byte} (hlen : xs.length = 128) (hxs : ∀ b ∈ xs, Codable p4 b) :
    ∃ ys, decodeExp p4 (encodeExp p4 xs).bytes = .ok ys ∧ ys.length = 128 ∧
      ((encodeExp p4 xs).blockVoid = 1 → ys = List.replicate 128 0x80#8) ∧
      ((encodeExp p4 xs).blockVoid = 0 → ∃ l ≤ 15, ys = xs.map (flushElem (topTurn xs) l)) ∧
      ((encodeExp p4 xs).blockVoid = 0 → (encodeExp p4 xs).flushed = 0 → ys = xs) := by
  rcases encodeExpFrom_cases p4 (topTurn xs) xs 15 with hvoid | ⟨l, hl, hwritten⟩
  · have hone : (encodeExp p4 xs).blockVoid = 1 := congrArg Packed.blockVoid hvoid
    refine ⟨List.replicate 128 0x80#8, ?_, List.length_replicate, fun _ => rfl, fun h => ?_, fun h => ?_⟩
    · rw [encodeExp, hvoid, decodeExp_voidBlock]
    · omega
    · omega
  · have hzero : (encodeExp p4 xs).blockVoid = 0 := hwritten.notVoid
    have hcodable : ∀ b ∈ xs.map (flushElem (topTurn xs) l), Codable p4 b := by
      rw [List.forall_mem_map]
      exact fun b hb => codable_flushElem (hxs b hb) _ _
    refine ⟨xs.map (flushElem (topTurn xs) l), ?_, by rwa [List.length_map], fun h => ?_, fun _ => ⟨l, hl, rfl⟩,
      fun _ => hwritten.unflushed⟩
    · rw [encodeExp, hwritten.bytes, decodeExp_codes (topTurn_lt xs) (by rwa [List.length_map]) hcodable hwritten.fits]
    · omega

/-! ### Rounding to half-turns (R317) -/

theorem codable_p4Round (b : Byte) : Codable true (p4Round b).1 := by
  intro _
  unfold p4Round
  split
  case isTrue h =>
    rw [Bool.or_eq_true, sp8IsVoid_iff, sp8IsZero_iff] at h
    obtain rfl | rfl := h <;> rfl
  case isFalse =>
    extract_lets s t f
    have hs : s % 4 = 0 := by
      dsimp only [s]
      split <;> rfl
    split_ifs <;> simp only [sp8Mag, toNat_byte] <;> omega

/-- Table 10.5 over sign, turn and fraction. -/
theorem p4Round_byte {s t f : Nat} (hs : s < 2) (ht : t < 16) (hf : f < 8) (hnz : t ≠ 0 ∨ f ≠ 0) :
    p4Round (byte (128 * s + 8 * t + f)) =
      if f ≤ 2 then (byte (128 * s + if t = 0 then 4 else 8 * t), 0)
      else if f ≤ 6 then (byte (128 * s + 8 * t + 4), 0)
      else if t ≤ 14 then (byte (128 * s + 8 * (t + 1)), 0)
      else (byte (128 * s + 8 * 15 + 4), 1) := by
  have hb : (byte (128 * s + 8 * t + f)).toNat = 128 * s + 8 * t + f := by
    rw [toNat_byte]
    omega
  have hmag : sp8Mag (byte (128 * s + 8 * t + f)) = 8 * t + f := by
    rw [sp8Mag, hb]
    omega
  have hfraction : (8 * t + f) % 8 = f := by omega
  have hturn : turnOf (byte (128 * s + 8 * t + f)) = t := by
    rw [turnOf, hmag]
    omega
  have hsign : (if sp8Neg (byte (128 * s + 8 * t + f)) = true then 128 else 0) = 128 * s := by
    simp only [sp8Neg, hb, decide_eq_true_eq]
    split <;> omega
  have hplain : (sp8IsVoid (byte (128 * s + 8 * t + f)) || sp8IsZero (byte (128 * s + 8 * t + f))) = false := by
    rw [sp8IsVoid, sp8IsZero, hb, Bool.or_eq_false_iff, beq_eq_false_iff_ne, beq_eq_false_iff_ne]
    omega
  simp only [p4Round, hplain, hsign, hturn, hmag, hfraction, Bool.false_eq_true, if_false]

/-! ### The statement -/

/-- Settles O11: what the encoder codes is codable, in P4 because it was rounded, and each code is read back. -/
theorem p6DecodesWhatWasEncoded : Obligations.P6DecodesWhatWasEncoded := by
  unfold Obligations.P6DecodesWhatWasEncoded
  refine ⟨fun p4 es hlen => ?_, by decide, by decide, fun s t f hs ht hf hnz => ?_⟩
  · cases p4 with
    | false => exact decodeExp_encodeExp hlen fun _ _ h => absurd h (by decide)
    | true =>
      refine decodeExp_encodeExp (by rwa [if_pos rfl, List.length_map]) ?_
      rw [if_pos rfl, List.forall_mem_map]
      exact fun b _ => codable_p4Round b
  · simp only [p4Round_byte hs ht hf hnz]
    refine ⟨fun ht1 hf2 => ?_, fun ht0 hf2 => ?_, fun hf3 hf6 => ?_, fun ht14 hf7 => ?_, fun ht15 hf7 => ?_⟩
    · rw [if_pos hf2, if_neg (by omega), Nat.add_zero]
    · rw [if_pos hf2, if_pos ht0, Nat.mul_zero, Nat.add_zero]
    · rw [if_neg (by omega), if_pos hf6]
    · rw [if_neg (by omega), if_neg (by omega), if_pos ht14]
      rfl
    · rw [if_neg (by omega), if_neg (by omega), if_neg (by omega)]

end Sys2Proof.Machine
end

section
/-! PROOF of O12. Zero-mask blocks in masked and in dense form (10 R319 to R322). -/

namespace Sys2Proof.Machine

/-! ### The mask (Table 10.6) -/

/-- The number whose bit `j` is clear where `zero j`, for `j` below `n`. -/
def maskNat (zero : Nat → Bool) (n : Nat) : Nat := (List.range n).foldl (fun a j => a + (if zero j then 0 else 2 ^ j)) 0

theorem maskNat_succ (zero : Nat → Bool) (n : Nat) : maskNat zero (n + 1) = maskNat zero n + if zero n then 0 else 2 ^ n := by
  simp [maskNat, List.range_succ]

theorem maskNat_lt (zero : Nat → Bool) (n : Nat) : maskNat zero n < 2 ^ n := by
  induction n with
  | zero => exact Nat.one_pos
  | succ n ih =>
    rw [maskNat_succ, Nat.pow_succ]
    split <;> omega

theorem bit_maskNat (zero : Nat → Bool) {n i : Nat} (hi : i < n) : bit (maskNat zero n) i = !zero i := by
  rw [bit_eq_testBit]
  induction n with
  | zero => omega
  | succ n ih =>
    have hlast := Nat.testBit_lt_two_pow (maskNat_lt zero n)
    rw [maskNat_succ]
    rcases Nat.lt_succ_iff_lt_or_eq.mp hi with hlt | rfl
    · cases zero n with
      | true => exact ih hlt
      | false =>
        rw [Nat.add_comm]
        exact (Nat.testBit_two_pow_add_gt hlt _).trans (ih hlt)
    · cases hz : zero i with
      | true => exact hlast
      | false =>
        rw [Nat.add_comm]
        exact (Nat.testBit_two_pow_add_eq _ _).trans (by rw [hlast])

@[simp] theorem length_maskBytes (es : List Byte) : (maskBytes es).length = 16 := by simp [maskBytes]

theorem bit_maskBytes (es r : List Byte) {i : Nat} (hi : i < 128) :
    bit ((maskBytes es ++ r).getD (i / 8) 0).toNat (i % 8) = !sp8IsZero (es.getD i 0) := by
  have hbyte : (maskBytes es ++ r).getD (i / 8) 0 = byte (maskNat (fun j => sp8IsZero (es.getD (8 * (i / 8) + j) 0)) 8) := by
    rw [List.getD_append _ _ _ _ (by rw [length_maskBytes]; omega), List.getD_eq_getElem _ _ (by rw [length_maskBytes]; omega)]
    simp only [maskBytes, List.getElem_map, List.getElem_range]
    rfl
  have hlt : ∀ zero, maskNat zero 8 < 256 := fun zero => maskNat_lt zero 8
  rw [hbyte, toNat_byte, Nat.mod_eq_of_lt (hlt _), bit_maskNat _ (Nat.mod_lt _ (by decide)), Nat.div_add_mod]

/-- The mask read back: a bit for each element, set where it is not zero. -/
theorem maskBits_maskBytes {es : List Byte} (hlen : es.length = 128) (r : List Byte) :
    maskBits (maskBytes es ++ r) = es.map fun b => !sp8IsZero b := by
  refine List.ext_getElem (by simp [maskBits, hlen]) fun i hi _ => ?_
  have hi : i < 128 := by simpa [maskBits] using hi
  simp only [maskBits, List.getElem_map, List.getElem_range]
  rw [bit_maskBytes es r hi, List.getD_eq_getElem _ _ (by omega)]

/-- The bits of the mask in element order are those of its bytes, each read from its least significant bit. -/
theorem maskBits_eq_flatMap {m : List Byte} (hlen : 16 ≤ m.length) :
    maskBits m = (m.take 16).flatMap fun b => (byteBits b).reverse := by
  have htake : m.take 16 = (List.range 16).map fun q => m.getD q 0 := by
    refine List.ext_getElem (by simp [hlen]) fun q hq _ => ?_
    have hq : q < m.length := by
      rw [List.length_take] at hq
      omega
    simp [hq]
  rw [htake, List.flatMap_map]
  rfl

/-- Counting the set bits does not depend on their order. -/
theorem maskCount_eq_countP {m : List Byte} (hlen : 16 ≤ m.length) : maskCount m = (maskBits m).countP id := by
  rw [maskBits_eq_flatMap hlen, maskCount, List.countP_flatMap, List.countP_flatMap]
  congr 2
  funext b
  exact (List.countP_reverse ..).symm

theorem maskCount_maskBytes {es : List Byte} (hlen : es.length = 128) (r : List Byte) :
    maskCount (maskBytes es ++ r) = (es.filter fun b => !sp8IsZero b).length := by
  rw [maskCount_eq_countP (by simp), maskBits_maskBytes hlen, List.countP_map, List.countP_eq_length_filter]
  rfl

/-- The values that are not zero, spread over the mask, are the elements again. -/
theorem spreadMask_map_filter (es r : List Byte) :
    spreadMask (es.map fun b => !sp8IsZero b) ((es.filter fun b => !sp8IsZero b) ++ r) = es := by
  induction es with
  | nil => rfl
  | cons b es ih =>
    cases hb : sp8IsZero b with
    | true =>
      rw [List.filter_cons_of_neg (by simp [hb]), List.map_cons, hb, (sp8IsZero_iff b).mp hb]
      exact congrArg _ ih
    | false =>
      rw [List.filter_cons_of_pos (by simp [hb]), List.map_cons, hb]
      exact congrArg _ ih

/-! ### A masked block (R319, R322) -/

/-- A masked block whose padding is zeros decodes to its elements. -/
theorem decodeZm_masked {es : List Byte} (hlen : es.length = 128) (hfew : (es.filter fun b => !sp8IsZero b).length ≤ 112)
    (n : Nat) : decodeZm (maskBytes es ++ (es.filter fun b => !sp8IsZero b) ++ List.replicate n 0) = .ok es := by
  set vs := es.filter fun b => !sp8IsZero b
  have hvalues : (maskBytes es ++ (vs ++ List.replicate n 0)).drop 16 = vs ++ List.replicate n 0 :=
    List.drop_left' (length_maskBytes es)
  have hpadding : (maskBytes es ++ (vs ++ List.replicate n 0)).drop (16 + vs.length) = List.replicate n 0 := by
    rw [← List.drop_drop, hvalues, List.drop_left]
  have hzeros : (List.replicate n (0 : Byte)).any (· ≠ 0) = false := by simp
  rw [List.append_assoc, decodeZm, maskCount_maskBytes hlen, if_neg (not_lt.mpr hfew), hpadding, hzeros, if_neg (by decide),
    maskBits_maskBytes hlen, hvalues, spreadMask_map_filter]

/-! ### The statement -/

theorem le_32_mul_cdiv (n : Nat) : n ≤ 32 * cdiv n 32 := by
  rw [cdiv]
  omega

/-- Settles O12: the form follows from the number of elements that are not zero. -/
theorem zeroMaskIsLossless : Obligations.ZeroMaskIsLossless := by
  unfold Obligations.ZeroMaskIsLossless
  intro es hlen
  unfold encodeZm
  extract_lets vs body
  by_cases hfew : vs.length ≤ 112
  · rw [if_pos hfew]
    have hbody : body.length = 16 + vs.length := by rw [List.length_append, length_maskBytes]
    have hused : zmUsedWords (body ++ List.replicate (32 * cdiv body.length 32 - body.length) 0) = cdiv body.length 32 := by
      rw [zmUsedWords, List.append_assoc, maskCount_maskBytes hlen, min_eq_left hfew, hbody]
    refine ⟨fun h => absurd h Bool.false_ne_true, fun _ => ⟨decodeZm_masked hlen hfew _, ?_⟩⟩
    rw [hused, List.length_append, List.length_replicate, Nat.add_sub_cancel' (le_32_mul_cdiv _)]
  · rw [if_neg hfew]
    exact ⟨fun _ => ⟨rfl, not_le.mp hfew⟩, fun h => absurd h.symm Bool.false_ne_true⟩

end Sys2Proof.Machine
end

section
/-! PROOF of O13. The order in which a block's faults are reported (10 R323, R326, R328). -/

namespace Sys2Proof.Machine

/-! ### The tags of a block's words (R323, R326) -/

/-- A block's outcome once the FORMATs of its words have been looked at, which comes last (R328). -/
def withTags (f : Nat) (ws : List WordRead) : Except PackFault (List Byte) → Except PackFault (List Byte)
  | .ok es => if ws.all fun w => w.format == f then .ok es else .error .format
  | .error e => .error e

section
variable {f : Nat} {ws : List WordRead}

theorem withTags_of_agree (htags : (ws.all fun w => w.format == f) = true) {es : List Byte} :
    withTags f ws (.ok es) = .ok es := if_pos htags

theorem withTags_of_disagree (htags : ¬ (ws.all fun w => w.format == f) = true) {es : List Byte} :
    withTags f ws (.ok es) = .error .format := if_neg htags

/-- A fault of the content comes before any of the tags. -/
theorem withTags_ite_error (p : Prop) [Decidable p] (e : PackFault) (r : Except PackFault (List Byte)) :
    withTags f ws (if p then .error e else r) = if p then .error e else withTags f ws r := by
  split <;> rfl
end

/-! ### P6 and P4 blocks -/

theorem decodeBlock_exp (p4 : Bool) (ws : List WordRead) : decodeBlock (if p4 = true then 7 else 6) ws =
    withTags (if p4 = true then 2 else 1) ws (decodeExp p4 (ws.flatMap (·.data))) := by
  cases p4 <;> rfl

section
variable {p4 : Bool} {ws : List WordRead} {blk : List Byte} (hblk : (ws.flatMap fun w => w.data) = blk)
include hblk

theorem decodeBlock_of_overrun (hcodes : bit (blk.headD 0).toNat 4 = false)
    (hnone : decodeElems p4 ((blk.headD 0).toNat % 16) 128 ((blk.drop 1).flatMap byteBits) = none) :
    decodeBlock (if p4 = true then 7 else 6) ws = .error .overrun := by
  subst hblk
  rw [decodeBlock_exp, decodeExp_of_overrun hcodes hnone]
  rfl

/-- A block with codes: padding, then format. -/
theorem decodeBlock_of_elems (hcodes : bit (blk.headD 0).toNat 4 = false) {es : List (Option Byte)} {r : List Bool}
    (hsome : decodeElems p4 ((blk.headD 0).toNat % 16) 128 ((blk.drop 1).flatMap byteBits) = some (es, r)) :
    decodeBlock (if p4 = true then 7 else 6) ws =
      if r.any id = true then .error .padding
      else if (blk.headD 0).toNat / 32 ≠ 0 ∨ es.any Option.isNone = true then .error .format
      else withTags (if p4 = true then 2 else 1) ws (.ok (es.map (·.getD 0))) := by
  subst hblk
  rw [decodeBlock_exp, decodeExp_of_elems hcodes hsome, withTags_ite_error, withTags_ite_error]

/-- A block marked wholly void: padding, then format. -/
theorem decodeBlock_of_bvoid (hvoid : bit (blk.headD 0).toNat 4 = true) : decodeBlock (if p4 = true then 7 else 6) ws =
      if (blk.headD 0).toNat % 16 ≠ 0 ∨ ((blk.drop 1).flatMap byteBits).any id = true then .error .padding
      else if (blk.headD 0).toNat / 32 ≠ 0 then .error .format
      else withTags (if p4 = true then 2 else 1) ws (.ok (List.replicate 128 0x80#8)) := by
  subst hblk
  rw [decodeBlock_exp, decodeExp_of_bvoid hvoid, withTags_ite_error, withTags_ite_error]
end

/-! ### Zero-mask blocks -/

section
variable {w : WordRead} (ws : List WordRead)

/-- A masked block: overrun, then padding, then format. -/
theorem decodeBlock_masked (hmasked : w.format = 3) {blk : List Byte} (hblk : ((w :: ws).flatMap fun v => v.data) = blk) :
    decodeBlock 8 (w :: ws) =
      if 112 < maskCount blk then .error .overrun
      else if (blk.drop (16 + maskCount blk)).any (· ≠ 0) = true then .error .padding
      else withTags w.format (w :: ws) (.ok (spreadMask (maskBits blk) (blk.drop 16))) := by
  have hform : decodeBlock 8 (w :: ws) = withTags w.format (w :: ws) (decodeZm blk) := by
    simp only [decodeBlock, if_true, List.head?_cons, Option.map_some, hmasked, hblk]
    rfl
  rw [hform, decodeZm, withTags_ite_error, withTags_ite_error]

theorem decodeBlock_dense (hdense : w.format = 0) :
    decodeBlock 8 (w :: ws) = withTags w.format (w :: ws) (.ok ((w :: ws).flatMap (·.data))) := by
  simp only [decodeBlock, if_true, List.head?_cons, Option.map_some, hdense]
  rfl

theorem decodeBlock_unformed (h3 : w.format ≠ 3) (h0 : w.format ≠ 0) : decodeBlock 8 (w :: ws) = .error .format := by
  simp only [decodeBlock, if_true, List.head?_cons, Option.map_some]
  split
  case h_1 h => exact absurd (Option.some.inj h) h3
  case h_2 h => exact absurd (Option.some.inj h) h0
  case h_3 => rfl
end

/-! ### The statement -/

/-- Settles O13: each form is decoded by a chain of tests in the order of R328, and each clause says where the chain ends. -/
theorem faultClassesInOrder : Obligations.FaultClassesInOrder := by
  unfold Obligations.FaultClassesInOrder
  refine ⟨fun p4 ws => ⟨fun hcodes => ⟨decodeBlock_of_overrun rfl hcodes, fun es r hsome => ?_⟩, fun hvoid => ?_⟩,
    fun w ws => ⟨fun hmasked => ?_, decodeBlock_dense ws, decodeBlock_unformed ws⟩⟩
  · have hchain := decodeBlock_of_elems rfl hcodes hsome
    refine ⟨fun hpadding => hchain.trans (if_pos hpadding), fun hpadding hunclean => ?_,
      fun hpadding ⟨hreserved, hturns, htags⟩ => ?_⟩
    · refine hchain.trans ((if_neg (ne_true_of_eq_false hpadding)).trans (ite_eq_left_iff.mpr fun hsound =>
        withTags_of_disagree fun htags => ?_))
      obtain ⟨hreserved, hturns⟩ := not_or.mp hsound
      exact hunclean ⟨not_not.mp hreserved, Bool.eq_false_of_not_eq_true hturns, htags⟩
    · have hsound := not_or.mpr ⟨not_not.mpr hreserved, ne_true_of_eq_false hturns⟩
      exact hchain.trans ((if_neg (ne_true_of_eq_false hpadding)).trans ((if_neg hsound).trans (withTags_of_agree htags)))
  · have hchain := decodeBlock_of_bvoid (p4 := p4) rfl hvoid
    refine ⟨fun hdirty => hchain.trans (if_pos hdirty), fun hsound hformat => ?_, fun hsound hreserved htags => ?_⟩
    · exact hchain.trans ((if_neg hsound).trans (ite_eq_left_iff.mpr fun hreserved =>
        withTags_of_disagree (ne_true_of_eq_false (hformat.resolve_left hreserved))))
    · exact hchain.trans ((if_neg hsound).trans ((if_neg (not_not.mpr hreserved)).trans (withTags_of_agree htags)))
  · have hchain := decodeBlock_masked ws hmasked rfl
    refine ⟨fun hover => hchain.trans (if_pos hover), fun hfits hpadding => ?_, fun hfits hpadding htags => ?_,
      fun hfits hpadding htags => ?_⟩
    all_goals refine hchain.trans ((if_neg (not_lt.mpr hfits)).trans ?_)
    · exact if_pos hpadding
    · exact (if_neg (ne_true_of_eq_false hpadding)).trans (withTags_of_disagree (ne_true_of_eq_false htags))
    · exact (if_neg (ne_true_of_eq_false hpadding)).trans (withTags_of_agree htags)

end Sys2Proof.Machine
end

section
/-! PROOF of O18. The HBM map (11 R335): the two chunks of a row are numbered v and v + 1, and the pseudo-channel folds higher bits
of a chunk's number into its low five, so that the same fold gives those back. -/

namespace Sys2Proof.Machine

/-- Pseudo-channel of chunk `u` in its stack. -/
def foldedChannel (u : Nat) : Nat := bits u 4 0 ^^^ bits u 9 5 ^^^ bits u 14 10

theorem foldedChannel_lt (u : Nat) : foldedChannel u < 32 :=
  Nat.xor_lt_two_pow (n := 5) (Nat.xor_lt_two_pow (bits_lt u 4 0) (bits_lt u 9 5)) (bits_lt u 14 10)

/-- The fold of the chunk's high bits takes its low five out of the pseudo-channel again. -/
theorem unfold_foldedChannel (u : Nat) :
    foldedChannel u ^^^ bits (u / 32) 4 0 ^^^ bits (u / 32) 9 5 = u % 32 := by
  have hmid : bits (u / 32) 4 0 = bits u 9 5 := by simp [bits]
  have hhigh : bits (u / 32) 9 5 = bits u 14 10 := by
    simp only [bits]
    omega
  have hlow : bits u 4 0 = u % 32 := by simp [bits]
  rw [foldedChannel, hmid, hhigh, hlow, Nat.xor_right_comm, Nat.xor_xor_cancel_right, Nat.xor_xor_cancel_right]

/-- An HBM address is byte `o` of stack `k`. -/
theorem hbm_split {a : Nat} (ha : a < hbmEnd) :
    ∃ k < 2, ∃ o < 0x000600000000, a = k * 0x000600000000 + o ∧
      hbmPlace a = (32 * k + foldedChannel (o / 512), o / 512 / 32 / 2 % 48, o / 512 / 32 / 96) := by
  simp only [hbmEnd] at ha
  by_cases hstack : 0x000600000000 ≤ a
  · refine ⟨1, by omega, a - 0x000600000000, by omega, by omega, ?_⟩
    simp only [hbmPlace, if_pos hstack, foldedChannel, Nat.one_mul]
  · refine ⟨0, by omega, a, by omega, by omega, ?_⟩
    simp only [hbmPlace, if_neg hstack, foldedChannel, Nat.zero_mul, Nat.sub_zero]

/-- Chunk `h` of a row, at the pseudo-channel `low` that the map gives its number back. -/
theorem mem_rowChunks {pc bk row a : Nat} (h : Nat) (hh : h < 2)
    (ha : a = pc / 32 * 0x000600000000 + ((2 * (row * 48 + bk) + h) * 32 +
      (pc % 32 ^^^ bits (2 * (row * 48 + bk) + h) 4 0 ^^^ bits (2 * (row * 48 + bk) + h) 9 5)) * 512) :
    a ∈ rowChunks pc bk row :=
  List.mem_map.mpr ⟨h, List.mem_range.mpr hh, ha.symm⟩

/-- The two chunks of a row differ in the bit above the folded ones. -/
theorem rowChunks_nodup (pc bk row : Nat) : (rowChunks pc bk row).Nodup := by
  refine List.Nodup.map_on (fun h _ h' _ heq => ?_) List.nodup_range
  have hlow (v : Nat) : pc % 32 ^^^ bits v 4 0 ^^^ bits v 9 5 < 32 :=
    Nat.xor_lt_two_pow (n := 5) (Nat.xor_lt_two_pow (Nat.mod_lt _ (by decide)) (bits_lt v 4 0)) (bits_lt v 9 5)
  have hfirst := hlow (2 * (row * 48 + bk) + h)
  have hsecond := hlow (2 * (row * 48 + bk) + h')
  dsimp only at heq
  omega

/-- Settles O18: the chunk of the address is the one whose parity its number has. -/
theorem hbmMapIsOneToOne : Obligations.HbmMapIsOneToOne := by
  intro a ha
  obtain ⟨k, hk, o, ho, rfl, hplace⟩ := hbm_split ha
  have hfold := foldedChannel_lt (o / 512)
  rw [hplace]
  dsimp only
  refine ⟨by omega, by omega, by omega, ?_, rowChunks_nodup _ _ _⟩
  have hv : 2 * (o / 512 / 32 / 96 * 48 + o / 512 / 32 / 2 % 48) + o / 512 / 32 % 2 = o / 512 / 32 := by omega
  have hpc : (32 * k + foldedChannel (o / 512)) % 32 = foldedChannel (o / 512) := by omega
  refine mem_rowChunks (o / 512 / 32 % 2) (by omega) ?_
  rw [hv, hpc, unfold_foldedChannel]
  omega

end Sys2Proof.Machine
end

section
/-! REFUTATION of O57. The clause of the array self-test is made of every ready state in which the wake comes to its end, also of one
in which a tile has three retired columns. Such a tile serves 255 columns, so a cell reported in its active column 255 lies in none
that was built, and the device takes it to lie in a column that is retired already: it retires no row (03 R105; 17 R499, R500). The
device retires at most two columns of a tile; the statement says that of the rows alone. -/

namespace Sys2Proof.Machine

/-- The device at the last step of its wake, with a secure association on its first port, and physical tile 0 as `narrowTile`. -/
def narrowedWake : State :=
  { State.reset with
    ctl := { State.reset.ctl.setTile 0 narrowTile with
      power := { State.reset.ctl.power with stage := .link }
      proto := { State.reset.ctl.proto with sa := [true, false] } } }

theorem narrowedWake_may_accept :
    narrowedWake.ctl.proto.sa.any id = true ∧ narrowedWake.ctl.power.target ≠ 2 ∧ narrowedWake.ctl.inService = 16 ∧
      narrowedWake.ctl.physical 0 = some 0 := by
  decide +kernel

/-- The self-test's failing cell in column 255 retires no row. -/
theorem narrowedWake_retires_no_row :
    ((narrowedWake.run (acceptCommands true [] [(0, 0, 255)])).ctl.tile 0).retRows = [] := by
  decide +kernel

/-- Refutes O57: in `narrowedWake`, whose tile 0 has no retired row, a failing cell in row 0 and column 255 should retire row 0, and
retires none. -/
theorem not_wakeGoesStepByStep : ¬ Obligations.WakeGoesStepByStep := by
  intro h
  obtain ⟨hsa, htarget, hserve, hphysical⟩ := narrowedWake_may_accept
  obtain ⟨-, -, -, -, -, haccept, -⟩ := h narrowedWake ⟨rfl, rfl⟩
  obtain ⟨-, hcell, -⟩ := haccept [] rfl hsa htarget rfl hserve
  obtain ⟨_, hrun, htile⟩ := hcell 0 0 0 255 rfl rfl hphysical (by decide) (by decide) (by decide)
  obtain rfl := Host.Outcome.next.inj hrun
  have hrows := narrowedWake_retires_no_row.symm.trans (congrArg Tile.retRows htile)
  exact absurd hrows (by simp [narrowedWake, narrowTile, Ctl.setTile, Ctl.tile, Tile.factory, State.reset, Ctl.reset])

end Sys2Proof.Machine
end

section
/-! PROOF of O27. Bundle transfers: BUNDLE_BEGIN reserves blocks, BUNDLE_DATA programs them, and an idle transfer is abandoned (11 R360,
R361, R363; 13 R423). -/

namespace Sys2Proof.Machine

/-! ### What serving a bundle request leaves -/

/-- What a bundle request changes by itself alone: the bundles, the transfers, the next number, and the writes that wait. -/
def Ctl.holdings (c : Ctl) : List Bundle × List BundleXfer × Nat × List Wr :=
  (c.store.bundles, c.store.transfers, c.store.nextBundle, c.wq)

/-- From `a` to `b` packets join, and bundles, transfers and waiting writes stay. -/
structure Ctl.Installs (a b : Ctl) : Prop extends a.Unwinds b where
  holdings : b.holdings = a.holdings

namespace Ctl.Installs

theorem refl (a : Ctl) : a.Installs a := ⟨.refl a, rfl⟩

theorem trans {a b c : Ctl} (h : a.Installs b) (h' : b.Installs c) : a.Installs c :=
  ⟨h.toUnwinds.trans h'.toUnwinds, h'.holdings.trans h.holdings⟩

variable {a c : Ctl} (h : a.Installs c)
include h

theorem of_unwinds {d : Ctl} (hunwinds : a.Unwinds d) (hstore : d.store = c.store) (hwq : d.wq = c.wq) : a.Installs d := by
  refine ⟨hunwinds, Eq.trans ?_ h.holdings⟩
  rw [Ctl.holdings, Ctl.holdings, hstore, hwq]

theorem of_eq {d : Ctl} (hplane : d.plane = c.plane) (hpost : d.post = c.post) (hstore : d.store = c.store) (hwq : d.wq = c.wq) :
    a.Installs d := h.of_unwinds (h.toUnwinds.of_eq hplane hpost) hstore hwq

theorem ite {p : Prop} [Decidable p] {d : Ctl} (h' : a.Installs d) : a.Installs (if p then c else d) := by
  split
  · exact h
  · exact h'

theorem foldl {α : Type} {f : Ctl → α → Ctl} (hf : ∀ (c : Ctl) x, a.Installs c → a.Installs (f c x)) (l : List α) :
    a.Installs (l.foldl f c) := by
  induction l generalizing c with
  | nil => exact h
  | cons x l ih => exact ih (hf c x h)

/-- A change of the store that leaves bundles and transfers. -/
theorem withStore {f : Store → Store} (hf : ∀ s, (f s).bundles = s.bundles ∧ (f s).transfers = s.transfers ∧ (f s).nextBundle = s.nextBundle) :
    a.Installs (c.withStore f) := by
  obtain ⟨hbundles, htransfers, hnext⟩ := hf c.store
  refine ⟨h.toUnwinds.withStore f, Eq.trans ?_ h.holdings⟩
  simp [Ctl.holdings, hbundles, htransfers, hnext]

theorem accept (g : Gate) (r : Req) : a.Installs (accept g r c) := h.of_unwinds (h.toUnwinds.accept g r) (accept_store ..) (accept_wq ..)
theorem count (k : Cnt) (i n : Nat) : a.Installs (count k i n c) := h.of_unwinds (h.toUnwinds.count k i n) (count_store ..) (count_wq ..)
theorem serviceEvent (kind block inst value : Nat) : a.Installs (serviceEvent kind block inst value c) :=
  h.of_unwinds (h.toUnwinds.serviceEvent ..) (serviceEvent_store ..) (serviceEvent_wq ..)

theorem wearEvent (code block inst value : Nat) : a.Installs (wearEvent code block inst value c) := by
  unfold Machine.wearEvent
  have hnoted : a.Installs { c with proto := { c.proto with wearSent := c.proto.wearSent ++ [code] } } := h.of_eq rfl rfl rfl rfl
  exact h.ite ((hnoted.serviceEvent ..).ite (hnoted.of_eq rfl rfl rfl rfl))

theorem pushPacket (port type : Nat) (pk : XwPacket) : a.Installs (pushPacket port type pk c) :=
  have hpushed := pushPacket_unported port type pk c
  h.of_unwinds (h.toUnwinds.pushPacket ..) (congrArg Ctl.store hpushed :) (congrArg Ctl.wq hpushed :)

/-- The lead tells the other members of its group (R438). -/
theorem relayConfig (code jobNo : Nat) (payload : List Byte) (number : Nat) :
    a.Installs (relayConfig code jobNo payload c number) := by
  refine h.foldl (fun _ _ hd => ?_) _
  unfold sendConfig
  dsimp only
  split
  · exact hd
  · exact hd.pushPacket ..

/-- A place takes a block of least wear (R360). -/
theorem takeBlock (mine : List Nat) (p : Nat) : a.Installs (takeBlock mine c p) := by
  unfold Machine.takeBlock
  dsimp only
  split
  · exact h
  · split
    · exact h
    · split
      · exact h
      · split
        · exact h
        · exact h.withStore fun _ => ⟨rfl, rfl, rfl⟩

/-- A block that fails is retired (R363). -/
theorem retireBlock (key : Nat) : a.Installs (retireBlock key c) := by
  unfold Machine.retireBlock
  extract_lets ch stack spare served retired left counted
  have hretired : a.Installs retired := h.withStore fun _ => ⟨rfl, rfl, rfl⟩
  have hcounted : a.Installs counted := (hretired.count ..).serviceEvent ..
  exact hcounted.foldl (fun _ _ hd => (hd.wearEvent ..).ite hd) _

end Ctl.Installs

theorem Ctl.Installs.parts {a b : Ctl} (h : a.Installs b) : b.store.bundles = a.store.bundles ∧ b.store.transfers = a.store.transfers ∧
    b.store.nextBundle = a.store.nextBundle ∧ b.wq = a.wq := by
  simpa [Ctl.holdings] using h.holdings

/-- The lead relays what it has served. -/
def relayed (code : Nat) (payload : List Byte) (c : Ctl) : Ctl := if c.isLead then relayConfig code 0 payload c else c

theorem Ctl.Installs.relayed {a c : Ctl} (h : a.Installs c) (code : Nat) (payload : List Byte) : a.Installs (relayed code payload c) :=
  (h.relayConfig ..).ite h

/-! ### The bytes of the flash -/

/-- A range that is given up for programming reads as zero, its parity with it, and no other byte changes (R352). -/
theorem Mem.byteAt_apply_clearFlash (m : Mem) (base n a : Nat) : (m.apply (m.clearFlash base n)).byteAt a =
    if base ≤ a ∧ a < base + n ∨ (parityRange base n).1 ≤ a ∧ a < (parityRange base n).1 + (parityRange base n).2 then 0
    else m.byteAt a := by
  have hdata (lo hi : Nat) (v : Byte) : Wr.data a v ∈ m.zeroFill lo hi ↔ (lo ≤ a ∧ a < hi) ∧ v = 0 ∧ ∃ b, (a, b) ∈ m.bytes := by
    by_cases ha : lo ≤ a ∧ a < hi
    · rw [Mem.zeroFill, Mem.data_mem_eraseWrites m (by simp [ha])]
      simp [ha]
    · simp [Mem.zeroFill, Mem.eraseWrites]
      grind
  have hclear (v : Byte) : Wr.data a v ∈ m.clearFlash base n ↔
      ((base ≤ a ∧ a < base + n) ∨ ((parityRange base n).1 ≤ a ∧ a < (parityRange base n).1 + (parityRange base n).2)) ∧
        v = 0 ∧ ∃ b, (a, b) ∈ m.bytes := by
    rw [Mem.clearFlash, List.mem_append, hdata, hdata, or_and_right]
  split
  · rename_i hin
    refine Mem.byteAt_apply_zero (fun v hv => ((hclear v).mp hv).2.1) ?_
    by_cases hl : ∃ b, (a, b) ∈ m.bytes
    · exact .inr ((hclear 0).mpr ⟨hin, rfl, hl⟩)
    · exact .inl (SMap.get_of_unlisted 0 (not_exists.mp hl))
  · rename_i hout
    exact Mem.byteAt_apply fun v hv => hout ((hclear v).mp hv).1

/-- Writes of tags alone move no byte. -/
theorem Mem.byteAt_apply_tags {ws : List Wr} (h : ∀ w ∈ ws, ∃ k v, w = Wr.tag k v) (m : Mem) (a : Nat) :
    (m.apply ws).byteAt a = m.byteAt a :=
  Mem.byteAt_apply fun v hv => by
    obtain ⟨k, t, heq⟩ := h _ hv
    cases heq

theorem Mem.byteAt_apply_program (m : Mem) (a : Nat) (f : Nat → Byte) {tags : Nat → List Wr}
    (htags : ∀ i, ∀ w ∈ tags i, ∃ k v, w = Wr.tag k v) (n b : Nat) :
    (m.apply ((List.range n).flatMap fun i => Wr.data (a + i) (f i) :: tags i)).byteAt b =
      if a ≤ b ∧ b < a + n then f (b - a) else m.byteAt b := by
  induction n with
  | zero => rw [if_neg (by omega)]; rfl
  | succ n ih =>
    rw [List.range_succ, List.flatMap_append, Mem.apply_append, List.flatMap_singleton, Mem.apply_cons,
      Mem.byteAt_apply_tags (htags n), Mem.byteAt_write1]
    dsimp only
    rw [ih]
    by_cases hb : b = a + n
    · subst hb
      rw [if_pos rfl, if_pos (by omega), Nat.add_sub_cancel_left]
    · rw [if_neg hb]
      exact if_congr (by omega) rfl rfl

/-- Data that is programmed reads as it was sent. -/
theorem Mem.byteAt_apply_programWrites (m : Mem) (a : Nat) (data : List Byte) (b : Nat) :
    (m.apply (programWrites a data)).byteAt b = if a ≤ b ∧ b < a + data.length then data.getD (b - a) 0 else m.byteAt b := by
  refine Mem.byteAt_apply_program m a (fun i => data.getD i 0) (fun i w hw => ?_) data.length b
  split at hw
  · exact ⟨_, _, List.mem_singleton.mp hw⟩
  · cases hw

/-! ### BUNDLE_BEGIN -/

def beginGate (c : Ctl) (r : Req) : Gate :=
  { plainGate 0x30 (bundleRow (r.u8 0)) (r.len == 76) (r.zeros 1 3) with mode := leeBars c }

/-- What fits before a request is accepted still fits after. -/
theorem flashFits_accept (g : Gate) (r : Req) (c : Ctl) (size : Nat) : flashFits (accept g r c) size = flashFits c size := by
  have hlimit : (accept g r c).param 0x0B88 = c.param 0x0B88 := by rw [Ctl.param, Ctl.param, accept_params]
  have hcapacity : readParam (accept g r c) 0x0B86 = readParam c 0x0B86 := by simp [readParam, liveParam]
  have hheld : heldRanges (accept g r c) = heldRanges c := by rw [heldRanges, heldRanges, accept_store]
  have hplaces : placeOf (accept g r c) = placeOf c := by
    funext k
    unfold placeOf Ctl.blockOf
    rw [accept_store]
  have herased : erasedBlocks (accept g r c) = erasedBlocks c := by
    funext ch
    simp only [erasedBlocks, heldPlaces, hheld, hplaces, accept_store]
  rw [flashFits, flashFits, hlimit, hcapacity, herased, hheld]

theorem freeAperture_accept (g : Gate) (r : Req) (c : Ctl) (size : Nat) : freeAperture (accept g r c) size = freeAperture c size := by
  simp only [freeAperture, heldRanges, accept_store]

/-- The transfer that a BUNDLE_BEGIN opens. -/
def openInstall (r : Req) (base : Nat) (c : Ctl) : BundleXfer where
  no := c.store.nextBundle
  kind := r.u8 0
  size := r.be 4 8
  digest := slice r.payload 12 64
  base := base
  received := 0
  data := []
  staged := false
  signer := 0
  svn := 0
  at' := c.clk.ns

/-- The transfer joins the others, under the next number. -/
def joinInstall (t : BundleXfer) (c : Ctl) : Ctl :=
  c.withStore fun s => { s with transfers := s.transfers ++ [t], nextBundle := max s.nextBundle (t.no + 1) }

/-- The writes of a BUNDLE_BEGIN: a model bundle's range is given up for programming. -/
def beginWrites (r : Req) (base : Nat) (m : Mem) : List Wr :=
  if r.u8 0 = 0 then m.clearFlash base (alignUp (r.be 4 8) 0x200000) else []

theorem emit_nil (c : Ctl) : emit [] c = c := by simp [emit]

/-- A served BUNDLE_BEGIN that fits joins its transfer to the others, behind its writes. -/
theorem beginBundle_of_fits {s : State} {r : Req} {base : Nat} (hkind : r.u8 0 < 2)
    (himage : r.u8 0 = 1 → r.be 4 8 ≤ 0x8000000 ∧ base = 0)
    (hmodel : r.u8 0 = 0 → flashFits s.ctl (r.be 4 8) = true ∧ freeAperture s.ctl (r.be 4 8) = some base)
    (hserved : served (beginGate s.ctl r) r s.ctl) : ∃ d : Ctl, s.ctl.Installs d ∧
      beginBundle r s.mem s.ctl = answer r 0x30 .ok (toBe 4 s.ctl.store.nextBundle)
        (relayed 0x30 (r.payload ++ toBe 4 s.ctl.store.nextBundle)
          (joinInstall (openInstall r base s.ctl) (emit (beginWrites r base s.mem) d))) := by
  have haccepted : s.ctl.Installs (accept (beginGate s.ctl r) r s.ctl) := (Ctl.Installs.refl s.ctl).accept _ r
  have hgate := gate_of_passes (fun c => if 2 ≤ r.u8 0 then answer r 0x30 .badValue [] c else
    match startBundle c.store.nextBundle (r.u8 0) (r.be 4 8) (slice r.payload 12 64) s.mem c with
    | none => answer r 0x30 .noResource [] c
    | some d => answer r 0x30 .ok (toBe 4 c.store.nextBundle) (relayed 0x30 (r.payload ++ toBe 4 c.store.nextBundle) d)) hserved
  rw [if_neg (not_le.mpr hkind), accept_store] at hgate
  obtain hzero | hone : r.u8 0 = 0 ∨ r.u8 0 = 1 := by omega
  · obtain ⟨hfits, hfree⟩ := hmodel hzero
    refine ⟨_, haccepted.foldl (fun _ p hd => hd.takeBlock (bundleBlocks base (r.be 4 8)) p) (bundleBlocks base (r.be 4 8)), hgate.trans ?_⟩
    simp [startBundle, hzero, flashFits_accept, freeAperture_accept, hfits, hfree, joinInstall, openInstall, beginWrites]
  · obtain ⟨hfits, rfl⟩ := himage hone
    refine ⟨_, haccepted, hgate.trans ?_⟩
    simp [startBundle, hone, hfits, joinInstall, openInstall, beginWrites, emit_nil]

/-! ### BUNDLE_DATA -/

def dataGate (c : Ctl) (r : Req) : Gate :=
  { plainGate 0x31 (bundleRow (xferKind c (r.be 0 4))) (12 < r.len && r.len ≤ 12 + 1376) true with mode := leeBars c }

/-- A transfer takes new data. -/
def takenData (x : BundleXfer) (data : List Byte) (now : Nat) : BundleXfer :=
  { x with received := x.received + data.length, data := if x.kind = 1 then x.data ++ data else [], at' := now }

/-- New data of transfer `x`, which has number `no`, is programmed and counted in. -/
def takeIn (no : Nat) (x : BundleXfer) (data : List Byte) (c : Ctl) : Ctl :=
  (emit (if x.kind = 0 then programWrites (x.base + x.received) data else []) c).withStore fun s =>
    { s with transfers := s.transfers.map fun y => if y.no = no then takenData x data c.clk.ns else y }

/-- Data in sequence is taken in; the blocks that fail at it are retired. -/
theorem takeData_next {no off : Nat} {data : List Byte} {failing : List Nat} {c : Ctl} {x : BundleXfer}
    (hx : c.store.transfers.find? (fun t => t.no = no && !t.staged) = some x) (hoff : off = x.received) (hfits : off + data.length ≤ x.size) :
    ∃ d, (takeIn no x data c).Installs d ∧ takeData no off data failing c = (.ok, true, d) := by
  subst hoff
  unfold takeData
  rw [hx]
  dsimp only
  have hsequence : ¬(x.received < x.received ∨ x.size < x.received + data.length) := by omega
  rw [if_neg (lt_irrefl _), if_neg hsequence]
  refine ⟨_, ?_, rfl⟩
  have hemit : (if x.kind = 0 then emit (programWrites (x.base + x.received) data) c else c) =
      emit (if x.kind = 0 then programWrites (x.base + x.received) data else []) c := by
    split
    · rfl
    · rw [emit_nil]
  rw [hemit]
  exact (Ctl.Installs.refl _).foldl (fun _ k hd => hd.retireBlock k) _

/-- A served BUNDLE_DATA in sequence. -/
theorem bundleDataIn_next {s : State} {r : Req} {failing : List Nat} {x : BundleXfer}
    (hx : s.ctl.store.transfers.find? (fun t => t.no = r.be 0 4 && !t.staged) = some x) (hoff : r.be 4 8 = x.received)
    (hfits : r.be 4 8 + (r.len - 12) ≤ x.size) (hserved : served (dataGate s.ctl r) r s.ctl) : ∃ d e : Ctl,
      s.ctl.Installs d ∧ (takeIn (r.be 0 4) x (r.payload.drop 12) d).Installs e ∧
      bundleDataIn r failing s.mem s.ctl = answer r 0x31 .ok [] (relayed 0x31 r.payload e) := by
  have hdata : (r.payload.drop 12).length = r.len - 12 := List.length_drop ..
  have hserved' : served ((dataGate s.ctl r).asking (.bundleData r failing)) r s.ctl := hserved
  have hfound : (accept ((dataGate s.ctl r).asking (.bundleData r failing)) r s.ctl).store.transfers.find?
      (fun t => t.no = r.be 0 4 && !t.staged) = some x := by rw [accept_store, hx]
  obtain ⟨d, hd, htake⟩ := takeData_next (failing := failing) hfound hoff (hdata ▸ hfits)
  refine ⟨_, d, (Ctl.Installs.refl s.ctl).accept _ r, hd, (gate_of_passes _ hserved').trans ?_⟩
  simp only [htake, true_and]
  rfl

/-! ### The clauses -/

theorem State.run_holdings (f : Mem → Ctl → Ctl) (s : State) : (s.run f).ctl.store.bundles = (f s.mem s.ctl).store.bundles ∧
    (s.run f).ctl.store.transfers = (f s.mem s.ctl).store.transfers ∧
    (s.run f).ctl.store.nextBundle = (f s.mem s.ctl).store.nextBundle := by
  rw [State.run_store]
  exact ⟨rfl, rfl, rfl⟩

/-- A BUNDLE_BEGIN that fits. -/
theorem completes_bundleBegin {s : State} {r : Req} {base : Nat} (hs : s.ready) (hkind : r.u8 0 < 2)
    (himage : r.u8 0 = 1 → r.be 4 8 ≤ 0x8000000 ∧ base = 0)
    (hmodel : r.u8 0 = 0 → flashFits s.ctl (r.be 4 8) = true ∧ freeAperture s.ctl (r.be 4 8) = some base)
    (hserved : served (beginGate s.ctl r) r s.ctl) :
    completes (.bundleBegin r) s fun t => replies s t r 0x30 .ok [toBe 4 s.ctl.store.nextBundle] ∧
      t.ctl.store.nextBundle = s.ctl.store.nextBundle + 1 ∧
      t.ctl.store.transfers = s.ctl.store.transfers ++ [openInstall r base s.ctl] ∧
      t.ctl.store.bundles = s.ctl.store.bundles ∧ t.mem = s.mem.apply (beginWrites r base s.mem) := by
  obtain ⟨d, hd, hend⟩ := beginBundle_of_fits hkind himage hmodel hserved
  have hjoined := (Ctl.Installs.refl (joinInstall (openInstall r base s.ctl) (emit (beginWrites r base s.mem) d))).relayed 0x30
    (r.payload ++ toBe 4 s.ctl.store.nextBundle)
  obtain ⟨hbundles, htransfers, hnext, hwq⟩ := hd.parts
  obtain ⟨hbundles', htransfers', hnext', hwq'⟩ := hjoined.parts
  obtain ⟨hrunBundles, hrunTransfers, hrunNext⟩ := State.run_holdings (beginBundle r) s
  have hunwinds : s.ctl.Unwinds (joinInstall (openInstall r base s.ctl) (emit (beginWrites r base s.mem) d)) :=
    (hd.toUnwinds.emit _).withStore _
  refine ⟨_, rfl, replies_run hserved hend (hunwinds.trans hjoined.toUnwinds), ?_, ?_, ?_, ?_⟩
  · rw [hrunNext, hend, answer_store, hnext']
    simp [joinInstall, openInstall, hnext]
  · rw [hrunTransfers, hend, answer_store, htransfers']
    simp [joinInstall, htransfers]
  · rw [hrunBundles, hend, answer_store, hbundles']
    exact hbundles
  · rw [State.run_mem, hend, answer_wq, hwq']
    simp [joinInstall, hwq, hs.2]

/-- A BUNDLE_DATA in sequence. -/
theorem completes_bundleData {s : State} {r : Req} {failing : List Nat} {x : BundleXfer} (hs : s.ready)
    (hx : s.ctl.store.transfers.find? (fun t => t.no = r.be 0 4 && !t.staged) = some x) (hoff : r.be 4 8 = x.received)
    (hfits : r.be 4 8 + (r.len - 12) ≤ x.size) (hserved : served (dataGate s.ctl r) r s.ctl) :
    completes (.bundleData r failing) s fun t => replies s t r 0x31 .ok [[]] ∧
      (∃ y ∈ t.ctl.store.transfers, y.no = x.no ∧ y.received = r.be 4 8 + (r.len - 12)) ∧
      t.ctl.store.bundles = s.ctl.store.bundles ∧
      t.mem = s.mem.apply (if x.kind = 0 then programWrites (x.base + r.be 4 8) (r.payload.drop 12) else []) := by
  obtain ⟨d, e, hd, htaken, hend⟩ := bundleDataIn_next (failing := failing) hx hoff hfits hserved
  obtain ⟨hbundles, htransfers, -, hwq⟩ := hd.parts
  obtain ⟨hbundles', htransfers', -, hwq'⟩ := (htaken.relayed 0x31 r.payload).parts
  obtain ⟨hrunBundles, hrunTransfers, -⟩ := State.run_holdings (bundleDataIn r failing) s
  have hunwinds : s.ctl.Unwinds (takeIn (r.be 0 4) x (r.payload.drop 12) d) := (hd.toUnwinds.emit _).withStore _
  have hmem : x ∈ s.ctl.store.transfers := List.mem_of_find?_eq_some hx
  have hno : x.no = r.be 0 4 := by
    have hfound := List.find?_some hx
    simp only [Bool.and_eq_true, decide_eq_true_eq] at hfound
    exact hfound.1
  refine ⟨_, rfl, replies_run hserved hend (hunwinds.trans (htaken.relayed 0x31 r.payload).toUnwinds),
    ⟨takenData x (r.payload.drop 12) d.clk.ns, ?_, rfl, ?_⟩, ?_, ?_⟩
  · rw [hrunTransfers, hend, answer_store, htransfers']
    exact List.mem_map.mpr ⟨x, by rwa [emit_store, htransfers], if_pos hno⟩
  · rw [hoff, takenData, List.length_drop]
    rfl
  · rw [hrunBundles, hend, answer_store, hbundles']
    exact hbundles
  · rw [State.run_mem, hend, answer_wq, hwq', hoff]
    simp [takeIn, hwq, hs.2]

theorem bundleTimeout_of_early {no : Nat} {c : Ctl} {x : BundleXfer}
    (hx : c.store.transfers.find? (fun t => t.no = no && !t.staged) = some x) (hearly : c.clk.ns < x.at' + 60000000000) :
    bundleTimeout no c = c := by
  rw [bundleTimeout, hx]
  exact if_pos hearly

/-- A transfer that has been idle for 60 s leaves the transfers, and a model bundle's blocks go to erasure. -/
theorem bundleTimeout_of_late {no : Nat} {c : Ctl} {x : BundleXfer}
    (hx : c.store.transfers.find? (fun t => t.no = no && !t.staged) = some x) (hlate : x.at' + 60000000000 ≤ c.clk.ns) :
    bundleTimeout no c = (if x.kind = 0 then dropInstall x.base x.size c else c).withStore fun s =>
      { s with transfers := s.transfers.filter fun y => y.no ≠ no } := by
  rw [bundleTimeout, hx]
  exact if_neg (not_lt.mpr hlate)

theorem completes_bundleTimeout {s : State} {no : Nat} {x : BundleXfer} (hs : s.ready)
    (hx : s.ctl.store.transfers.find? (fun t => t.no = no && !t.staged) = some x) (hlate : x.at' + 60000000000 ≤ s.ctl.clk.ns) :
    completes (.bundleIdleTimeout no) s fun t => sameMem s t ∧
      t.ctl.store.transfers = s.ctl.store.transfers.filter (fun y => y.no ≠ no) ∧ t.ctl.store.bundles = s.ctl.store.bundles ∧
      (x.kind = 0 → ∀ k ∈ bundleBlocks x.base x.size, s.ctl.blockOf k ∈ t.ctl.store.eraseAtWake) := by
  have hend := bundleTimeout_of_late hx hlate
  let f : Mem → Ctl → Ctl := fun _ c => bundleTimeout no c
  have hstore : (s.run f).ctl.store = (bundleTimeout no s.ctl).settle.store := State.run_store f s
  refine ⟨s.run f, rfl, sameMem_of_run ((congrArg Ctl.wq hend).trans ?_), ?_, ?_, fun hkind k hk => ?_⟩
  · rw [Ctl.withStore_wq, apply_ite Ctl.wq]
    exact (ite_self _).trans hs.2
  · rw [hstore, hend]
    split <;> rfl
  · rw [hstore, hend]
    split <;> rfl
  · rw [hstore, hend, if_pos hkind]
    exact List.mem_eraseDups.mpr (List.mem_append_right _ (List.mem_map_of_mem hk))

/-- Settles O27: a bundle request that its gate serves makes its change in one step, between which only packets and counters move. -/
theorem bundleTransfersStepByStep : Obligations.BundleTransfersStepByStep := by
  unfold Obligations.BundleTransfersStepByStep
  intro s r hs
  refine ⟨fun base hkind himage hmodel hserved => ?_, fun x failing hx hoff hfits hserved => ?_,
    fun no x hx => ⟨fun hearly => exec_eq_self hs rfl (bundleTimeout_of_early hx hearly), fun hlate => completes_bundleTimeout hs hx hlate⟩⟩
  · obtain ⟨t, hi, hreplies, hnext, htransfers, hbundles, hmem⟩ := completes_bundleBegin hs hkind himage hmodel hserved
    refine ⟨t, hi, hreplies, hnext, htransfers, hbundles, fun hone => ?_, fun hzero a => ?_⟩
    · rw [hmem, beginWrites, if_neg (by omega), Mem.apply_nil]
    · rw [hmem, beginWrites, if_pos hzero, Mem.byteAt_apply_clearFlash]
  · obtain ⟨t, hi, hreplies, htaken, hbundles, hmem⟩ := completes_bundleData (failing := failing) hs hx hoff hfits hserved
    refine ⟨t, hi, hreplies, htaken, hbundles, fun hone => ?_, fun hzero a => ?_⟩
    · rw [hmem, if_neg (by omega), Mem.apply_nil]
    · rw [hmem, if_pos hzero, Mem.byteAt_apply_programWrites, List.length_drop]
      refine if_congr Iff.rfl ?_ rfl
      simp [List.getD_eq_getElem?_getD]

end Sys2Proof.Machine
end

section
/-! SUPPORT for O48 and O49. Which counters the rows of a drain count: those of the Plane and of the packed formats, whatever the port
reads, and so none of the HBM channels (11 R344, R347). -/

namespace Sys2Proof.Machine

/-- The counters of the Plane and of the packed formats. -/
def Cnt.ofRow (k : Cnt) : Bool := k.info.1 = 0 || k.info.1 = 4

/-- The events count at no other counters. -/
def Events.ofRow (ev : Events) : Bool := ev.all fun e => e.1.ofRow

@[simp] theorem Events.ofRow_nil : Events.ofRow [] = true := rfl
@[simp] theorem Events.ofRow_cons (e : Cnt × Nat × Nat) (ev : Events) : Events.ofRow (e :: ev) = (e.1.ofRow && Events.ofRow ev) := rfl
@[simp] theorem Events.ofRow_append (ev ev' : Events) : Events.ofRow (ev ++ ev') = (Events.ofRow ev && Events.ofRow ev') :=
  List.all_append

theorem Events.ofRow_flatMap {α : Type} {f : α → Events} (h : ∀ x, (f x).ofRow = true) (l : List α) :
    Events.ofRow (l.flatMap f) = true := by
  induction l with
  | nil => rfl
  | cons x l ih => simp [h x, ih]

@[simp] theorem vecEvents_ofRow (v : VCount) : (vecEvents v).ofRow = true := by
  simp [vecEvents, Events.ofRow, Cnt.ofRow, Cnt.info, Function.comp_def]

@[simp] theorem writeRow_ofRow (r : Nat) (x : RowAt) (xs : List F32) : (writeRow r x xs).2.ofRow = true := by
  unfold writeRow
  dsimp only
  rw [Events.ofRow_append, List.flatMap_map, Events.ofRow_flatMap fun s => rfl, Bool.and_true]
  split <;> rfl

@[simp] theorem finishRow_ofRow (r : Nat) (x : RowAt) (inp : StageIn) (xs : List F32) : (finishRow r x inp xs).2.ofRow = true := by
  change Events.ofRow (vecEvents _ ++ (writeRow r x _).2) = true
  simp

@[simp] theorem windowOut_ofRow (r : Nat) (x : RowAt) (f : Vec (List F32)) : (windowOut r x f).2.ofRow = true := by
  change Events.ofRow (vecEvents _ ++ (writeRow r x _).2 ++ [(.plnWinVoid, x.tile, _)]) = true
  simp [Cnt.ofRow, Cnt.info]

/-- Whatever the port holds, the row counts its own counters alone. -/
structure RowCounts (x : Rd RowOut) : Prop where
  own : ∀ p, (x.run p).1.2.ofRow = true

namespace RowCounts

theorem pure {o : RowOut} (h : o.2.ofRow = true) : RowCounts (Pure.pure o) := ⟨fun _ => h⟩
/-- What comes last decides what a row counts. -/
theorem bind {α : Type} {x : Rd α} {f : α → Rd RowOut} (h : ∀ a, RowCounts (f a)) : RowCounts (x >>= f) :=
  ⟨fun p => (h (x.run p).1).own (x.run p).2⟩
theorem pure_cons {o : RowOut} (h : o.2.ofRow = true) {e : Cnt × Nat × Nat} (he : e.1.ofRow = true) :
    RowCounts (Pure.pure (o.1, e :: o.2)) := .pure (by simp [h, he])
theorem nil (out : List OutRun) : RowCounts (Pure.pure (out, [])) := pure Events.ofRow_nil
theorem one (out : List OutRun) {e : Cnt × Nat × Nat} (he : e.1.ofRow = true) : RowCounts (Pure.pure (out, [e])) := .pure (by simp [he])

end RowCounts

section
variable (m : Mem) (c : Ctl) (j : Job) (r : Nat) (d : Drain) (x : RowAt)

theorem cropRow_counts : RowCounts (cropRow m c j r x) := by
  refine .bind fun cs => ?_
  dsimp only
  split
  · exact .pure_cons (writeRow_ofRow r x _) rfl
  · -- the two coordinates, then whether the box lies outside
    split
    split
    split
    · exact .pure_cons (writeRow_ofRow r x _) rfl
    · exact .bind fun f => .pure_cons (windowOut_ofRow r x f) rfl

theorem gatherRow_counts : RowCounts (gatherRow m c j r x) := by
  refine .bind fun idx => ?_
  cases idx with
  | none => exact .one _ rfl
  | some i =>
    dsimp only
    split
    · refine .bind fun _ => ?_
      split <;> exact .bind fun _ => .nil _
    · split
      · exact .nil _
      · exact .one _ rfl

theorem scatterRow_counts : RowCounts (scatterRow m c j r x) := by
  refine .bind fun idx => ?_
  cases idx with
  | none => exact .one _ rfl
  | some i =>
    dsimp only
    split
    · split
      · exact .bind fun _ => .bind fun _ => .pure (vecEvents_ofRow _)
      · refine .bind fun _ => ?_
        split <;> exact .bind fun _ => .nil _
    · exact .one _ rfl

theorem adaptRow_counts : RowCounts (adaptRow m c j r x) := by
  refine .bind fun gr => .bind fun ws => .bind fun ms => ?_
  have hfilter (ev : Events) (h : ev.ofRow = true) (p : Cnt × Nat × Nat → Bool) : Events.ofRow (ev.filter p) = true :=
    List.all_eq_true.mpr fun e he => List.all_eq_true.mp h e (List.mem_of_mem_filter he)
  dsimp only
  -- with or without the second moment; then the terms, and the elements
  split <;> refine .bind fun vs => ?_
  all_goals
    split
    split
    split
    · exact .pure (by simp [Cnt.ofRow, Cnt.info])
    · exact .pure (by simp [Cnt.ofRow, Cnt.info, hfilter])

/-- A row of a command counts its own counters alone. -/
theorem outRow_counts : RowCounts (outRow m c j r d x) := by
  unfold outRow
  split
  · exact .bind fun _ => .pure (windowOut_ofRow ..)
  · exact .bind fun _ => .pure (windowOut_ofRow ..)
  · exact .bind fun _ => .pure (windowOut_ofRow ..)
  · exact .bind fun f => .pure_cons (windowOut_ofRow r x f) rfl
  · exact cropRow_counts ..
  · exact .bind fun _ => .pure (by simp [Cnt.ofRow, Cnt.info])
  · exact .bind fun _ => .pure (by simp [Cnt.ofRow, Cnt.info])
  · exact gatherRow_counts ..
  · exact scatterRow_counts ..
  · exact .bind fun _ => .bind fun _ => .pure (finishRow_ofRow ..)
  · exact adaptRow_counts ..
  · exact .bind fun _ => .pure (finishRow_ofRow ..)
end

theorem computeRows_counts (m : Mem) (c : Ctl) (j : Job) (r : Nat) (d : Drain) (xs : List RowAt) (p : RowAt × RowOut × Port → Bool) :
    Events.ofRow (((computeRows m c j r d xs).filter p).flatMap fun y => y.2.1.2) = true := by
  refine List.all_eq_true.mpr fun e he => ?_
  obtain ⟨y, hy, he⟩ := List.mem_flatMap.mp he
  obtain ⟨x, -, rfl⟩ := List.mem_map.mp (List.mem_filter.mp hy).1
  exact List.all_eq_true.mp ((outRow_counts m c j r d x).own _) e he

end Sys2Proof.Machine
end

section
/-! SUPPORT for O48 and O49. What the end of a job keeps: the other jobs, but for how far their commands are, the page-ins, the failed
channels of HBM with their alerts, the causes of Lee mode and the counters of the channels (11 R344, R347, R348, R359; 13 R407). -/

namespace Sys2Proof.Machine

/-- A job but for how far its command is: what the end of another job does not change in it. -/
def Job.still (j : Job) : Job := { j with exec := Exec.start, moved := 0 }

theorem Job.no_of_still {j k : Job} (h : j.still = k.still) : j.no = k.no := (congrArg Job.no h : j.still.no = k.still.no)

/-- The jobs of other numbers than `n`, each but for how far its command is. -/
def Ctl.others (n : Nat) (c : Ctl) : List Job := (c.jobs.filter fun j => j.no ≠ n).map Job.still

/-- The counters of the channels of HBM. -/
@[simp] def Cnt.ofChannel (k : Cnt) : Bool := k = .hbmRetrain || k = .hbmCaParity || k = .hbmRetrainForced || k = .hbmRowRepair

/-- What is known of the channels of HBM and of their rows, with the page-ins and the causes of Lee mode. -/
structure Channels where
  pageIns : List PageIn
  failed : List Nat
  alerts : List (Nat × Nat)
  softRepairs : List Nat
  repairsUsed : List (Nat × Nat)
  retiredFrames : List Nat
  leeCause : Nat
  counts : Cnt → Nat → Nat

def Ctl.channels (c : Ctl) : Channels where
  pageIns := c.store.pageIns
  failed := c.store.failed
  alerts := c.store.alerts
  softRepairs := c.store.softRepairs
  repairsUsed := c.store.repairsUsed
  retiredFrames := c.store.retiredFrames
  leeCause := c.service.leeCause
  counts := fun k i => if k.ofChannel then c.counter k i else 0

/-- What the end of job `n`, and nothing within it, changes of the other jobs and of the channels. -/
def Ctl.aside (n : Nat) (c : Ctl) : List Job × Channels := (c.others n, c.channels)

theorem Cnt.ofChannel_of_ofRow {k : Cnt} (h : k.ofRow = true) : k.ofChannel = false := by
  cases k <;> first | rfl | cases h

section
variable {a b : Ctl} {n : Nat}

theorem Ctl.channels_of_eq (hstore : a.store = b.store) (hcause : a.service.leeCause = b.service.leeCause)
    (hcounters : ∀ k i, k.ofChannel = true → a.counter k i = b.counter k i) : a.channels = b.channels := by
  have hcounts : a.channels.counts = b.channels.counts := by
    funext k i
    by_cases hk : k.ofChannel = true
    · exact (if_pos hk).trans ((hcounters k i hk).trans (if_pos hk).symm)
    · exact (if_neg hk).trans (if_neg hk).symm
  rw [channels, hstore, hcause]
  exact congrArg (Channels.mk _ _ _ _ _ _ _) hcounts

/-- A counter of the channels is among what is known of them. -/
theorem Ctl.counter_of_channels (h : a.channels = b.channels) {k : Cnt} (hk : k.ofChannel = true) (i : Nat) :
    a.counter k i = b.counter k i := by
  have hcounts : (if k.ofChannel then a.counter k i else 0) = if k.ofChannel then b.counter k i else 0 :=
    congrArg (fun x : Channels => x.counts k i) h
  rwa [if_pos hk, if_pos hk] at hcounts

theorem Ctl.pageIns_of_channels (h : a.channels = b.channels) : a.store.pageIns = b.store.pageIns := congrArg Channels.pageIns h
theorem Ctl.failed_of_channels (h : a.channels = b.channels) : a.store.failed = b.store.failed := congrArg Channels.failed h
theorem Ctl.alerts_of_channels (h : a.channels = b.channels) : a.store.alerts = b.store.alerts := congrArg Channels.alerts h
theorem Ctl.softRepairs_of_channels (h : a.channels = b.channels) : a.store.softRepairs = b.store.softRepairs :=
  congrArg Channels.softRepairs h
theorem Ctl.repairsUsed_of_channels (h : a.channels = b.channels) : a.store.repairsUsed = b.store.repairsUsed :=
  congrArg Channels.repairsUsed h
theorem Ctl.retiredFrames_of_channels (h : a.channels = b.channels) : a.store.retiredFrames = b.store.retiredFrames :=
  congrArg Channels.retiredFrames h
theorem Ctl.leeCause_of_channels (h : a.channels = b.channels) : a.service.leeCause = b.service.leeCause :=
  congrArg Channels.leeCause h

theorem Ctl.aside_of_parts (hjobs : a.jobs = b.jobs) (hchannels : a.channels = b.channels) : a.aside n = b.aside n := by
  rw [aside, aside, others, others, hjobs, hchannels]

/-- What changes the counters and the packets alone, and none of the counters of the channels. -/
theorem Ctl.aside_of_quiet (hquiet : a.quiet = b.quiet) (hcounters : ∀ k i, k.ofChannel = true → a.counter k i = b.counter k i) :
    a.aside n = b.aside n :=
  aside_of_parts (jobs_of_quiet hquiet)
    (channels_of_eq (store_of_quiet hquiet) (by rw [service_of_quiet hquiet]) hcounters)

theorem Cnt.reports_of_ofChannel {k : Cnt} (h : k.ofChannel = true) : k.reports = false := by
  simp only [Cnt.ofChannel, Bool.or_eq_true, decide_eq_true_eq] at h
  obtain ((rfl | rfl) | rfl) | rfl := h <;> rfl
end

section
variable {n : Nat}

@[simp] theorem Ctl.aside_ite (p : Prop) [Decidable p] (a b : Ctl) :
    (if p then a else b).aside n = if p then a.aside n else b.aside n := apply_ite (Ctl.aside n) p a b

theorem foldl_aside {α : Type} {f : Ctl → α → Ctl} (h : ∀ c x, (f c x).aside n = c.aside n) (l : List α) (c : Ctl) :
    (l.foldl f c).aside n = c.aside n := foldl_keeps (Ctl.aside n) h l c

/-! ### Fields, jobs, packets and counters -/

@[simp] theorem Ctl.withPlane_aside (c : Ctl) (f : Plane → Plane) : (c.withPlane f).aside n = c.aside n := rfl
@[simp] theorem Ctl.withProto_aside (c : Ctl) (f : Proto → Proto) : (c.withProto f).aside n = c.aside n := rfl
@[simp] theorem Ctl.setBank_aside (c : Ctl) (k : Nat) (b : Bank) : (c.setBank k b).aside n = c.aside n := rfl
@[simp] theorem Ctl.setPort_aside (c : Ctl) (p : Nat) (x : XwPort) : (c.setPort p x).aside n = c.aside n := rfl
@[simp] theorem emit_aside (ws : List Wr) (c : Ctl) : (emit ws c).aside n = c.aside n := rfl
@[simp] theorem setTag_aside (k v : Nat) (c : Ctl) : (setTag k v c).aside n = c.aside n := rfl
@[simp] theorem takeFree_aside (c : Ctl) : (takeFree c).2.aside n = c.aside n := rfl

/-- A change of jobs that moves nothing but their commands. -/
theorem Ctl.mapJob_aside (no : Nat) {f : Job → Job} (c : Ctl) (hf : ∀ j, (f j).still = j.still) :
    (c.mapJob no f).aside n = c.aside n := by
  have hstill (j : Job) : (if j.no = no then f j else j).still = j.still := by
    split
    · exact hf j
    · rfl
  refine congrArg (·, c.channels) ?_
  rw [others, others, mapJob_jobs, List.filter_map, List.map_map]
  have hkept : ((fun j : Job => decide (j.no ≠ n)) ∘ fun j => if j.no = no then f j else j) = fun j => decide (j.no ≠ n) := by
    funext j
    simp only [Function.comp_apply, Job.no_of_still (hstill j)]
  rw [hkept]
  exact List.map_congr_left fun j _ => hstill j

/-- A change of the jobs of number `n` itself. -/
theorem Ctl.mapJob_self_aside {f : Job → Job} (c : Ctl) (hf : ∀ j, (f j).no = j.no) : (c.mapJob n f).aside n = c.aside n := by
  refine congrArg (·, c.channels) ?_
  rw [others, others, mapJob_jobs, List.filter_map, List.map_map]
  have hkept : ((fun j : Job => decide (j.no ≠ n)) ∘ fun j => if j.no = n then f j else j) = fun j => decide (j.no ≠ n) := by
    funext j
    by_cases hj : j.no = n <;> simp [hj, hf]
  rw [hkept]
  refine List.map_congr_left fun j hj => ?_
  have hne : j.no ≠ n := by simpa using (List.mem_filter.mp hj).2
  simp [hne]

/-- The jobs of number `n` go. -/
theorem Ctl.filter_aside (c : Ctl) : ({ c with jobs := c.jobs.filter fun k => k.no ≠ n } : Ctl).aside n = c.aside n := by
  refine congrArg (·, c.channels) ?_
  rw [others, others, List.filter_filter]
  simp

@[simp] theorem send_aside (p : Packet) (c : Ctl) : (send p c).aside n = c.aside n :=
  Ctl.aside_of_quiet (send_quiet p c) fun _ i hk => send_counter (Cnt.reports_of_ofChannel hk) i p c

@[simp] theorem event_aside (code job status list idx tag : Nat) (detail : List Byte) (more : List Peer) (c : Ctl) :
    (event code job status list idx tag detail more c).aside n = c.aside n :=
  Ctl.aside_of_quiet (event_quiet ..) fun _ i hk => event_counter (Cnt.reports_of_ofChannel hk) i ..

@[simp] theorem serviceEvent_aside (kind block inst value : Nat) (c : Ctl) : (serviceEvent kind block inst value c).aside n = c.aside n :=
  Ctl.aside_of_quiet (serviceEvent_quiet ..) fun _ i hk => serviceEvent_counter (Cnt.reports_of_ofChannel hk) i ..

/-- Any other counter. -/
@[simp] theorem count_aside {k : Cnt} (hk : k.ofChannel = false) (i m : Nat) (c : Ctl) : (count k i m c).aside n = c.aside n := by
  obtain rfl | hm := eq_or_ne m 0
  · rfl
  · exact Ctl.aside_of_quiet (count_quiet ..) fun k' i' hk' =>
      count_counter_ne (Cnt.reports_of_ofChannel hk') i' (fun h => by rw [h, hk] at hk'; cases hk') i hm c

theorem countEvents_aside {ev : Events} (h : ev.ofRow = true) (c : Ctl) : (countEvents ev c).aside n = c.aside n := by
  induction ev generalizing c with
  | nil => rfl
  | cons e ev ih =>
    obtain ⟨he, hev⟩ := Bool.and_eq_true_iff.mp h
    exact (ih hev _).trans (count_aside (Cnt.ofChannel_of_ofRow he) ..)

@[simp] theorem Ctl.mapJob_exec_aside (no : Nat) (f : Job → Exec) (c : Ctl) :
    (c.mapJob no fun j => { j with exec := f j }).aside n = c.aside n := Ctl.mapJob_aside no c fun _ => rfl
@[simp] theorem noteMove_aside (no : Nat) (c : Ctl) : (noteMove no c).aside n = c.aside n := Ctl.mapJob_aside no c fun _ => rfl
@[simp] theorem onExec_aside (no : Nat) (f : Exec → Exec) (c : Ctl) : (onExec no f c).aside n = c.aside n :=
  (noteMove_aside _ _).trans (Ctl.mapJob_aside no c fun _ => rfl)

@[simp] theorem answer_aside (r : Req) (kind : Nat) (st : KS) (body : List Byte) (c : Ctl) :
    (answer r kind st body c).aside n = c.aside n := by
  unfold answer answerAll
  extract_lets ps hit copy sent copied
  have hsent : sent.aside n = c.aside n := foldl_aside (fun c p => send_aside p c) ps c
  refine Eq.trans (b := copied.aside n) rfl ?_
  unfold copied
  cases copy with
  | some q => exact (foldl_aside (fun c _ => send_aside _ c) ps sent).trans hsent
  | none => exact hsent

/-! ### Slot tags -/

theorem setAll_aside {f : Nat → Ctl → Ctl} (h : ∀ k c, (f k c).aside n = c.aside n) (ks : List Nat) (c : Ctl) :
    (setAll f ks c).aside n = c.aside n := foldl_aside (fun c k => h k c) ks c
@[simp] theorem setFull_aside (k : Nat) (c : Ctl) : (setFull k c).aside n = c.aside n := by simp [setFull]
@[simp] theorem setEmpty_aside (k : Nat) (c : Ctl) : (setEmpty k c).aside n = c.aside n := by simp [setEmpty]
@[simp] theorem setVoided_aside (k : Nat) (c : Ctl) : (setVoided k c).aside n = c.aside n := rfl
@[simp] theorem setAllFull_aside (ks : List Nat) (c : Ctl) : (setAll setFull ks c).aside n = c.aside n := setAll_aside setFull_aside ks c
@[simp] theorem setAllEmpty_aside (ks : List Nat) (c : Ctl) : (setAll setEmpty ks c).aside n = c.aside n :=
  setAll_aside setEmpty_aside ks c
@[simp] theorem voidPart_aside (h : Handle) (s k : Nat) (c : Ctl) : (voidPart h s k c).aside n = c.aside n := by simp [voidPart]

/-! ### Reads of the memories -/

/-- The logs of corrections, and what they make due, are none of it. -/
theorem Ctl.withStore_log_aside (c : Ctl) (backs : Store → List Nat) (rows bankCorr : Store → List (Nat × Nat))
    (bankUncorr : Store → List (Nat × Nat × Nat)) (banks repairs : Store → List Nat) : (c.withStore fun s =>
      { s with writeBacks := backs s, rowCorr := rows s, bankCorr := bankCorr s, bankUncorr := bankUncorr s, bankDue := banks s,
               repairDue := repairs s }).aside n = c.aside n := rfl

@[simp] theorem noteRead_aside (m : Mem) (w : Nat) (c : Ctl) : (noteRead m w c).aside n = c.aside n := by
  unfold noteRead
  extract_lets r a waiting stack k due logged
  have hwaiting : waiting.aside n = c.aside n := rfl
  have hdue (c : Ctl) : (due c).aside n = c.aside n := rfl
  have hlogged : logged.aside n = waiting.aside n := count_aside rfl stack 1 waiting
  rw [Ctl.aside_ite]
  split
  · rfl
  · rw [← hwaiting]
    split <;> simp only [Ctl.aside_ite, hdue, hlogged, Ctl.withStore_log_aside, count_aside, Cnt.ofChannel, reduceCtorEq, decide_false,
      Bool.or_self, ite_self]

@[simp] theorem noteReads_aside (m : Mem) (ws : List Nat) (c : Ctl) : (noteReads m ws c).aside n = c.aside n :=
  foldl_aside (fun c w => noteRead_aside m w c) ws c
@[simp] theorem touchRow_aside (pc bk row words : Nat) (c : Ctl) : (touchRow pc bk row words c).aside n = c.aside n := by simp [touchRow]
@[simp] theorem touchHbm_aside (a words : Nat) (c : Ctl) : (touchHbm a words c).aside n = c.aside n :=
  foldl_aside (fun c _ => touchRow_aside _ _ _ _ c) _ c
@[simp] theorem touchPage_aside (fa : Nat) (big : Bool) (c : Ctl) : (touchPage fa big c).aside n = c.aside n := rfl
@[simp] theorem touchFrames_aside (ws : List Nat) (c : Ctl) : (touchFrames ws c).aside n = c.aside n :=
  foldl_aside (fun c _ => touchPage_aside _ _ c) _ c

@[simp] theorem noteVector_aside (m : Mem) (no idx : Nat) (p : Port) (c : Ctl) : (noteVector m no idx p c).aside n = c.aside n := by
  simp [noteVector, foldl_aside]

/-! ### Transfers of the stream engines -/

@[simp] theorem leaveSlots_aside (m : Mem) (j : Job) (x : Xfer) (rest : List Xfer) (c : Ctl) :
    (leaveSlots m j x rest c).aside n = c.aside n := by
  have tags (b : Bool) (ks : List Nat) (c : Ctl) : (setAll (if b then setFull else setEmpty) ks c).aside n = c.aside n ∧
      (setAll (if b then setEmpty else setFull) ks c).aside n = c.aside n := by cases b <;> simp
  unfold leaveSlots
  cases c.streamPos x with
  | none => rfl
  | some p =>
    dsimp only
    cases j.handle? (tMemHandle (j.stream x.record)) <;> simp [tags]

@[simp] theorem deliver_aside (m : Mem) (x : Xfer) (c : Ctl) : (deliver m x c).aside n = c.aside n := by
  unfold deliver
  extract_lets rest left moved read
  have hread : read.aside n = c.aside n := by simp [read, moved, show left.aside n = c.aside n from rfl]
  split
  · exact hread
  · split
    · exact (touchHbm_aside ..).trans hread
    · change (leaveSlots ..).aside n = _
      simp [hread]

@[simp] theorem deliverAll_aside (no k : Nat) (m : Mem) (c : Ctl) : (deliverAll no k m c).aside n = c.aside n := by
  induction k generalizing m c with
  | zero => rfl
  | succ k ih =>
    rw [deliverAll]
    split
    · rfl
    · rw [ih]
      exact deliver_aside ..

@[simp] theorem deliverData_aside (no : Nat) (m : Mem) (c : Ctl) : (deliverData no m c).aside n = c.aside n := deliverAll_aside ..

@[simp] theorem voidParts_aside (m : Mem) (no : Nat) (c : Ctl) : (voidParts m no c).aside n = c.aside n := by
  unfold voidParts
  split
  · rfl
  · exact foldl_aside (fun c (x : Handle × Nat × Nat) => voidPart_aside x.1 x.2.1 x.2.2 c) _ _

@[simp] theorem saveStreams_aside (c : Ctl) : (saveStreams n c).aside n = c.aside n := Ctl.mapJob_self_aside c fun _ => rfl

/-! ### Drains of the Plane -/

theorem payFor_aside (cls : Nat) (need : List (Nat × Nat × Nat)) (c : Ctl) : (payFor cls need c).2.aside n = c.aside n := by
  refine foldl_keeps (fun a : Bool × Ctl => a.2.aside n) (fun a t => ?_) _ _
  simp [apply_ite Prod.snd, show ∀ t cls h l c, (chargeEngine t cls h l c).aside n = c.aside n from fun _ _ _ _ _ => rfl]

theorem payFor_granted_aside {cls : Nat} {need : List (Nat × Nat × Nat)} {c c' : Ctl} {granted : Bool}
    (h : payFor cls need c = (granted, c')) : c'.aside n = c.aside n := by simpa [h] using payFor_aside cls need c

theorem writeRuns_aside (qs : List (Nat × OutRun)) (m : Mem) (c : Ctl) : (writeRuns qs m c).2.1.aside n = c.aside n := by
  induction qs generalizing m c with
  | nil => rfl
  | cons q qs ih =>
    rw [writeRuns]
    dsimp only
    rw [ih]
    simp

theorem putRuns_aside {j : Job} {op : Nat} {want : Option Nat → Bool} {qs : List OutRun} {tagged : Bool} {m m' : Mem}
    {c c' : Ctl} {w : List Wr} (h : putRuns j op want qs tagged m c = .ok (m', c', w)) : c'.aside n = c.aside n := by
  unfold putRuns at h
  dsimp only at h
  split at h
  · cases h
  · split at h
    · cases h
    · obtain rfl : _ = c' := congrArg (·.2.1) (Except.ok.inj h)
      exact writeRuns_aside _ m c

theorem writeRows_aside {m : Mem} {d : Drain} {j : Job} {xs : List RowAt} {want : Option Nat → Bool} {c c' : Ctl}
    {w : List Wr} (h : writeRows m d j xs want c = .ok (c', w)) : c'.aside n = c.aside n := by
  unfold writeRows at h
  dsimp only at h
  split at h
  · cases h
  · split at h
    · cases h
    · rename_i hpay
      split at h
      · cases h
      · rename_i hput
        split at h
        · cases h
        · rename_i hput'
          obtain rfl : _ = c' := congrArg (·.1) (Except.ok.inj h)
          rw [countEvents_aside (computeRows_counts ..), noteVector_aside, putRuns_aside hput', putRuns_aside hput,
            payFor_granted_aside hpay]

theorem scatterRows_aside {j : Job} {r : Nat} {d : Drain} {xs : List RowAt} {need need' : List (Nat × Nat × Nat)}
    {u u' : List Wr} {m : Mem} {c c0 c' : Ctl} (h : scatterRows j r d xs need u m c c0 = .ok (c', need', u')) :
    c'.aside n = c.aside n := by
  induction xs generalizing need u m c with
  | nil =>
    cases h
    rfl
  | cons x xs ih =>
    have hfree := (outRow_counts m c j r d x).own Port.empty
    rw [scatterRows] at h
    split at h
    rename_i hrow
    rw [hrow] at hfree
    dsimp only at h
    split at h
    · cases h
    · split at h
      · cases h
      · rename_i hput
        rw [ih h, countEvents_aside hfree, noteVector_aside, putRuns_aside hput]

@[simp] theorem freeDrain_aside (c : Ctl) : (freeDrain c).aside n = c.aside n := by
  unfold freeDrain
  split
  · rfl
  · simp [freeRegisters]

theorem completeDrain_aside {m : Mem} {d : Drain} {j : Job} {c c' : Ctl} (h : completeDrain m d j c = .ok c') :
    c'.aside n = c.aside n := by
  unfold completeDrain at h
  dsimp only at h
  split at h
  · split at h
    · rename_i hput
      cases h
      simp [putRuns_aside hput]
    · cases h
  · split at h
    · split at h
      · cases h
      · rename_i hrows
        split at h
        · cases h
        · cases h
          rw [freeDrain_aside, setAllFull_aside, ← scatterRows_aside hrows]
          rfl
    · split at h
      · cases h
      · rename_i hrows
        cases h
        simp [writeRows_aside hrows]

@[simp] theorem finishDrain_aside (m : Mem) (c : Ctl) : (finishDrain m c).aside n = c.aside n := by
  unfold finishDrain
  split
  · rfl
  · split
    · simp
    · split
      · rename_i h
        exact completeDrain_aside h
      · rfl

@[simp] theorem undoDrain_aside (c : Ctl) : (undoDrain c).aside n = c.aside n := by
  unfold undoDrain
  split <;> simp

@[simp] theorem settleCut_aside (m : Mem) (no idx : Nat) (c : Ctl) : (settleCut m no idx c).aside n = c.aside n := by
  unfold settleCut
  dsimp only
  split
  · rfl
  · split
    · rfl
    · split
      · simp
      · split
        · rename_i h
          simp [completeDrain_aside h]
        · rfl

@[simp] theorem closeCommand_aside (j : Job) (i : Nat) (c : Ctl) : (closeCommand j i c).aside n = c.aside n := by
  unfold closeCommand
  simp only [onExec_aside, Ctl.aside_ite]
  -- what is left are the releases and the signal, each through a handle that the job may not have
  repeat' split
  all_goals simp

@[simp] theorem closeEarlier_aside (no idx : Nat) (c : Ctl) : (closeEarlier no idx c).aside n = c.aside n := by
  unfold closeEarlier
  split
  · rfl
  · refine foldl_aside (fun c i => ?_) _ _
    split
    · simp
    · rfl

@[simp] theorem settleDrain_aside (m : Mem) (no idx : Nat) (c : Ctl) : (settleDrain m no idx c).aside n = c.aside n := by
  unfold settleDrain
  dsimp only
  rw [closeEarlier_aside, settleCut_aside]
  split <;> simp

@[simp] theorem dropDrain_aside (no : Nat) (c : Ctl) : (dropDrain no c).aside n = c.aside n := by
  unfold dropDrain
  dsimp only
  split
  · rw [setAllEmpty_aside, emit_aside, Ctl.mapJob_exec_aside]
    split <;> simp
  · split <;> simp

@[simp] theorem leavePlane_aside (m : Mem) (j : Job) (idx : Nat) (c : Ctl) : (leavePlane m j idx c).aside n = c.aside n :=
  settleDrain_aside m j.no idx c

/-! ### Links, host transfers and results -/

@[simp] theorem pushPacket_aside (port type : Nat) (pk : XwPacket) (c : Ctl) : (pushPacket port type pk c).aside n = c.aside n := by
  unfold pushPacket
  dsimp only
  split <;> rfl

@[simp] theorem tellMembers_aside (type : Nat) (j : Job) (words : List XwWord) (c : Ctl) :
    (tellMembers type j words c).aside n = c.aside n := by
  refine foldl_aside (fun c k => ?_) _ _
  split <;> simp

@[simp] theorem dropLinks_aside (no : Nat) (c : Ctl) : (dropLinks no c).aside n = c.aside n := rfl

@[simp] theorem voidXfer_aside (x : HostXfer) (c : Ctl) : (voidXfer x c).aside n = c.aside n := by
  unfold voidXfer
  dsimp only
  split <;> simp [dropXfer]

@[simp] theorem voidHost_aside (j : Job) (c : Ctl) : (voidHost j c).aside n = c.aside n :=
  foldl_aside (fun c x => voidXfer_aside x c) _ _

@[simp] theorem freeFrames_aside (j : Job) (c : Ctl) : (freeFrames j c).aside n = c.aside n := rfl
@[simp] theorem endSlots_aside (j : Job) (c : Ctl) : (endSlots j c).aside n = c.aside n := foldl_aside (fun c p => by simp) _ _

@[simp] theorem sendResult_aside (m : Mem) (j : Job) (rp : Reply) (c : Ctl) : (sendResult m j rp c).aside n = c.aside n := by
  unfold sendResult
  extract_lets release parts read all max trunc counted body sizes pieces
  have hrelease (c : Ctl) : (release c).aside n = c.aside n := by
    unfold release
    split
    · exact foldl_aside (fun c h => by split <;> simp) _ _
    · rfl
  have hcounted : counted.aside n = c.aside n := by simp [counted, read]
  split
  · simp [hrelease]
  · rw [hrelease, foldl_aside fun c i => send_aside _ c, takeFree_aside, hcounted]

@[simp] theorem flushReplies_aside (m : Mem) (j : Job) (c : Ctl) : (flushReplies m j c).aside n = c.aside n := by
  refine foldl_aside (fun c rp => ?_) _ _
  split <;> simp

end

/-! ### The end of a job -/

/-- The end of a job leaves the others, and the channels of HBM. -/
theorem endJobWith_aside (detail : List Byte) (m : Mem) (no : Nat) (st : KS) (list idx tag : Nat) (c : Ctl) :
    (endJobWith detail m no st list idx tag c).aside no = c.aside no := by
  unfold endJobWith
  split
  · rfl
  · rename_i j _
    extract_lets left hit faulted delivered saved flushed seq told unlinked voided kept emptied dropped freed mark ended sent
      endAnswered admitAnswered
    have hvoided : voided.aside no = c.aside no := by simp [voided, unlinked, told, flushed, saved, delivered, faulted, left]
    have hfreed : freed.aside no = c.aside no := by simp [freed, dropped, emptied, hvoided]
    have hended : ended.aside no = c.aside no := by
      simp only [ended, Ctl.aside_ite, freed.mapJob_self_aside (f := mark) fun _ => rfl, Ctl.filter_aside, hfreed, ite_self]
    have hend : endAnswered.aside no = c.aside no := by
      unfold endAnswered
      split <;> simp [sent, hended]
    have hadmit : admitAnswered.aside no = c.aside no := by
      unfold admitAnswered
      split <;> simp [hend]
    split
    · rfl
    · split <;> simp [hadmit]

theorem endJob_aside (m : Mem) (no : Nat) (st : KS) (list idx tag : Nat) (c : Ctl) :
    (endJob m no st list idx tag c).aside no = c.aside no := endJobWith_aside ..

theorem failAt_aside (m : Mem) (no : Nat) (st : KS) (idx : Nat) (c : Ctl) : (failAt m no st idx c).aside no = c.aside no := by
  unfold failAt
  split
  · exact endJob_aside ..
  · rfl

theorem failJob_aside (m : Mem) (no : Nat) (st : KS) (c : Ctl) : (failJob m no st c).aside no = c.aside no := by
  unfold failJob
  split
  · exact endJob_aside ..
  · rfl

end Sys2Proof.Machine
end

section
/-! SUPPORT for O49. What the entry into Lee mode keeps: the failed channels of HBM with their alerts and counters, and the causes of Lee
mode beside the one that arises (11 R348; 17 R506, R507, R510). -/

namespace Sys2Proof.Machine

theorem Ctl.channels_of_aside {a b : Ctl} {n : Nat} (h : a.aside n = b.aside n) : a.channels = b.channels := congrArg (·.2) h

@[simp] theorem Ctl.channels_ite (p : Prop) [Decidable p] (a b : Ctl) :
    (if p then a else b).channels = if p then a.channels else b.channels := apply_ite Ctl.channels p a b

theorem foldl_channels {α : Type} {f : Ctl → α → Ctl} (h : ∀ c x, (f c x).channels = c.channels) (l : List α) (c : Ctl) :
    (l.foldl f c).channels = c.channels := foldl_keeps Ctl.channels h l c

/-- Any counter but those of the channels. -/
theorem count_channels {k : Cnt} (hk : k.ofChannel = false) (i n : Nat) (c : Ctl) : (count k i n c).channels = c.channels :=
  Ctl.channels_of_aside (n := 0) (count_aside hk i n c)

@[simp] theorem Ctl.withPins_channels (c : Ctl) (f : Pins → Pins) : (c.withPins f).channels = c.channels := rfl
@[simp] theorem Ctl.withGroup_channels (c : Ctl) (f : Group → Group) : (c.withGroup f).channels = c.channels := rfl

/-! ### Ends of jobs and runs -/

@[simp] theorem endJob_channels (m : Mem) (no : Nat) (st : KS) (list idx tag : Nat) (c : Ctl) :
    (endJob m no st list idx tag c).channels = c.channels := Ctl.channels_of_aside (endJob_aside ..)
@[simp] theorem failAt_channels (m : Mem) (no : Nat) (st : KS) (idx : Nat) (c : Ctl) : (failAt m no st idx c).channels = c.channels :=
  Ctl.channels_of_aside (failAt_aside ..)
@[simp] theorem failJob_channels (m : Mem) (no : Nat) (st : KS) (c : Ctl) : (failJob m no st c).channels = c.channels :=
  Ctl.channels_of_aside (failJob_aside ..)

@[simp] theorem endRun_channels (m : Mem) (no : Nat) (st : KS) (c : Ctl) : (endRun m no st c).channels = c.channels := by
  unfold endRun
  split
  · rfl
  · extract_lets waits faulted left delivered saved rested
    have hsaved : saved.aside no = c.aside no := by simp [saved, delivered, left, faulted]
    have hrested : rested.aside no = saved.aside no := Ctl.mapJob_self_aside saved fun _ => rfl
    split
    · rfl
    · simp [Ctl.channels_of_aside (hrested.trans hsaved)]

/-! ### A group that is left, and what was staged for it (R361, R413, R445) -/

theorem forgetChange_channels (x : Staged) (c : Ctl) : (forgetChange x c).channels = c.channels := by
  unfold forgetChange
  split
  · dsimp only
    split
    · split <;> rfl
    · rfl
  · rfl

theorem relayConfig_channels (code jobNo : Nat) (payload : List Byte) (c : Ctl) (number : Nat) :
    (relayConfig code jobNo payload c number).channels = c.channels := by
  refine foldl_channels (fun c k => ?_) _ c
  unfold sendConfig
  dsimp only
  split
  · rfl
  · exact Ctl.channels_of_aside (n := 0) (pushPacket_aside ..)

theorem withdrawJob_channels (no : Nat) (c : Ctl) : (withdrawJob no c).channels = c.channels := by
  unfold withdrawJob
  split
  · rfl
  · rename_i j _
    have hfreed : (dropLinks no (freeFrames j (endSlots j c))).aside no = c.aside no := by simp
    exact Ctl.channels_of_aside ((Ctl.filter_aside _).trans hfreed)

theorem refuseAdmission_channels (no member : Nat) (st : KS) (c : Ctl) :
    (refuseAdmission no member st c).channels = c.channels := by
  unfold refuseAdmission
  split
  · rfl
  · exact (Ctl.channels_of_aside (n := 0) (answer_aside ..)).trans ((withdrawJob_channels ..).trans (relayConfig_channels ..))

theorem endGroupJobs_channels (m : Mem) (c : Ctl) : (endGroupJobs m c).channels = c.channels := by
  refine foldl_channels (fun c j => ?_) _ c
  simp [refuseAdmission_channels]

theorem leave_channels (m : Mem) (c : Ctl) : (leave m c).channels = c.channels :=
  (foldl_channels (fun c x => forgetChange_channels x c) _ _).trans (endGroupJobs_channels m c)

/-! ### Lee mode (R506, R507, R510) -/

theorem balls_channels (c : Ctl) : (balls c).channels = c.channels := by
  unfold balls
  split <;> rfl

theorem leeJobs_channels (m : Mem) (c : Ctl) : (leeJobs m c).channels = c.channels := by
  unfold leeJobs
  extract_lets counted ended
  have hcounted : counted.channels = c.channels := by simp [counted, count_channels]
  have hended : ended.channels = counted.channels := foldl_channels (fun c j => by simp) _ _
  exact hended.trans hcounted

theorem switchPoint_channels (op : Nat) (c : Ctl) : (switchPoint op c).channels = c.channels := by
  have hcounted : (if op = c.power.opNow then c else count .pwrOpChange 0 1 c).channels = c.channels := by simp [count_channels]
  exact hcounted

theorem holdContext_channels (n : Nat) (c : Ctl) : (holdContext n c).channels = c.channels := by
  unfold holdContext disableContext
  dsimp only
  split
  · split <;> rfl
  · rfl

theorem dropInstalls_channels (c : Ctl) : (dropInstalls c).channels = c.channels :=
  foldl_channels (fun c t => by dsimp only; split <;> rfl) _ c

theorem enterLee_channels (m : Mem) (c : Ctl) : (enterLee m c).channels = c.channels := by
  unfold enterLee
  extract_lets lee inLee ended left switched bound held off
  have hended : ended.channels = c.channels := leeJobs_channels m inLee
  have hleft : left.channels = c.channels := by simp [left, leave_channels, hended]
  have hswitched : switched.channels = c.channels := by simp [switched, switchPoint_channels, hleft]
  have hheld : held.channels = switched.channels := foldl_channels (fun c n => by simp [holdContext_channels]) _ _
  have hidle : (idlePorts (balls off)).channels = off.channels := (Ctl.withGroup_channels ..).trans (balls_channels off)
  have hoff : off.channels = held.channels := Ctl.withPins_channels ..
  have hevent : (leeEvent 4 (dropInstalls (idlePorts (balls off)))).channels = (dropInstalls (idlePorts (balls off))).channels :=
    Ctl.channels_of_aside (n := 0) (event_aside ..)
  rw [hevent, dropInstalls_channels, hidle, hoff, hheld, hswitched]

/-- A cause of Lee mode that has arisen. -/
def Ctl.causing (b : Nat) (c : Ctl) : Ctl :=
  { c with service := { c.service with
      leeCause := if bit c.service.leeCause b then c.service.leeCause else c.service.leeCause + 2 ^ b } }

theorem Ctl.bit_causing (b : Nat) (c : Ctl) : bit (c.causing b).service.leeCause b = true := by
  change bit (if bit c.service.leeCause b then c.service.leeCause else c.service.leeCause + 2 ^ b) b = true
  split
  · assumption
  · rename_i hclear
    rw [bit_eq_testBit] at hclear ⊢
    rw [Nat.add_comm, Nat.testBit_two_pow_add_eq]
    simpa using hclear

/-- A cause that arises joins the others, and leaves the channels. -/
theorem raiseLee_channels (b : Nat) (m : Mem) (c : Ctl) : (raiseLee b m c).channels = (c.causing b).channels := by
  have hraised := balls_channels (c.causing b)
  have heq : raiseLee b m c = if (balls (c.causing b)).service.lee ∨ !(balls (c.causing b)).accepting then balls (c.causing b)
      else enterLee m (count .svcLeeEntry b 1 (balls (c.causing b))) := rfl
  rw [heq]
  split
  · exact hraised
  · rw [enterLee_channels, count_channels rfl]
    exact hraised

end Sys2Proof.Machine
end

section
/-! PROOF of O49. HBM banks and channels: refresh, open rows, alerts, retraining, failure and repair (11 R343 to R348; 17 R506). -/

namespace Sys2Proof.Machine

/-! ### What a command leaves -/

theorem State.run_channels (f : Mem → Ctl → Ctl) (s : State) : (s.run f).ctl.channels = (f s.mem s.ctl).channels := by
  have hquiet : (s.run f).ctl.quiet = (f s.mem s.ctl).settle.quiet := (State.run_quiet f s).trans (Ctl.settle_quiet _).symm
  exact Ctl.channels_of_eq (b := (f s.mem s.ctl).settle) (State.run_store f s) (by rw [Ctl.service_of_quiet hquiet])
    fun k i hk => State.run_counter (Cnt.reports_of_ofChannel hk) i f s

theorem State.run_bank (f : Mem → Ctl → Ctl) (s : State) (k : Nat) : (s.run f).ctl.bank k = (f s.mem s.ctl).bank k := by
  rw [Ctl.bank, State.run_store]
  rfl

theorem Ctl.setBank_bank (c : Ctl) (k : Nat) (b : Bank) (i : Nat) : (c.setBank k b).bank i = if i = k then b else c.bank i :=
  SMap.get_put ..

theorem Ctl.setBank_channels (c : Ctl) (k : Nat) (b : Bank) : (c.setBank k b).channels = c.channels := rfl

/-- A counter of the channels, counted once, beside whatever else leaves the channels. -/
theorem counted_of_channels {s : State} {f : Mem → Ctl → Ctl} {k : Cnt} {i : Nat} {c : Ctl} (hk : k.ofChannel = true)
    (hf : (f s.mem s.ctl).counter k i = (count k i 1 c).counter k i) (hc : c.counter k i = s.ctl.counter k i) :
    counted k i 1 s (s.run f) :=
  counted_of_run (Cnt.reports_of_ofChannel hk)
    (by rw [hf, count_counter_self (Cnt.reports_of_ofChannel hk) i Nat.one_ne_zero, hc])

/-! ### Precharge (R344, R347) -/

theorem foldl_precharge_openRow (pc b : Nat) (l : List Nat) (c : Ctl) :
    ((l.foldl (fun c b => c.setBank (pc * 48 + b) { c.bank (pc * 48 + b) with openRow := none }) c).bank (pc * 48 + b)).openRow =
      if b ∈ l then none else (c.bank (pc * 48 + b)).openRow := by
  induction l generalizing c with
  | nil => rfl
  | cons x l ih =>
    rw [List.foldl_cons, ih, Ctl.setBank_bank]
    by_cases hl : b ∈ l
    · simp [hl]
    · by_cases hx : b = x <;> simp [hl, hx]

theorem precharge_openRow {b : Nat} (hb : b < 48) (pc : Nat) (c : Ctl) : ((precharge pc c).bank (pc * 48 + b)).openRow = none :=
  (foldl_precharge_openRow pc b _ c).trans (if_pos (List.mem_range.mpr hb))

theorem precharge_channels (pc : Nat) (c : Ctl) : (precharge pc c).channels = c.channels := by
  unfold precharge
  exact foldl_channels (fun c _ => Ctl.setBank_channels c _ _) _ c

theorem precharge_wq (pc : Nat) (c : Ctl) : (precharge pc c).wq = c.wq := by
  unfold precharge
  exact foldl_keeps Ctl.wq (fun c _ => Ctl.setBank_wq c _ _) _ c

/-! ### Channels that fail (R348, R506) -/

/-- Channels that fail are listed. -/
def listFailed (pcs : List Nat) (c : Ctl) : Ctl := c.withStore fun s => { s with failed := (s.failed ++ pcs).eraseDups }

/-- Where the channels are the same, so are they with one more cause of Lee mode. -/
theorem Ctl.causing_channels {a b : Ctl} (h : a.channels = b.channels) (n : Nat) : (a.causing n).channels = (b.causing n).channels :=
  congrArg (fun x : Channels => { x with leeCause := if bit x.leeCause n then x.leeCause else x.leeCause + 2 ^ n }) h

theorem failChannels_channels (pcs : List Nat) (m : Mem) (c : Ctl) :
    (failChannels pcs m c).channels = ((listFailed pcs c).causing 3).channels := by
  unfold failChannels
  extract_lets listed hit ended
  refine (raiseLee_channels 3 m ended).trans (Ctl.causing_channels (foldl_channels (fun c x => ?_) _ listed) 3)
  split
  · exact failAt_channels ..
  · rfl

theorem failing_counter (pcs : List Nat) (c : Ctl) (k : Cnt) (i : Nat) : ((listFailed pcs c).causing 3).counter k i = c.counter k i := rfl
theorem failing_alerts (pcs : List Nat) (c : Ctl) : ((listFailed pcs c).causing 3).store.alerts = c.store.alerts := rfl
theorem failing_failed (pcs : List Nat) (c : Ctl) :
    ((listFailed pcs c).causing 3).store.failed = (c.store.failed ++ pcs).eraseDups := rfl

/-- What fails is listed, and is a cause of Lee mode. -/
theorem failed_of_channels {pcs : List Nat} {a c : Ctl} (h : a.channels = ((listFailed pcs c).causing 3).channels) :
    (∀ p ∈ pcs, p ∈ a.store.failed) ∧ bit a.service.leeCause 3 = true := by
  refine ⟨fun p hp => ?_, Ctl.leeCause_of_channels h ▸ Ctl.bit_causing 3 _⟩
  rw [Ctl.failed_of_channels h, failing_failed]
  exact List.mem_eraseDups.mpr (List.mem_append_right _ hp)

theorem retrain_of_ok (pc : Nat) (m : Mem) (c : Ctl) : retrain pc true m c = precharge pc (count .hbmRetrain (pc / 32) 1 c) := rfl

theorem retrain_of_failure (pc : Nat) (m : Mem) (c : Ctl) :
    retrain pc false m c = failChannels [pc] m (precharge pc (count .hbmRetrain (pc / 32) 1 c)) := rfl

/-- Whatever becomes of a retraining, its counter counts it, and no other counter of the channels. -/
theorem retrain_counter {k : Cnt} (hk : k.ofChannel = true) (pc : Nat) (ok : Bool) (m : Mem) (c : Ctl) (i : Nat) :
    (retrain pc ok m c).counter k i = (count .hbmRetrain (pc / 32) 1 c).counter k i := by
  have hprecharge := Ctl.counter_of_channels (precharge_channels pc (count .hbmRetrain (pc / 32) 1 c)) hk i
  cases ok with
  | true => exact hprecharge
  | false =>
    rw [retrain_of_failure, Ctl.counter_of_channels (failChannels_channels ..) hk i, failing_counter]
    exact hprecharge

theorem retrain_alerts (pc : Nat) (ok : Bool) (m : Mem) (c : Ctl) : (retrain pc ok m c).store.alerts = c.store.alerts := by
  have hprecharge := Ctl.alerts_of_channels (precharge_channels pc (count .hbmRetrain (pc / 32) 1 c))
  rw [count_store] at hprecharge
  cases ok with
  | true => exact hprecharge
  | false =>
    rw [retrain_of_failure, Ctl.alerts_of_channels (failChannels_channels ..), failing_alerts]
    exact hprecharge

/-- A retraining that a command ends with. -/
theorem after_retrain {s : State} {f : Mem → Ctl → Ctl} {pc : Nat} {ok : Bool} {c : Ctl} (hs : s.ready)
    (hf : f s.mem s.ctl = retrain pc ok s.mem c) (hwq : c.wq = s.ctl.wq) (hfailed : c.store.failed = s.ctl.store.failed)
    (hcounter : c.counter .hbmRetrain (pc / 32) = s.ctl.counter .hbmRetrain (pc / 32)) :
    counted .hbmRetrain (pc / 32) 1 s (s.run f) ∧
    (ok = true → sameMem s (s.run f) ∧ (∀ b < 48, ((s.run f).ctl.bank (pc * 48 + b)).openRow = none) ∧
      (s.run f).ctl.store.failed = s.ctl.store.failed) ∧
    (ok = false → pc ∈ (s.run f).ctl.store.failed ∧ bit (s.run f).ctl.service.leeCause 3 = true) := by
  refine ⟨counted_of_channels rfl (hf ▸ retrain_counter rfl ..) hcounter, ?_, ?_⟩
  · rintro rfl
    rw [retrain_of_ok] at hf
    refine ⟨sameMem_of_run ?_, fun b hb => ?_, ?_⟩
    · rw [hf, precharge_wq, count_wq, hwq, hs.2]
    · rw [State.run_bank, hf, precharge_openRow hb]
    · have hchannels := (State.run_channels f s).trans (hf ▸ precharge_channels ..)
      rw [Ctl.failed_of_channels hchannels, count_store, hfailed]
  · rintro rfl
    rw [retrain_of_failure] at hf
    obtain ⟨hlisted, hcause⟩ := failed_of_channels ((State.run_channels f s).trans (hf ▸ failChannels_channels ..))
    exact ⟨hlisted pc (List.mem_singleton_self pc), hcause⟩

/-! ### Refresh and open rows (R343, R345, R346) -/

/-- A command that gives one bank a new state, and changes nothing else that the bank's clauses speak of. -/
theorem completes_setBank {i : Instr} {s : State} {f : Mem → Ctl → Ctl} {c : Ctl} {k : Nat} {b : Bank} (hs : s.ready)
    (hi : exec i s = .next (s.run f)) (hf : f s.mem s.ctl = c.setBank k b) (hwq : c.wq = s.ctl.wq) :
    completes i s fun t => sameMem s t ∧ t.ctl.store.refreshNext = c.store.refreshNext ∧ t.ctl.bank k = b := by
  refine ⟨s.run f, hi, sameMem_of_run ?_, ?_, ?_⟩
  · rw [hf, Ctl.setBank_wq, hwq, hs.2]
  · rw [State.run_store, hf]
    rfl
  · rw [State.run_bank, hf, Ctl.setBank_bank, if_pos rfl]

section
variable {s : State} {pc bk : Nat} (hs : s.ready) (hon : s.ctl.hbmOn = true) (hpc : pc < 64) (hbk : bk < 48)
include hs hon hpc

/-- The rotation moves on, and its bank is refreshed or waits for the requests queued for it. -/
theorem completes_perBankRefresh (hfailed : pc ∉ s.ctl.store.failed) (hnext : bk = SMap.get 0 s.ctl.store.refreshNext pc) :
    completes (.perBankRefresh pc bk) s fun t => sameMem s t ∧ SMap.get 0 t.ctl.store.refreshNext pc = (bk + 1) % 48 ∧
      t.ctl.bank (pc * 48 + bk) = if bankQueued s.ctl pc bk = true then { s.ctl.bank (pc * 48 + bk) with postponed := true }
        else { s.ctl.bank (pc * 48 + bk) with openRow := none, postponed := false } := by
  let moved : Ctl := s.ctl.withStore fun x => { x with refreshNext := SMap.put 0 x.refreshNext pc ((bk + 1) % 48) }
  have hserves : ¬((!s.ctl.hbmOn) = true ∨ 64 ≤ pc ∨ s.ctl.store.failed.contains pc = true ∨
      bk ≠ SMap.get 0 s.ctl.store.refreshNext pc) := by
    simp [hon, hpc, hfailed, ← hnext]
  have hf : nextRefresh pc bk s.ctl = if bankQueued s.ctl pc bk then
      moved.setBank (pc * 48 + bk) { s.ctl.bank (pc * 48 + bk) with postponed := true } else
      moved.setBank (pc * 48 + bk) { s.ctl.bank (pc * 48 + bk) with openRow := none, postponed := false } := if_neg hserves
  have hmoved : SMap.get 0 moved.store.refreshNext pc = (bk + 1) % 48 := (SMap.get_put ..).trans (if_pos rfl)
  rw [← apply_ite (moved.setBank (pc * 48 + bk))] at hf
  obtain ⟨t, hi, hmem, hrefresh, hbank⟩ := completes_setBank (i := .perBankRefresh pc bk) (c := moved) hs rfl hf rfl
  exact ⟨t, hi, hmem, hrefresh ▸ hmoved, hbank⟩

include hbk

theorem completes_refreshDeadline (hpostponed : (s.ctl.bank (pc * 48 + bk)).postponed = true) :
    completes (.refreshDeadline pc bk) s fun t => sameMem s t ∧
      t.ctl.bank (pc * 48 + bk) = { s.ctl.bank (pc * 48 + bk) with openRow := none, postponed := false } := by
  obtain ⟨t, hi, hmem, -, hbank⟩ := completes_setBank (i := .refreshDeadline pc bk) (c := s.ctl) hs rfl
    (if_pos ⟨hpc, hbk, hon, hpostponed⟩) rfl
  exact ⟨t, hi, hmem, hbank⟩

theorem completes_rowCloseTimeout (hkept : (s.ctl.bank (pc * 48 + bk)).keptOpen = true)
    (hfree : ∀ row, (s.ctl.bank (pc * 48 + bk)).openRow = some row → s.ctl.rowQueued pc bk row = false) :
    completes (.rowCloseTimeout pc bk) s fun t => sameMem s t ∧
      t.ctl.bank (pc * 48 + bk) = { s.ctl.bank (pc * 48 + bk) with openRow := none } := by
  have hqueued : (!(match (s.ctl.bank (pc * 48 + bk)).openRow with | some row => s.ctl.rowQueued pc bk row | none => false)) = true := by
    cases hopen : (s.ctl.bank (pc * 48 + bk)).openRow with
    | none => rfl
    | some row => simp [hfree row hopen]
  obtain ⟨t, hi, hmem, -, hbank⟩ := completes_setBank (i := .rowCloseTimeout pc bk) (c := s.ctl) hs rfl
    (if_pos ⟨hpc, hbk, hon, hkept, hqueued⟩) rfl
  exact ⟨t, hi, hmem, hbank⟩

omit hon hpc hbk in
theorem exec_rowCloseTimeout_of_queued {row : Nat} (hopen : (s.ctl.bank (pc * 48 + bk)).openRow = some row)
    (hqueued : s.ctl.rowQueued pc bk row = true) : exec (.rowCloseTimeout pc bk) s = .next s := by
  refine exec_eq_self hs rfl (if_neg ?_)
  rintro ⟨-, -, -, -, hfree⟩
  rw [hopen] at hfree
  simp [hqueued] at hfree
end

/-! ### Alerts and retraining (R344, R347) -/

/-- The `n`-th alert in a row is noted; the third begins a new row of them. -/
def noteAlert (pc n : Nat) (c : Ctl) : Ctl := c.withStore fun s => { s with alerts := SMap.put 0 s.alerts pc (if 3 ≤ n then 0 else n) }

/-- An alert is counted and noted, and its channel precharged. -/
def alerted (pc n : Nat) (c : Ctl) : Ctl := noteAlert pc n (precharge pc (count .hbmCaParity (pc / 32) 1 c))

section
variable (pc n : Nat) (c : Ctl)

theorem noteAlert_counter (k : Cnt) (i : Nat) : (noteAlert pc n c).counter k i = c.counter k i := rfl
theorem noteAlert_wq : (noteAlert pc n c).wq = c.wq := rfl
theorem noteAlert_bank (k : Nat) : (noteAlert pc n c).bank k = c.bank k := rfl
theorem noteAlert_failed : (noteAlert pc n c).store.failed = c.store.failed := rfl
theorem noteAlert_alerts : SMap.get 0 (noteAlert pc n c).store.alerts pc = if 3 ≤ n then 0 else n := (SMap.get_put ..).trans (if_pos rfl)

theorem alerted_counter {k : Cnt} (hk : k.ofChannel = true) (i : Nat) :
    (alerted pc n c).counter k i = (count .hbmCaParity (pc / 32) 1 c).counter k i := by
  rw [alerted, noteAlert_counter, Ctl.counter_of_channels (precharge_channels ..) hk]

theorem alerted_wq : (alerted pc n c).wq = c.wq := by rw [alerted, noteAlert_wq, precharge_wq, count_wq]

theorem alerted_failed : (alerted pc n c).store.failed = c.store.failed := by
  rw [alerted, noteAlert_failed, Ctl.failed_of_channels (precharge_channels ..), count_store]

theorem alerted_alerts : SMap.get 0 (alerted pc n c).store.alerts pc = if 3 ≤ n then 0 else n := noteAlert_alerts ..

theorem alerted_openRow {b : Nat} (hb : b < 48) : ((alerted pc n c).bank (pc * 48 + b)).openRow = none := by
  rw [alerted, noteAlert_bank, precharge_openRow hb]
end

section
variable {s : State} {pc : Nat} (hs : s.ready) (hon : s.ctl.hbmOn = true) (hpc : pc < 64) (hfailed : pc ∉ s.ctl.store.failed)
include hs hon hpc hfailed

/-- An alert; the third in a row retrains. -/
theorem completes_caParityAlert (good ok : Bool) {n : Nat} (hn : n = (if good then 0 else SMap.get 0 s.ctl.store.alerts pc) + 1) :
    completes (.caParityAlert pc good ok) s fun t => counted .hbmCaParity (pc / 32) 1 s t ∧
      SMap.get 0 t.ctl.store.alerts pc = (if 3 ≤ n then 0 else n) ∧ (3 ≤ n → counted .hbmRetrain (pc / 32) 1 s t) ∧
      (n < 3 ∨ ok = true → sameMem s t ∧ (∀ b < 48, (t.ctl.bank (pc * 48 + b)).openRow = none) ∧
        t.ctl.store.failed = s.ctl.store.failed) ∧
      (3 ≤ n → ok = false → pc ∈ t.ctl.store.failed ∧ bit t.ctl.service.leeCause 3 = true) := by
  have hserves : ¬((!s.ctl.hbmOn) = true ∨ 64 ≤ pc ∨ s.ctl.store.failed.contains pc = true) := by simp [hon, hpc, hfailed]
  have hf : parityAlert pc good ok s.mem s.ctl =
      if 3 ≤ n then retrain pc ok s.mem (alerted pc n s.ctl) else alerted pc n s.ctl := by
    subst hn
    exact if_neg hserves
  have hchannels := State.run_channels (parityAlert pc good ok) s
  have hparity := alerted_counter pc n s.ctl (k := .hbmCaParity) rfl (pc / 32)
  refine ⟨_, rfl, ?_⟩
  by_cases hthird : 3 ≤ n
  · rw [if_pos hthird] at hf ⊢
    have hretrains : (alerted pc n s.ctl).counter .hbmRetrain (pc / 32) = s.ctl.counter .hbmRetrain (pc / 32) :=
      (alerted_counter _ _ _ rfl _).trans (count_counter_ne rfl _ (by decide) _ Nat.one_ne_zero _)
    obtain ⟨hcount, hgood, hbad⟩ := after_retrain hs hf (alerted_wq ..) (alerted_failed ..) hretrains
    refine ⟨counted_of_channels (c := s.ctl) rfl ?_ rfl, ?_, fun _ => hcount, fun h => hgood (h.resolve_left (not_lt.mpr hthird)),
      fun _ => hbad⟩
    · rw [hf, retrain_counter rfl, count_counter_ne rfl _ (by decide) _ Nat.one_ne_zero, hparity]
    · rw [Ctl.alerts_of_channels hchannels, hf, retrain_alerts, alerted_alerts, if_pos hthird]
  · rw [if_neg hthird] at hf ⊢
    refine ⟨counted_of_channels (c := s.ctl) rfl (hf ▸ hparity) rfl, ?_, fun h => absurd h hthird,
      fun _ => ⟨sameMem_of_run ?_, fun b hb => ?_, ?_⟩, fun h => absurd h hthird⟩
    · rw [Ctl.alerts_of_channels hchannels, hf, alerted_alerts, if_neg hthird]
    · rw [hf, alerted_wq, hs.2]
    · rw [State.run_bank, hf, alerted_openRow _ _ _ hb]
    · rw [Ctl.failed_of_channels hchannels, hf, alerted_failed]

theorem completes_retraining (ok : Bool) (hidle : s.ctl.galeIdle = true) :
    completes (.hbmRetraining pc ok) s fun t => counted .hbmRetrain (pc / 32) 1 s t ∧
      (ok = true → sameMem s t ∧ (∀ b < 48, (t.ctl.bank (pc * 48 + b)).openRow = none) ∧ t.ctl.store.failed = s.ctl.store.failed) ∧
      (ok = false → pc ∈ t.ctl.store.failed ∧ bit t.ctl.service.leeCause 3 = true) :=
  ⟨_, rfl, after_retrain hs (if_pos ⟨hon, hpc, by simp [hfailed], hidle⟩) rfl rfl rfl⟩

/-- A retraining that is forced is reported and counted as such beside. -/
theorem completes_forcedRetraining (ok : Bool) : completes (.forcedRetraining pc ok) s fun t =>
    (counted .hbmRetrain (pc / 32) 1 s t ∧
      (ok = true → sameMem s t ∧ (∀ b < 48, (t.ctl.bank (pc * 48 + b)).openRow = none) ∧ t.ctl.store.failed = s.ctl.store.failed) ∧
      (ok = false → pc ∈ t.ctl.store.failed ∧ bit t.ctl.service.leeCause 3 = true)) ∧
    counted .hbmRetrainForced (pc / 32) 1 s t := by
  let forced : Ctl := serviceEvent 5 5 pc 0 (count .hbmRetrainForced (pc / 32) 1 s.ctl)
  let f : Mem → Ctl → Ctl := fun m c =>
    if c.hbmOn ∧ pc < 64 ∧ !c.store.failed.contains pc then
      retrain pc ok m (serviceEvent 5 5 pc 0 (count .hbmRetrainForced (pc / 32) 1 c))
    else c
  have hf : f s.mem s.ctl = retrain pc ok s.mem forced := if_pos ⟨hon, hpc, by simp [hfailed]⟩
  have hretrains : forced.counter .hbmRetrain (pc / 32) = s.ctl.counter .hbmRetrain (pc / 32) :=
    (serviceEvent_counter rfl ..).trans (count_counter_ne rfl _ (by decide) _ Nat.one_ne_zero _)
  refine ⟨s.run f, rfl, after_retrain hs hf ?_ ?_ hretrains, counted_of_channels (c := s.ctl) rfl ?_ rfl⟩
  · exact (serviceEvent_wq ..).trans (count_wq ..)
  · exact (congrArg Store.failed (serviceEvent_store ..)).trans (congrArg Store.failed (count_store ..))
  · rw [hf, retrain_counter rfl, count_counter_ne rfl _ (by decide) _ Nat.one_ne_zero]
    exact serviceEvent_counter rfl ..
end

/-- Every channel of a stack that does not respond fails. -/
theorem completes_stackNotResponding {s : State} (hon : s.ctl.hbmOn = true) {stack : Nat} (hstack : stack < 2) :
    completes (.hbmStackNotResponding stack) s fun t => bit t.ctl.service.leeCause 3 = true ∧
      ∀ p, p / 32 = stack → p < 64 → p ∈ t.ctl.store.failed := by
  let f : Mem → Ctl → Ctl := fun m c => if c.hbmOn ∧ stack < 2 then failChannels ((List.range 32).map (32 * stack + ·)) m c else c
  have hf : f s.mem s.ctl = failChannels ((List.range 32).map (32 * stack + ·)) s.mem s.ctl := if_pos ⟨hon, hstack⟩
  obtain ⟨hlisted, hcause⟩ := failed_of_channels ((State.run_channels f s).trans (hf ▸ failChannels_channels ..))
  refine ⟨s.run f, rfl, hcause, fun p hp _ => hlisted p (List.mem_map.mpr ⟨p % 32, List.mem_range.mpr (Nat.mod_lt _ (by decide)), ?_⟩)⟩
  rw [← hp, Nat.div_add_mod]

/-! ### Row repair (R348; 17 R504, R509) -/

theorem wearEvent_store (code block inst value : Nat) (c : Ctl) : (wearEvent code block inst value c).store = c.store := by
  unfold wearEvent
  dsimp only
  split
  · rfl
  · split
    · rw [serviceEvent_store]
    · rfl

theorem wearEvent_wq (code block inst value : Nat) (c : Ctl) : (wearEvent code block inst value c).wq = c.wq := by
  unfold wearEvent
  dsimp only
  split
  · rfl
  · split
    · rw [serviceEvent_wq]
    · rfl

theorem wearEvent_channels (code block inst value : Nat) (c : Ctl) : (wearEvent code block inst value c).channels = c.channels := by
  unfold wearEvent
  dsimp only
  split
  · rfl
  · split
    · exact Ctl.channels_of_aside (n := 0) (serviceEvent_aside ..)
    · rfl

theorem repairWear_store (stack : Nat) (c : Ctl) : (repairWear stack c).store = c.store := by
  simp [repairWear, apply_ite Ctl.store, wearEvent_store]

theorem repairWear_wq (stack : Nat) (c : Ctl) : (repairWear stack c).wq = c.wq := by
  simp [repairWear, apply_ite Ctl.wq, wearEvent_wq]

theorem repairWear_channels (stack : Nat) (c : Ctl) : (repairWear stack c).channels = c.channels := by
  simp [repairWear, wearEvent_channels]

theorem touchRow_wq (pc bk row n : Nat) (c : Ctl) : (touchRow pc bk row n c).wq = c.wq := Ctl.wq_of_unread (touchRow_unread ..)
theorem noteReads_wq (m : Mem) (ws : List Nat) (c : Ctl) : (noteReads m ws c).wq = c.wq := Ctl.wq_of_unread (noteReads_unread ..)
theorem touchRow_channels (pc bk row n : Nat) (c : Ctl) : (touchRow pc bk row n c).channels = c.channels :=
  Ctl.channels_of_aside (n := 0) (touchRow_aside ..)
theorem noteReads_channels (m : Mem) (ws : List Nat) (c : Ctl) : (noteReads m ws c).channels = c.channels :=
  Ctl.channels_of_aside (n := 0) (noteReads_aside ..)

theorem emit_channels (ws : List Wr) (c : Ctl) : (emit ws c).channels = c.channels := rfl
theorem Ctl.settle_repairDue (c : Ctl) : c.settle.store.repairDue = c.store.repairDue := rfl

theorem touchRow_repairDue (pc bk row n : Nat) (c : Ctl) : (touchRow pc bk row n c).store.repairDue = c.store.repairDue := by
  simp [touchRow, Ctl.setBank]

/-- The listed words of a row. -/
def rowWords (m : Mem) (pc bk row : Nat) : List Nat := (rowChunks pc bk row).flatMap fun a => m.listedWords a (a + 512)

/-- The words of a row that are not clean go back into it. -/
def rowWrites (m : Mem) (pc bk row : Nat) : List Wr :=
  ((rowWords m pc bk row).filter fun w => (m.readWord w).found ≠ .clean).flatMap (writeBack m)

/-- A row is due for repair no longer. -/
def Store.forgetRow (k : Nat) (s : Store) : Store :=
  { s with repairDue := s.repairDue.filter (· ≠ k), rowCorr := s.rowCorr.filter fun x => x.1 ≠ k }

/-- One of its bank's repairs is used for the row; its words that waited for their write-back are written. -/
def useRepair (k bank : Nat) (ws : List Nat) (c : Ctl) : Ctl :=
  c.withStore fun s => { s.forgetRow k with
    softRepairs := s.softRepairs ++ [k], repairsUsed := addAt s.repairsUsed bank 1, writeBacks := s.writeBacks.filter fun w => !ws.contains w }

/-- The words of the row are read and written back, and a repair of its bank is used. -/
def repairedRow (pc bk row : Nat) (m : Mem) (c : Ctl) : Ctl :=
  useRepair ((pc * 48 + bk) * 16384 + row) (pc * 48 + bk) (rowWords m pc bk row)
    (emit (rowWrites m pc bk row) (touchRow pc bk row 32 (noteReads m (rowWords m pc bk row) c)))

/-- The repair as it is counted, reported and warned of. -/
def reportRepair (pc bk row : Nat) (c : Ctl) : Ctl :=
  let counted := count .hbmRowRepair (pc / 32) 1 (touchRow pc bk row 32 (refreshBank pc bk c))
  repairWear (pc / 32) (serviceEvent 4 5 (pc / 32) (repairsLeft counted (pc / 32)) counted)

/-- The frames that the row reaches serve no longer, and the row is due no longer. -/
def retireFrames (pc bk row : Nat) (c : Ctl) : Ctl :=
  c.withStore fun s => { s.forgetRow ((pc * 48 + bk) * 16384 + row) with
    retiredFrames := (s.retiredFrames ++ (rowChunks pc bk row).map (· / 0x10000)).eraseDups }

section
variable {pc bk row : Nat} {c : Ctl} (hon : c.hbmOn = true) (hlee : c.service.lee = false)
  (hdue : (pc * 48 + bk) * 16384 + row ∈ c.store.repairDue) (hpoint : c.atPoint = true) (hidle : c.galeIdle = true)
include hon hlee hdue hpoint hidle

theorem repairRow_of_left (hleft : SMap.get 0 c.store.repairsUsed (pc * 48 + bk) < Config.repairsPerBank) (m : Mem) :
    repairRow pc bk row m c = reportRepair pc bk row (repairedRow pc bk row m c) := by
  have hserves : ¬((!c.hbmOn) = true ∨ c.service.lee = true ∨ (!c.store.repairDue.contains ((pc * 48 + bk) * 16384 + row)) = true ∨
      (!c.atPoint) = true ∨ (!c.galeIdle) = true) := by simp [hon, hlee, hdue, hpoint, hidle]
  exact (if_neg hserves).trans (if_pos hleft)

theorem repairRow_of_none (hnone : Config.repairsPerBank ≤ SMap.get 0 c.store.repairsUsed (pc * 48 + bk)) (m : Mem) :
    repairRow pc bk row m c = serviceEvent 4 5 (pc / 32) (repairsLeft (retireFrames pc bk row c) (pc / 32)) (retireFrames pc bk row c) := by
  have hserves : ¬((!c.hbmOn) = true ∨ c.service.lee = true ∨ (!c.store.repairDue.contains ((pc * 48 + bk) * 16384 + row)) = true ∨
      (!c.atPoint) = true ∨ (!c.galeIdle) = true) := by simp [hon, hlee, hdue, hpoint, hidle]
  exact (if_neg hserves).trans (if_neg (not_lt.mpr hnone))
end

section
variable (pc bk row : Nat) (m : Mem) (c : Ctl)

theorem useRepair_counter (k bank : Nat) (ws : List Nat) (n : Cnt) (i : Nat) : (useRepair k bank ws c).counter n i = c.counter n i := rfl
theorem useRepair_wq (k bank : Nat) (ws : List Nat) : (useRepair k bank ws c).wq = c.wq := rfl
theorem useRepair_store (k bank : Nat) (ws : List Nat) : (useRepair k bank ws c).store.repairDue = c.store.repairDue.filter (· ≠ k) ∧
    (useRepair k bank ws c).store.softRepairs = c.store.softRepairs ++ [k] ∧
    (useRepair k bank ws c).store.repairsUsed = addAt c.store.repairsUsed bank 1 ∧
    (useRepair k bank ws c).store.retiredFrames = c.store.retiredFrames := ⟨rfl, rfl, rfl, rfl⟩

/-- The words are read before anything of the row changes. -/
theorem rowRead_channels : (emit (rowWrites m pc bk row) (touchRow pc bk row 32 (noteReads m (rowWords m pc bk row) c))).channels =
    c.channels := by rw [emit_channels, touchRow_channels, noteReads_channels]

theorem repairedRow_wq : (repairedRow pc bk row m c).wq = c.wq ++ rowWrites m pc bk row := by
  rw [repairedRow, useRepair_wq, emit_wq, touchRow_wq, noteReads_wq]

theorem repairedRow_counter {n : Cnt} (hn : n.ofChannel = true) (i : Nat) : (repairedRow pc bk row m c).counter n i = c.counter n i := by
  rw [repairedRow, useRepair_counter, Ctl.counter_of_channels (rowRead_channels ..) hn]

/-- What the repair changes of the bank's repairs, and what it leaves. -/
theorem repairedRow_store : (pc * 48 + bk) * 16384 + row ∉ (repairedRow pc bk row m c).store.repairDue ∧
    (repairedRow pc bk row m c).store.softRepairs = c.store.softRepairs ++ [(pc * 48 + bk) * 16384 + row] ∧
    (repairedRow pc bk row m c).store.repairsUsed = addAt c.store.repairsUsed (pc * 48 + bk) 1 ∧
    (repairedRow pc bk row m c).store.retiredFrames = c.store.retiredFrames := by
  have hread := rowRead_channels pc bk row m c
  obtain ⟨hdue, hsoft, hused, hretired⟩ := useRepair_store
    (emit (rowWrites m pc bk row) (touchRow pc bk row 32 (noteReads m (rowWords m pc bk row) c)))
    ((pc * 48 + bk) * 16384 + row) (pc * 48 + bk) (rowWords m pc bk row)
  refine ⟨?_, hsoft.trans (by rw [Ctl.softRepairs_of_channels hread]), hused.trans (by rw [Ctl.repairsUsed_of_channels hread]),
    hretired.trans (Ctl.retiredFrames_of_channels hread)⟩
  rw [repairedRow, hdue]
  simp

theorem reportRepair_wq : (reportRepair pc bk row c).wq = c.wq := by
  unfold reportRepair
  extract_lets counted
  have hcounted : counted.wq = c.wq := (count_wq ..).trans (touchRow_wq ..)
  rw [repairWear_wq, serviceEvent_wq, hcounted]

theorem reportRepair_repairDue : (reportRepair pc bk row c).store.repairDue = c.store.repairDue := by
  unfold reportRepair
  extract_lets counted
  have hcounted : counted.store.repairDue = c.store.repairDue :=
    (congrArg Store.repairDue (count_store ..)).trans (touchRow_repairDue ..)
  rw [repairWear_store, serviceEvent_store, hcounted]

/-- A repair is counted, and nothing else of the channels changes. -/
theorem reportRepair_store : (reportRepair pc bk row c).store.softRepairs = c.store.softRepairs ∧
    (reportRepair pc bk row c).store.repairsUsed = c.store.repairsUsed ∧
    (reportRepair pc bk row c).store.retiredFrames = c.store.retiredFrames := by
  unfold reportRepair
  extract_lets counted
  have htouched : (touchRow pc bk row 32 (refreshBank pc bk c)).channels = c.channels := touchRow_channels ..
  have hcounted : counted.store = (touchRow pc bk row 32 (refreshBank pc bk c)).store := count_store ..
  rw [repairWear_store, serviceEvent_store, hcounted]
  exact ⟨Ctl.softRepairs_of_channels htouched, Ctl.repairsUsed_of_channels htouched, Ctl.retiredFrames_of_channels htouched⟩

theorem reportRepair_counter (i : Nat) : ∃ d : Ctl, d.counter .hbmRowRepair i = c.counter .hbmRowRepair i ∧
    (reportRepair pc bk row c).counter .hbmRowRepair i = (count .hbmRowRepair (pc / 32) 1 d).counter .hbmRowRepair i := by
  refine ⟨touchRow pc bk row 32 (refreshBank pc bk c), Ctl.counter_of_channels (touchRow_channels ..) rfl i, ?_⟩
  rw [reportRepair, Ctl.counter_of_channels (repairWear_channels ..) rfl, serviceEvent_counter rfl]
end

section
variable {s : State} {pc bk row : Nat} (hs : s.ready) (hon : s.ctl.hbmOn = true) (hlee : s.ctl.service.lee = false)
  (hdue : (pc * 48 + bk) * 16384 + row ∈ s.ctl.store.repairDue) (hpoint : s.ctl.atPoint = true) (hidle : s.ctl.galeIdle = true)
include hs hon hlee hdue hpoint hidle

/-- A repair is left: the row is repaired and its words stand. -/
theorem rowRepair_of_left (hleft : SMap.get 0 s.ctl.store.repairsUsed (pc * 48 + bk) < Config.repairsPerBank) :
    let t := s.run (repairRow pc bk row)
    (pc * 48 + bk) * 16384 + row ∉ t.ctl.store.repairDue ∧
      t.ctl.store.softRepairs = s.ctl.store.softRepairs ++ [(pc * 48 + bk) * 16384 + row] ∧
      SMap.get 0 t.ctl.store.repairsUsed (pc * 48 + bk) = SMap.get 0 s.ctl.store.repairsUsed (pc * 48 + bk) + 1 ∧
      t.ctl.store.retiredFrames = s.ctl.store.retiredFrames ∧ counted .hbmRowRepair (pc / 32) 1 s t ∧
      t.mem = s.mem.apply (rowWrites s.mem pc bk row) := by
  intro t
  have hend := repairRow_of_left hon hlee hdue hpoint hidle hleft s.mem
  have hchannels : t.ctl.channels = (reportRepair pc bk row (repairedRow pc bk row s.mem s.ctl)).channels := hend ▸ State.run_channels _ s
  obtain ⟨hforgot, hsoft, hused, hretired⟩ := repairedRow_store pc bk row s.mem s.ctl
  obtain ⟨hsoft', hused', hretired'⟩ := reportRepair_store pc bk row (repairedRow pc bk row s.mem s.ctl)
  obtain ⟨d, hd, hcounter⟩ := reportRepair_counter pc bk row (repairedRow pc bk row s.mem s.ctl) (pc / 32)
  refine ⟨?_, ?_, ?_, ?_, counted_of_channels rfl (hend ▸ hcounter) (hd.trans (repairedRow_counter _ _ _ _ _ rfl _)), ?_⟩
  · have hstore : t.ctl.store.repairDue = (reportRepair pc bk row (repairedRow pc bk row s.mem s.ctl)).store.repairDue := by
      rw [State.run_store, hend, Ctl.settle_repairDue]
    rwa [hstore, reportRepair_repairDue]
  · rw [Ctl.softRepairs_of_channels hchannels, hsoft', hsoft]
  · rw [Ctl.repairsUsed_of_channels hchannels, hused', hused, addAt_get, if_pos rfl]
  · rw [Ctl.retiredFrames_of_channels hchannels, hretired', hretired]
  · rw [State.run_mem, hend, reportRepair_wq, repairedRow_wq, hs.2, List.nil_append]

/-- No repair is left: the row's frames are retired. -/
theorem rowRepair_of_none (hnone : Config.repairsPerBank ≤ SMap.get 0 s.ctl.store.repairsUsed (pc * 48 + bk)) :
    let t := s.run (repairRow pc bk row)
    (pc * 48 + bk) * 16384 + row ∉ t.ctl.store.repairDue ∧ sameMem s t ∧ t.ctl.store.softRepairs = s.ctl.store.softRepairs ∧
      ∀ a ∈ rowChunks pc bk row, a / 0x10000 ∈ t.ctl.store.retiredFrames := by
  intro t
  have hend := repairRow_of_none hon hlee hdue hpoint hidle hnone s.mem
  have hstore : t.ctl.store = (retireFrames pc bk row s.ctl).settle.store := by
    have hsettled : (serviceEvent 4 5 (pc / 32) (repairsLeft (retireFrames pc bk row s.ctl) (pc / 32)) (retireFrames pc bk row s.ctl)).settle.store =
        (retireFrames pc bk row s.ctl).settle.store := by rw [Ctl.settle, Ctl.settle, serviceEvent_wq, serviceEvent_store]
    rw [State.run_store, hend, hsettled]
  refine ⟨?_, sameMem_of_run ?_, ?_, fun a ha => ?_⟩
  · rw [hstore]
    exact fun h => by simpa using (List.mem_filter.mp h).2
  · rw [hend, serviceEvent_wq]
    exact hs.2
  · rw [hstore]
    rfl
  · rw [hstore]
    exact List.mem_eraseDups.mpr (List.mem_append_right _ (List.mem_map_of_mem ha))
end

/-- Settles O49: what an alert, a retraining and a failure leave of the channels goes through the ends of jobs and the entry into Lee
mode, which keep them. -/
theorem hbmBanksAndChannels : Obligations.HbmBanksAndChannels := by
  intro s pc bk hs hon hpc hbk
  refine ⟨completes_perBankRefresh hs hon hpc, completes_refreshDeadline hs hon hpc hbk,
    fun hkept => ⟨completes_rowCloseTimeout hs hon hpc hbk hkept, fun _ => exec_rowCloseTimeout_of_queued hs⟩,
    fun good ok hfailed => completes_caParityAlert hs hon hpc hfailed good ok rfl,
    fun ok hfailed => ⟨completes_retraining hs hon hpc hfailed ok, completes_forcedRetraining hs hon hpc hfailed ok⟩,
    fun _ => completes_stackNotResponding hon, fun row hlee => exec_eq_self hs rfl (if_pos (.inr (.inl hlee))),
    fun row hdue hlee hpoint hidle => ⟨_, rfl, ?_⟩⟩
  obtain hleft | hnone := lt_or_ge (SMap.get 0 s.ctl.store.repairsUsed (pc * 48 + bk)) Config.repairsPerBank
  · obtain ⟨hforgot, hkept⟩ := rowRepair_of_left hs hon hlee hdue hpoint hidle hleft
    exact ⟨hforgot, fun _ => hkept, fun h => absurd hleft (not_lt.mpr h)⟩
  · obtain ⟨hforgot, hkept⟩ := rowRepair_of_none hs hon hlee hdue hpoint hidle hnone
    exact ⟨hforgot, fun h => absurd h (not_lt.mpr hnone), fun _ => hkept⟩

end Sys2Proof.Machine
end

section
/-! SUPPORT for O48. A page-in that takes a frame, and what reads of the flash leave (11 R355 to R358, R362). -/

namespace Sys2Proof.Machine

/-! ### Frames that evictions make (R356, R358) -/

/-- What an eviction leaves of the page-ins and of the waiting writes. -/
theorem evict_pageIns (r : Resident) (c : Ctl) : (evict r c).store.pageIns = c.store.pageIns ∧ (evict r c).wq = c.wq := by
  unfold evict
  dsimp only
  rw [count_store, count_wq]
  exact ⟨rfl, rfl⟩

theorem makeFrame_pageIns {m : Mem} {n : Nat} {keep : List (Nat × Bool)} {k f : Nat} {c c' : Ctl}
    (h : makeFrame m n keep k c = some (f, c')) : c'.store.pageIns = c.store.pageIns ∧ c'.wq = c.wq := by
  induction k generalizing c with
  | zero =>
    obtain ⟨f', -, heq⟩ := Option.map_eq_some_iff.mp h
    cases heq
    exact ⟨rfl, rfl⟩
  | succ k ih =>
    rw [makeFrame] at h
    split at h
    · cases h
      exact ⟨rfl, rfl⟩
    · dsimp only at h
      split at h
      · rename_i v _
        obtain ⟨hpageIns, hwq⟩ := ih h
        exact ⟨hpageIns.trans (foldl_keeps (fun c : Ctl => c.store.pageIns) (fun c r => (evict_pageIns r c).1) _ _),
          hwq.trans (foldl_keeps Ctl.wq (fun c r => (evict_pageIns r c).2) _ _)⟩
      · cases h

/-- The control state without packets, counters and the writes that wait. -/
def Ctl.unwritten (c : Ctl) : Ctl := { c.quiet with wq := [] }

theorem evict_unwritten (r : Resident) {a b : Ctl} (h : a.unwritten = b.unwritten) : (evict r a).unwritten = (evict r b).unwritten := by
  have hevict (c : Ctl) : (evict r c).unwritten = (setResident r.flashAddr r.big none c.unwritten).withStore fun s =>
      { s with residents := s.residents.filter fun q => q ≠ r } := by
    rw [Ctl.unwritten, evict, count_quiet]
    rfl
  rw [hevict, hevict, h]

/-- Whether a frame can be made does not depend on the writes that wait. -/
theorem makeFrame_isSome_of_unwritten (m : Mem) (n : Nat) (keep : List (Nat × Bool)) (k : Nat) {a b : Ctl} (h : a.unwritten = b.unwritten) :
    (makeFrame m n keep k a).isSome = (makeFrame m n keep k b).isSome := by
  have hfree {a b : Ctl} (h : a.unwritten = b.unwritten) : a.freeFrame n = b.freeFrame n :=
    (congrArg (fun c : Ctl => c.freeFrame n) h : a.unwritten.freeFrame n = b.unwritten.freeFrame n)
  have hvictims {a b : Ctl} (h : a.unwritten = b.unwritten) : a.victims m n keep = b.victims m n keep :=
    (congrArg (fun c : Ctl => c.victims m n keep) h : a.unwritten.victims m n keep = b.unwritten.victims m n keep)
  have hfold (l : List Resident) : ∀ {a b : Ctl}, a.unwritten = b.unwritten →
      (l.foldl (fun c r => evict r c) a).unwritten = (l.foldl (fun c r => evict r c) b).unwritten := by
    induction l with
    | nil => exact id
    | cons r l ih => exact fun h => ih (evict_unwritten r h)
  induction k generalizing a b with
  | zero => rw [makeFrame, makeFrame, hfree h, Option.isSome_map, Option.isSome_map]
  | succ k ih =>
    rw [makeFrame, makeFrame, hfree h, hvictims h]
    split
    · rfl
    · dsimp only
      split
      · exact ih (hfold _ h)
      · rfl

/-- Reads of a stack wait whatever writes wait (R357). -/
theorem readsWait_emit (stack : Nat) (m : Mem) (ws : List Wr) (c : Ctl) : readsWait stack m (emit ws c) = readsWait stack m c := by
  have hnext : nextPageIn stack (emit ws c) = nextPageIn stack c := rfl
  unfold readsWait
  rw [hnext]
  cases nextPageIn stack c with
  | none => rfl
  | some a =>
    have hframe := makeFrame_isSome_of_unwritten m a.bytes [] (c.store.residents.length + 1) (a := emit ws c) (b := c) rfl
    exact congrArg _ hframe

/-! ### Reads of the flash (R352, R357, R362) -/

/-- From `a` to `b` pieces of the flash are read: packets, counters and refresh candidates join, and no write waits beside. -/
structure Ctl.Scans (a b : Ctl) : Prop where
  unread : b.unread = a.unread
  pages : b.store.pageIns = a.store.pageIns ∧ b.store.residents = a.store.residents
  blockMap : b.store.blockMap = a.store.blockMap
  due : ∀ k ∈ a.store.refreshDue, k ∈ b.store.refreshDue

namespace Ctl.Scans

theorem refl (a : Ctl) : a.Scans a := ⟨rfl, ⟨rfl, rfl⟩, rfl, fun _ => id⟩

theorem trans {a b c : Ctl} (h : a.Scans b) (h' : b.Scans c) : a.Scans c :=
  ⟨h'.unread.trans h.unread, ⟨h'.pages.1.trans h.pages.1, h'.pages.2.trans h.pages.2⟩, h'.blockMap.trans h.blockMap,
    fun k => h'.due k ∘ h.due k⟩

variable {a c : Ctl} (h : a.Scans c)
include h

/-- What is silent but for packets, counts and events. -/
theorem of_quiet {d : Ctl} (hquiet : d.quiet = c.quiet) : a.Scans d := by
  have hstore := Ctl.store_of_quiet hquiet
  refine h.trans ⟨Ctl.unread_of_quiet hquiet, ⟨?_, ?_⟩, ?_, fun k => ?_⟩ <;> rw [hstore]
  exact id

theorem ite {p : Prop} [Decidable p] {d : Ctl} (h' : a.Scans d) : a.Scans (if p then c else d) := by
  split
  · exact h
  · exact h'

theorem foldl {α : Type} {f : Ctl → α → Ctl} (hf : ∀ (c : Ctl) x, a.Scans c → a.Scans (f c x)) (l : List α) : a.Scans (l.foldl f c) := by
  induction l generalizing c with
  | nil => exact h
  | cons x l ih => exact ih (hf c x h)

theorem withStore {f : Store → Store} (hpages : (f c.store).pageIns = c.store.pageIns ∧ (f c.store).residents = c.store.residents)
    (hmap : (f c.store).blockMap = c.store.blockMap) (hdue : ∀ k ∈ c.store.refreshDue, k ∈ (f c.store).refreshDue) :
    a.Scans (c.withStore f) := h.trans ⟨rfl, hpages, hmap, hdue⟩

theorem count (k : Cnt) (i n : Nat) : a.Scans (count k i n c) := h.of_quiet (count_quiet ..)
theorem serviceEvent (kind block inst value : Nat) : a.Scans (serviceEvent kind block inst value c) := h.of_quiet (serviceEvent_quiet ..)
theorem noteSuspends (stack n : Nat) : a.Scans (noteSuspends stack n c) := (h.count ..).ite h

theorem readPieces (ps : List Nat) : a.Scans (readPieces ps c) :=
  (h.withStore ⟨rfl, rfl⟩ rfl fun _ => id).foldl
    (fun _ _ hc => (hc.withStore ⟨rfl, rfl⟩ rfl fun _ => List.mem_append_left _).ite hc) _

theorem readUnit (m : Mem) (w : Nat) : a.Scans (readUnit m w c) :=
  (h.readPieces _).foldl (fun _ _ hc => (hc.count ..).ite hc) _

theorem noteFlash (m : Mem) (w : Nat) : a.Scans (noteFlash m w c) := by
  unfold Machine.noteFlash
  dsimp -zeta only
  extract_lets addr r candidate read uncorr no damaged
  have hread : a.Scans read := h.readUnit m w
  have hcandidate {d : Ctl} (hd : a.Scans d) : a.Scans (candidate d) := by
    refine hd.withStore ⟨rfl, rfl⟩ rfl fun k hk => ?_
    dsimp only
    split
    · exact hk
    · exact List.mem_append_left _ hk
  have hdamaged : a.Scans damaged := (hread.count ..).withStore ⟨rfl, rfl⟩ rfl fun _ => id
  exact (h.count ..).ite (((hcandidate (hread.count ..)).ite (hdamaged.serviceEvent ..)).ite h)

theorem readFlash (m : Mem) (fa n : Nat) : a.Scans (readFlash m fa n c) :=
  h.ite ((h.readPieces _).foldl (fun _ _ hc => hc.noteFlash m _) _)

theorem setBank (k : Nat) (b : Bank) : a.Scans (c.setBank k b) := h.trans ⟨rfl, ⟨rfl, rfl⟩, rfl, fun _ => id⟩
theorem touchRow (pc bk row n : Nat) : a.Scans (touchRow pc bk row n c) := ((h.count ..).count ..).setBank ..
theorem touchHbm (addr n : Nat) : a.Scans (touchHbm addr n c) := h.foldl (fun _ _ hc => hc.touchRow ..) _

omit h in
theorem wq (h : a.Scans c) : c.wq = a.wq := Ctl.wq_of_unread h.unread
omit h in
theorem service (h : a.Scans c) : c.service = a.service := (congrArg Ctl.service h.unread : c.unread.service = a.unread.service)
omit h in
theorem jobs (h : a.Scans c) : c.jobs = a.jobs := Ctl.jobs_of_unread h.unread
omit h in
theorem blockOf (h : a.Scans c) (k : Nat) : c.blockOf k = a.blockOf k := by rw [Ctl.blockOf, Ctl.blockOf, h.blockMap]

end Ctl.Scans

end Sys2Proof.Machine
end

section
/-! SUPPORT for O48. Jobs that end with KS_FLASH_FAULT one after another: each that is hit has failed in the end, no other job has changed
but for how far its command is, and no context is frozen (11 R359; 13 R407). -/

namespace Sys2Proof.Machine

/-! ### Folds that reach what they are after -/

/-- A fold whose steps all keep `R`, and one step of which reaches `Q`, which `R` keeps. -/
theorem foldl_reaches {σ α : Type} {f : σ → α → σ} {R : σ → σ → Prop} (hrefl : ∀ s, R s s) (htrans : ∀ {s t u}, R s t → R t u → R s u)
    (hstep : ∀ s x, R s (f s x)) {Q : σ → Prop} (hkeep : ∀ {s t}, R s t → Q s → Q t) {l : List α} {x : α} (hx : x ∈ l) {s : σ}
    (hreach : ∀ t, R s t → Q (f t x)) : Q (l.foldl f s) := by
  have hfold (l : List α) (s : σ) : R s (l.foldl f s) := by
    induction l generalizing s with
    | nil => exact hrefl s
    | cons y l ih => exact htrans (hstep s y) (ih (f s y))
  obtain ⟨before, after, rfl⟩ := List.append_of_mem hx
  rw [List.foldl_append, List.foldl_cons]
  exact hkeep (hfold after _) (hreach _ (hfold before s))

/-! ### The jobs of one number -/

/-- The jobs of number `n`, each but for how far its command is. -/
def Ctl.named (n : Nat) (c : Ctl) : List Job := (c.jobs.filter fun j => j.no = n).map Job.still

theorem Ctl.named_of_others {a b : Ctl} {n k : Nat} (h : a.others k = b.others k) (hk : n ≠ k) : a.named n = b.named n := by
  have hnamed (c : Ctl) : c.named n = (c.others k).filter fun j => j.no = n := by
    rw [named, others, List.filter_map, List.filter_filter]
    refine congrArg (List.map Job.still) (List.filter_congr fun j _ => ?_)
    have hno : j.still.no = j.no := rfl
    by_cases hj : j.no = n
    · simp [hno, hj, hk]
    · simp [hno, hj]
  rw [hnamed, hnamed, h]

theorem Ctl.named_head (c : Ctl) (n : Nat) : (c.job? n).map Job.still = (c.named n).head? := by
  rw [named, List.head?_map, List.head?_filter]
  rfl

theorem Ctl.job?_of_named {a b : Ctl} {n : Nat} (h : b.named n = a.named n) {j : Job} (hj : a.job? n = some j) :
    ∃ k, b.job? n = some k ∧ k.still = j.still := by
  have hhead : (b.job? n).map Job.still = (a.job? n).map Job.still := by rw [named_head, named_head, h]
  rw [hj] at hhead
  exact Option.map_eq_some_iff.mp hhead

/-! ### Jobs that have failed -/

/-- The jobs of number `n` that are left have ended with KS_FLASH_FAULT. -/
def Ctl.flashFailed (n : Nat) (c : Ctl) : Prop := ∀ k ∈ c.jobs, k.no = n → k.ended = true ∧ k.lastStatus = KS.flashFault.code

theorem Ctl.flashFailed_of_named {a b : Ctl} {n : Nat} (h : b.named n = a.named n) (ha : a.flashFailed n) : b.flashFailed n := by
  intro k hk hkn
  have hmem : k.still ∈ a.named n := h ▸ List.mem_map_of_mem (List.mem_filter.mpr ⟨hk, by simpa using hkn⟩)
  obtain ⟨k', hk', hstill⟩ := List.mem_map.mp hmem
  obtain ⟨hmem', hno'⟩ := List.mem_filter.mp hk'
  obtain ⟨hended, hstatus⟩ := ha k' hmem' (by simpa using hno')
  exact ⟨(congrArg Job.ended hstill).symm.trans hended, (congrArg Job.lastStatus hstill).symm.trans hstatus⟩

/-- From `a` to `b` jobs have ended with KS_FLASH_FAULT, and nothing else has become of the jobs; no object has frozen. -/
structure Ctl.Fails (a b : Ctl) : Prop where
  channels : b.channels = a.channels
  frozen : b.sec.frozen = a.sec.frozen
  jobs : ∀ n, b.flashFailed n ∨ b.named n = a.named n

namespace Ctl.Fails

theorem refl (a : Ctl) : a.Fails a := ⟨rfl, rfl, fun _ => .inr rfl⟩

theorem keeps {a b : Ctl} {n : Nat} (h : a.Fails b) (ha : a.flashFailed n) : b.flashFailed n :=
  (h.jobs n).elim id fun hnamed => flashFailed_of_named hnamed ha

theorem trans {a b c : Ctl} (h : a.Fails b) (h' : b.Fails c) : a.Fails c := by
  refine ⟨h'.channels.trans h.channels, h'.frozen.trans h.frozen, fun n => ?_⟩
  obtain hfailed | hnamed := h.jobs n
  · exact .inl (h'.keeps hfailed)
  · exact (h'.jobs n).imp id fun hnamed' => hnamed'.trans hnamed

theorem foldl {α : Type} {f : Ctl → α → Ctl} (hf : ∀ (c : Ctl) x, c.Fails (f c x)) (l : List α) (c : Ctl) : c.Fails (l.foldl f c) := by
  induction l generalizing c with
  | nil => exact refl c
  | cons x l ih => exact (hf c x).trans (ih (f c x))

theorem ite {p : Prop} [Decidable p] {a b c : Ctl} (hb : a.Fails b) (hc : a.Fails c) : a.Fails (if p then b else c) := by
  split
  · exact hb
  · exact hc

end Ctl.Fails

/-- A job that has not ended ends with KS_FLASH_FAULT, and is the only one. -/
theorem endJobWith_fails (m : Mem) {no idx tag : Nat} {c : Ctl} {j : Job} (hj : c.job? no = some j) (he : j.ended = false) :
    c.Fails (endJobWith [] m no .flashFault 4 idx tag c) ∧ (endJobWith [] m no .flashFault 4 idx tag c).flashFailed no := by
  have haside := endJobWith_aside [] m no .flashFault 4 idx tag c
  have hfailed : (endJobWith [] m no .flashFault 4 idx tag c).flashFailed no := by
    obtain ⟨freed, -, -, hjobs⟩ := endJobWith_entry [] m .flashFault 4 idx tag hj he
    intro k hk hkn
    rw [hjobs, Ctl.withoutRun] at hk
    split at hk
    · obtain ⟨k', -, rfl⟩ := List.mem_map.mp hk
      by_cases hk' : k'.no = no
      · rw [if_pos hk']
        exact ⟨rfl, rfl⟩
      · rw [if_neg hk'] at hkn
        exact absurd hkn hk'
    · exact absurd hkn (by simpa using (List.mem_filter.mp hk).2)
  refine ⟨⟨Ctl.channels_of_aside haside, congrArg (·.1) (endJobWith_estate [] m no .flashFault 4 idx tag c), fun n => ?_⟩, hfailed⟩
  by_cases hn : n = no
  · exact .inl (hn ▸ hfailed)
  · exact .inr (Ctl.named_of_others (congrArg (·.1) haside) hn)

/-- The end of a job whose number is found, or of none. -/
theorem endJob_fails (m : Mem) {no idx tag : Nat} {c : Ctl} {j : Job} (hj : c.job? no = some j) :
    c.Fails (endJob m no .flashFault 4 idx tag c) := by
  cases he : j.ended with
  | false => exact (endJobWith_fails m hj he).1
  | true =>
    have hsame : endJob m no .flashFault 4 idx tag c = c := by simp [endJob, endJobWith, hj, he]
    rw [hsame]
    exact .refl c

theorem failAt_fails (m : Mem) (no idx : Nat) (c : Ctl) : c.Fails (failAt m no .flashFault idx c) := by
  unfold failAt
  split
  · exact endJob_fails m ‹_›
  · exact .refl c

theorem failJob_fails (m : Mem) (no : Nat) (c : Ctl) : c.Fails (failJob m no .flashFault c) := by
  unfold failJob
  split
  · exact endJob_fails m ‹_›
  · exact .refl c

theorem failAt_flashFailed (m : Mem) {no : Nat} (idx : Nat) {c : Ctl} {j : Job} (hj : c.job? no = some j) (he : j.ended = false) :
    (failAt m no .flashFault idx c).flashFailed no := by
  rw [failAt_of_job hj]
  exact (endJobWith_fails m hj he).2

theorem streamFault_of_flashFault (m : Mem) {x : Ctx} {c : Ctl} {j : Job} (hj : c.job? x.job = some j) :
    streamFault m .flashFault false x c = failAt m x.job .flashFault (tCmd (j.stream x.pos.record)) c := by
  rw [streamFault, hj]
  rfl

/-! ### A page-in that fails (R359) -/

/-- The page-in leaves the queues. -/
def dropPageIn (q : PageIn) (c : Ctl) : Ctl := c.withStore fun s => { s with pageIns := s.pageIns.filter (· ≠ q) }

/-- A stream that is halted on the page ends its job. -/
def failCtx (q : PageIn) (m : Mem) (c : Ctl) (x : Ctx) : Ctl :=
  match c.job? x.job with
  | some j => if x.pos.halted ∧ posIn m j x.pos q.flashAddr q.big then streamFault m .flashFault false x c else c
  | none => c

/-- A stream that was saved while halted on it ends its job. -/
def failSaved (q : PageIn) (m : Mem) (c : Ctl) (j0 : Job) : Ctl :=
  match c.job? j0.no with
  | some j =>
    (match j.saved.find? fun p => p.halted && posIn m j p q.flashAddr q.big with
    | some p => if j.ended then c else failAt m j.no .flashFault (tCmd (j.stream p.record)) c
    | none => c)
  | none => c

/-- The list that holds the Plane ends where a wait of it is for the page. -/
def failHolder (q : PageIn) (m : Mem) (c : Ctl) : Ctl :=
  match c.holding with
  | some j =>
    let names (va : Nat) : Bool :=
      match j.page? va with | some p => p.flash && p.flashAddr == q.flashAddr && p.big == q.big | none => false
    let miss : List (Nat × Nat) :=
      if c.plane.operandWait.isNone then []
      else if j.kind = .array ∧ j.exec.phase = 1 then ((allGroups m c j j.now j.exec).run Port.empty).2.miss
      else match c.plane.drain with
        | some d => (match completeDrain m d j c with | .error (.operandWait l _, _) => l | _ => [])
        | none => []
    if miss.any fun x => names x.2 then failJob m j.no .flashFault c else c
  | none => c

/-- The contexts' streams come first. -/
def failCtxs (q : PageIn) (m : Mem) (c : Ctl) : Ctl := c.ctxs.foldl (failCtx q m) c
def failSaves (q : PageIn) (m : Mem) (c : Ctl) : Ctl := c.jobs.foldl (failSaved q m) c

theorem pageInFails_eq (q : PageIn) (m : Mem) (c : Ctl) :
    pageInFails q m c = failHolder q m (failSaves q m (failCtxs q m (dropPageIn q c))) := rfl

section
variable (q : PageIn) (m : Mem) (c : Ctl)

theorem failCtx_fails (x : Ctx) : c.Fails (failCtx q m c x) := by
  unfold failCtx
  split
  · rename_i j hj
    rw [streamFault_of_flashFault m hj]
    exact (failAt_fails ..).ite (.refl c)
  · exact .refl c

theorem failSaved_fails (j : Job) : c.Fails (failSaved q m c j) := by
  unfold failSaved
  split
  · split
    · exact (Ctl.Fails.refl c).ite (failAt_fails ..)
    · exact .refl c
  · exact .refl c

theorem failHolder_fails : c.Fails (failHolder q m c) := by
  unfold failHolder
  split
  · exact (failJob_fails ..).ite (.refl c)
  · exact .refl c

theorem failCtxs_fails : c.Fails (failCtxs q m c) := .foldl (fun c x => failCtx_fails q m c x) _ c
theorem failSaves_fails : c.Fails (failSaves q m c) := .foldl (fun c j => failSaved_fails q m c j) _ c

theorem pageInFails_fails : (dropPageIn q c).Fails (pageInFails q m c) :=
  ((failCtxs_fails ..).trans (failSaves_fails ..)).trans (failHolder_fails ..)
end

/-- The pages of a job say where its streams stand, whatever its command does. -/
theorem posIn_still (m : Mem) (j : Job) (p : StreamPos) (fa : Nat) (big : Bool) : posIn m j.still p fa big = posIn m j p fa big := rfl

theorem posIn_of_still {j k : Job} (h : k.still = j.still) (m : Mem) (p : StreamPos) (fa : Nat) (big : Bool) :
    posIn m k p fa big = posIn m j p fa big := by rw [← posIn_still m k, h, posIn_still]

theorem Job.ended_of_still {j k : Job} (h : k.still = j.still) : k.ended = j.ended :=
  (congrArg Job.ended h : k.still.ended = j.still.ended)

theorem Job.saved_of_still {j k : Job} (h : k.still = j.still) : k.saved = j.saved :=
  (congrArg Job.saved h : k.still.saved = j.still.saved)

section
variable {q : PageIn} (m : Mem) {c : Ctl} {j : Job} (he : j.ended = false)
include he

/-- A job with a stream halted on the page has failed in the end. -/
theorem failCtxs_flashFailed {x : Ctx} (hx : x ∈ c.ctxs) (hj : c.job? x.job = some j) (hhalted : x.pos.halted = true)
    (hpos : posIn m j x.pos q.flashAddr q.big = true) : (failCtxs q m c).flashFailed x.job := by
  refine foldl_reaches (R := Ctl.Fails) Ctl.Fails.refl Ctl.Fails.trans (failCtx_fails q m) Ctl.Fails.keeps hx fun d hd => ?_
  obtain hfailed | hnamed := hd.jobs x.job
  · exact (failCtx_fails q m d x).keeps hfailed
  · obtain ⟨k, hk, hstill⟩ := Ctl.job?_of_named hnamed hj
    have hhit : x.pos.halted ∧ posIn m k x.pos q.flashAddr q.big := ⟨hhalted, posIn_of_still hstill m .. ▸ hpos⟩
    have hstep : failCtx q m d x = streamFault m .flashFault false x d := by
      rw [failCtx, hk]
      exact if_pos hhit
    rw [hstep, streamFault_of_flashFault m hk]
    exact failAt_flashFailed m _ hk ((Job.ended_of_still hstill).trans he)

/-- A job with a stream saved that is halted on the page has failed in the end. -/
theorem failSaves_flashFailed (hj : c.job? j.no = some j) {p : StreamPos} (hp : p ∈ j.saved) (hhalted : p.halted = true)
    (hpos : posIn m j p q.flashAddr q.big = true) : (failSaves q m c).flashFailed j.no := by
  refine foldl_reaches (R := Ctl.Fails) Ctl.Fails.refl Ctl.Fails.trans (failSaved_fails q m) Ctl.Fails.keeps
    (List.mem_of_find?_eq_some hj) fun d hd => ?_
  obtain hfailed | hnamed := hd.jobs j.no
  · exact (failSaved_fails q m d j).keeps hfailed
  · obtain ⟨k, hk, hstill⟩ := Ctl.job?_of_named hnamed hj
    have hended : k.ended = false := (Job.ended_of_still hstill).trans he
    have hfound : (k.saved.find? fun p => p.halted && posIn m k p q.flashAddr q.big).isSome = true :=
      List.find?_isSome.mpr ⟨p, (Job.saved_of_still hstill).symm ▸ hp, by rw [hhalted, posIn_of_still hstill, hpos]; rfl⟩
    obtain ⟨p', hp'⟩ := Option.isSome_iff_exists.mp hfound
    have hstep : failSaved q m d j = failAt m j.no .flashFault (tCmd (k.stream p'.record)) d := by
      rw [failSaved, hk]
      dsimp only
      rw [hp', hended, Ctl.no_of_job? hk]
      rfl
    rw [hstep]
    exact failAt_flashFailed m _ hk hended
end

section
variable {q : PageIn} (m : Mem) {c : Ctl} {j : Job}

theorem pageInFails_of_ctx {x : Ctx} (hx : x ∈ c.ctxs) (hj : c.job? x.job = some j) (he : j.ended = false) (hhalted : x.pos.halted = true)
    (hpos : posIn m j x.pos q.flashAddr q.big = true) : (pageInFails q m c).flashFailed x.job :=
  ((failSaves_fails ..).trans (failHolder_fails ..)).keeps (failCtxs_flashFailed m he (c := dropPageIn q c) hx hj hhalted hpos)

theorem pageInFails_of_saved (hj : c.job? j.no = some j) (he : j.ended = false) {p : StreamPos} (hp : p ∈ j.saved)
    (hhalted : p.halted = true) (hpos : posIn m j p q.flashAddr q.big = true) : (pageInFails q m c).flashFailed j.no := by
  refine (failHolder_fails ..).keeps ?_
  obtain hfailed | hnamed := (failCtxs_fails q m (dropPageIn q c)).jobs j.no
  · exact (failSaves_fails ..).keeps hfailed
  · obtain ⟨k, hk, hstill⟩ := Ctl.job?_of_named hnamed (j := j) hj
    obtain hno := Ctl.no_of_job? hk
    rw [← hno] at hk ⊢
    exact failSaves_flashFailed m ((Job.ended_of_still hstill).trans he) hk ((Job.saved_of_still hstill).symm ▸ hp) hhalted
      ((posIn_of_still hstill m p ..).trans hpos)

/-- With no stream in a context or saved, and no list on the Plane, nothing fails with the page-in. -/
theorem pageInFails_of_nothing (q : PageIn) (hctxs : c.ctxs = []) (hholding : c.holding = none) (hsaved : ∀ j ∈ c.jobs, j.saved = []) :
    pageInFails q m c = dropPageIn q c := by
  have hctx : failCtxs q m (dropPageIn q c) = dropPageIn q c := by
    have hnone : (dropPageIn q c).ctxs = [] := hctxs
    rw [failCtxs, hnone, List.foldl_nil]
  have hsaves : failSaves q m (dropPageIn q c) = dropPageIn q c := by
    refine List.foldl_fixed' (fun j0 => ?_) _
    unfold failSaved
    split
    · rename_i j hj
      rw [hsaved j (List.mem_of_find?_eq_some hj), List.find?_nil]
    · rfl
  have hfree : (dropPageIn q c).holding = none := hholding
  rw [pageInFails_eq, hctx, hsaves, failHolder, hfree]
end

end Sys2Proof.Machine
end

section
/-! SUPPORT for O48. Page-ins that start and end (11 R355 to R359; 17 R510). -/

namespace Sys2Proof.Machine

/-! ### A page-in that starts (R356 to R358) -/

theorem nextPageIn_mem {stack : Nat} {c : Ctl} {a : PageIn} (h : nextPageIn stack c = some a) : a ∈ c.store.pageIns := by
  unfold nextPageIn at h
  split at h
  · rename_i b hb
    split at h
    · cases h
      exact List.mem_of_mem_filter (List.mem_of_find?_eq_some hb)
    · cases h
  · cases h

/-- Page-in `a` has taken frame `f`. -/
def takeFrame (a : PageIn) (f : Nat) (c : Ctl) : Ctl :=
  c.withStore fun s => { s with pageIns := s.pageIns.map fun x => if x = a then { x with frame := some f } else x }

theorem startPageIn_of_frame {stack : Nat} {m : Mem} {a : PageIn} {f : Nat} {c c' : Ctl} (hon : c.hbmOn = true)
    (hnext : nextPageIn stack c = some a) (hframe : makeFrame m a.bytes [] (c.store.residents.length + 1) c = some (f, c')) :
    startPageIn stack m c = takeFrame a f c' := by
  unfold startPageIn
  rw [if_neg (by simp [hon]), hnext]
  dsimp only
  rw [hframe]
  rfl

theorem startPageIn_of_none {stack : Nat} (m : Mem) {c : Ctl} (hnext : nextPageIn stack c = none) : startPageIn stack m c = c := by
  unfold startPageIn
  rw [hnext]
  exact ite_self _

theorem completes_pageInStart {s : State} (hs : s.ready) {stack f : Nat} {a : PageIn} {c' : Ctl} (hon : s.ctl.hbmOn = true)
    (hnext : nextPageIn stack s.ctl = some a)
    (hframe : makeFrame s.mem a.bytes [] (s.ctl.store.residents.length + 1) s.ctl = some (f, c')) :
    completes (.pageInStart stack) s fun t => sameMem s t ∧ t.ctl.store.residents = c'.store.residents ∧
      ∃ q ∈ t.ctl.store.pageIns, q.flashAddr = a.flashAddr ∧ q.big = a.big ∧ q.frame = some f := by
  have hend := startPageIn_of_frame hon hnext hframe
  obtain ⟨hpageIns, hwq⟩ := makeFrame_pageIns hframe
  have hstore : (s.run (startPageIn stack)).ctl.store = (takeFrame a f c').settle.store := by rw [State.run_store, hend]
  refine ⟨_, rfl, sameMem_of_run ?_, ?_, { a with frame := some f }, ?_, rfl, rfl, rfl⟩
  · rw [hend]
    exact hwq.trans hs.2
  · rw [hstore]
    rfl
  · rw [hstore]
    exact List.mem_map.mpr ⟨a, hpageIns ▸ nextPageIn_mem hnext, if_pos rfl⟩

/-! ### A page-in that ends (R355, R356, R359, R510) -/

/-- The suspensions of the stacks that the page-in reads are counted. -/
def pageInSuspends (stack suspends others : Nat) (q : PageIn) (c : Ctl) : Ctl :=
  if q.big then noteSuspends (1 - stack) others (noteSuspends stack suspends c) else noteSuspends stack suspends c

theorem noteSuspends_quiet (stack n : Nat) (c : Ctl) : (noteSuspends stack n c).quiet = c.quiet := by
  unfold noteSuspends
  split
  · exact count_quiet ..
  · rfl

theorem pageInSuspends_quiet (stack suspends others : Nat) (q : PageIn) (c : Ctl) :
    (pageInSuspends stack suspends others q c).quiet = c.quiet := by
  unfold pageInSuspends
  split <;> simp only [noteSuspends_quiet]

/-- The words of the page are in its frame, and the page-in leaves the queues. -/
def fillFrame (q : PageIn) (f : Nat) (m : Mem) (c : Ctl) : Ctl :=
  touchHbm f (q.bytes / 32) (dropPageIn q (count .flsPageIn q.cls 1
    (emit (pageWrites m q.flashAddr f q.bytes) (readFlash m q.flashAddr q.bytes c))))

/-- A job that goes on names the page. -/
def pageNamed (q : PageIn) (c : Ctl) : Bool :=
  c.jobs.any fun j => !j.ended && j.pages.any fun p => p.flash && p.flashAddr == q.flashAddr && p.big == q.big

section
variable {stack suspends others f : Nat} {dead : Bool} {q : PageIn} {m : Mem} {c : Ctl}
  (hq : c.store.pageIns.find? (fun q => q.uses stack && q.frame.isSome) = some q)
include hq

theorem endPageIn_of_lost (hlost : dead = true ∨ pieceLost m q.flashAddr q.bytes = true) :
    endPageIn stack dead suspends others m c = pageInFails q m (pageInSuspends stack suspends others q c) := by
  unfold endPageIn
  rw [hq]
  exact if_pos hlost

theorem endPageIn_of_read (hframe : q.frame = some f) (hdead : dead = false) (hread : pieceLost m q.flashAddr q.bytes = false) :
    endPageIn stack dead suspends others m c =
      let filled := fillFrame q f m (pageInSuspends stack suspends others q c)
      if filled.service.lee ∧ !pageNamed q filled then filled
      else unhalt (m.apply filled.wq) (becomeResident q.flashAddr q.big f q.asked filled) := by
  have hsound : ¬(dead = true ∨ pieceLost m q.flashAddr q.bytes = true) := by simp [hdead, hread]
  have hf : f = q.frame.getD 0 := by rw [hframe, Option.getD_some]
  subst hf
  unfold endPageIn
  rw [hq]
  exact if_neg hsound
end

section
variable (q : PageIn) (f : Nat) (m : Mem) (c : Ctl)

theorem dropPageIn_fields : (dropPageIn q c).wq = c.wq ∧ (dropPageIn q c).service = c.service ∧ (dropPageIn q c).jobs = c.jobs ∧
    (dropPageIn q c).store.pageIns = c.store.pageIns.filter (· ≠ q) ∧ (dropPageIn q c).store.residents = c.store.residents :=
  ⟨rfl, rfl, rfl, rfl, rfl⟩

/-- What filling the frame leaves, beside the words written. -/
theorem fillFrame_leaves : (fillFrame q f m c).wq = c.wq ++ pageWrites m q.flashAddr f q.bytes ∧
    (fillFrame q f m c).service = c.service ∧ (fillFrame q f m c).jobs = c.jobs ∧
    (fillFrame q f m c).store.pageIns = c.store.pageIns.filter (· ≠ q) ∧
    (fillFrame q f m c).store.residents = c.store.residents := by
  have hread := (Ctl.Scans.refl c).readFlash m q.flashAddr q.bytes
  have hcount := (Ctl.Scans.refl (emit (pageWrites m q.flashAddr f q.bytes) (readFlash m q.flashAddr q.bytes c))).count .flsPageIn q.cls 1
  obtain ⟨hwq, hservice, hjobs, hpageIns, hresidents⟩ := dropPageIn_fields q (count .flsPageIn q.cls 1
    (emit (pageWrites m q.flashAddr f q.bytes) (readFlash m q.flashAddr q.bytes c)))
  have htouch := (Ctl.Scans.refl (dropPageIn q (count .flsPageIn q.cls 1
    (emit (pageWrites m q.flashAddr f q.bytes) (readFlash m q.flashAddr q.bytes c))))).touchHbm f (q.bytes / 32)
  refine ⟨?_, ?_, ?_, ?_, ?_⟩
  · rw [fillFrame, htouch.wq, hwq, hcount.wq, emit_wq, hread.wq]
  · rw [fillFrame, htouch.service, hservice, hcount.service, emit_service, hread.service]
  · rw [fillFrame, htouch.jobs, hjobs, hcount.jobs, emit_jobs, hread.jobs]
  · rw [fillFrame, htouch.pages.1, hpageIns, hcount.pages.1, emit_store, hread.pages.1]
  · rw [fillFrame, htouch.pages.2, hresidents, hcount.pages.2, emit_store, hread.pages.2]
end

theorem Ctl.store_of_unwaited {a b : Ctl} (h : a.unwaited = b.unwaited) : a.store = b.store :=
  (congrArg Ctl.store h : a.unwaited.store = b.unwaited.store)

/-- The page becomes resident behind the others. -/
theorem becomeResident_fields (fa : Nat) (big : Bool) (f asked : Nat) (c : Ctl) : (becomeResident fa big f asked c).wq = c.wq ∧
    (becomeResident fa big f asked c).store.pageIns = c.store.pageIns ∧
    (becomeResident fa big f asked c).store.residents =
      c.store.residents ++ [{ flashAddr := fa, big := big, frame := f, lastRequest := asked }] := ⟨rfl, rfl, rfl⟩

section
variable (stack n o : Nat) (ups : List Upset) (q : PageIn) (s : State)

/-- The state in which page-in `q` ends: the upsets are in, and the suspensions counted. -/
def pageInReads : Ctl := pageInSuspends stack n o q (emit (upsetWrites s.mem ups) s.ctl)

theorem pageInReads_fields : (pageInReads stack n o ups q s).store = s.ctl.store ∧ (pageInReads stack n o ups q s).jobs = s.ctl.jobs ∧
    (pageInReads stack n o ups q s).ctxs = s.ctl.ctxs ∧ (pageInReads stack n o ups q s).plane = s.ctl.plane ∧
    (pageInReads stack n o ups q s).sec = s.ctl.sec ∧ (pageInReads stack n o ups q s).service = s.ctl.service ∧
    (pageInReads stack n o ups q s).wq = s.ctl.wq ++ upsetWrites s.mem ups := by
  have hquiet := pageInSuspends_quiet stack n o q (emit (upsetWrites s.mem ups) s.ctl)
  exact ⟨(Ctl.store_of_quiet hquiet).trans (emit_store ..), (Ctl.jobs_of_quiet hquiet).trans (emit_jobs ..),
    (Ctl.ctxs_of_quiet hquiet).trans (emit_ctxs ..), (Ctl.plane_of_quiet hquiet).trans (emit_plane ..),
    (Ctl.sec_of_quiet hquiet).trans (emit_sec ..), (Ctl.service_of_quiet hquiet).trans (emit_service ..),
    (Ctl.wq_of_quiet hquiet).trans (emit_wq ..)⟩
end

/-- What a step leaves failed has failed after it. -/
theorem flashFailed_run {f : Mem → Ctl → Ctl} {s : State} {no : Nat} (h : (f s.mem s.ctl).flashFailed no) :
    endedJob (s.run f) no ∧ ∀ k ∈ (s.run f).ctl.jobs, k.no = no → k.lastStatus = KS.flashFault.code := by
  rw [endedJob, State.run_jobs]
  exact ⟨fun k hk hno => (h k hk hno).1, fun k hk hno => (h k hk hno).2⟩

section
variable {s : State} (hs : s.ready) {stack n o : Nat} {ups : List Upset} {dead : Bool} {q : PageIn}
  (hq : s.ctl.store.pageIns.find? (fun q => q.uses stack && q.frame.isSome) = some q) {m : Mem} (hm : m = s.mem.apply (upsetWrites s.mem ups))
include hq hm

theorem endPageIn_withUpsets_of_lost (hlost : dead = true ∨ pieceLost m q.flashAddr q.bytes = true) :
    withUpsets ups (endPageIn stack dead n o) s.mem s.ctl = pageInFails q m (pageInReads stack n o ups q s) := by
  subst hm
  exact endPageIn_of_lost (c := emit (upsetWrites s.mem ups) s.ctl) hq hlost

theorem completes_pageInFails (hlost : dead = true ∨ pieceLost m q.flashAddr q.bytes = true) :
    completes (.pageInComplete stack ups dead n o) s fun t => t.ctl.store.pageIns = s.ctl.store.pageIns.filter (· ≠ q) ∧
      t.ctl.sec.frozen = s.ctl.sec.frozen ∧
      (∀ x ∈ s.ctl.ctxs, ∀ j, s.ctl.job? x.job = some j → j.ended = false → x.pos.halted = true →
        posIn m j x.pos q.flashAddr q.big = true →
        endedJob t j.no ∧ ∀ k ∈ t.ctl.jobs, k.no = j.no → k.lastStatus = KS.flashFault.code) ∧
      (∀ j ∈ s.ctl.jobs, s.ctl.job? j.no = some j → j.ended = false →
        (∃ p ∈ j.saved, p.halted = true ∧ posIn m j p q.flashAddr q.big = true) →
        endedJob t j.no ∧ ∀ k ∈ t.ctl.jobs, k.no = j.no → k.lastStatus = KS.flashFault.code) := by
  have hend := endPageIn_withUpsets_of_lost (n := n) (o := o) hq hm hlost
  obtain ⟨hstore, hjobs, hctxs, -, hsec, -, -⟩ := pageInReads_fields stack n o ups q s
  have hfails := pageInFails_fails q m (pageInReads stack n o ups q s)
  have hchannels := (State.run_channels (withUpsets ups (endPageIn stack dead n o)) s).trans (hend ▸ hfails.channels)
  refine ⟨_, rfl, (Ctl.pageIns_of_channels hchannels).trans ?_, ?_, fun x hx j hj he hhalted hpos => flashFailed_run ?_,
    fun j _ hj he ⟨p, hp, hhalted, hpos⟩ => flashFailed_run ?_⟩
  · obtain ⟨-, -, -, hpageIns, -⟩ := dropPageIn_fields q (pageInReads stack n o ups q s)
    rw [hpageIns, hstore]
  · rw [State.run_sec_frozen, hend, hfails.frozen]
    exact congrArg Sec.frozen hsec
  · rw [hend, Ctl.no_of_job? hj]
    exact pageInFails_of_ctx m (hctxs ▸ hx) ((Ctl.job?_of_jobs hjobs _).trans hj) he hhalted hpos
  · rw [hend]
    exact pageInFails_of_saved m ((Ctl.job?_of_jobs hjobs _).trans hj) he hp hhalted hpos

include hs in
/-- With nothing that waits for the page, it alone leaves the queues. -/
theorem completes_pageInFails_alone (hlost : dead = true ∨ pieceLost m q.flashAddr q.bytes = true) (hnone : s.ctl.ctxs = [])
    (hfree : s.ctl.holding = none) (hsaved : ∀ j ∈ s.ctl.jobs, j.saved = []) :
    completes (.pageInComplete stack ups dead n o) s fun t =>
      t.mem = m ∧ t.ctl.store.residents = s.ctl.store.residents ∧ t.ctl.jobs = s.ctl.jobs := by
  obtain ⟨hstore, hjobs, hctxs, hplane, -, -, hwq⟩ := pageInReads_fields stack n o ups q s
  have hholding : (pageInReads stack n o ups q s).holding = none := by
    have hjob : (pageInReads stack n o ups q s).job? = s.ctl.job? := funext (Ctl.job?_of_jobs hjobs)
    rw [Ctl.holding, hplane, hjob]
    exact hfree
  have hend := (endPageIn_withUpsets_of_lost (n := n) (o := o) hq hm hlost).trans
    (pageInFails_of_nothing m q (hctxs.trans hnone) hholding (hjobs ▸ hsaved))
  obtain ⟨hwq', -, hjobs', -, hresidents⟩ := dropPageIn_fields q (pageInReads stack n o ups q s)
  refine ⟨_, rfl, ?_, ?_, ?_⟩
  · rw [State.run_mem, hend, hwq', hwq, hs.2, List.nil_append, hm]
  · rw [State.run_store, hend]
    exact hresidents.trans (congrArg Store.residents hstore)
  · rw [State.run_jobs, hend, hjobs', hjobs]

include hs in
theorem completes_pageInComplete {f : Nat} (hframe : q.frame = some f) (hdead : dead = false)
    (hread : pieceLost m q.flashAddr q.bytes = false) :
    completes (.pageInComplete stack ups dead n o) s fun t => t.mem = m.apply (pageWrites m q.flashAddr f q.bytes) ∧
      t.ctl.store.pageIns = s.ctl.store.pageIns.filter (· ≠ q) ∧
      (s.ctl.service.lee = true → pageNamed q s.ctl = false → t.ctl.store.residents = s.ctl.store.residents) ∧
      (s.ctl.service.lee = false ∨ pageNamed q s.ctl = true →
        ∃ x, t.ctl.store.residents = s.ctl.store.residents ++ [x] ∧ x.flashAddr = q.flashAddr ∧ x.big = q.big ∧ x.frame = f ∧
          x.lastRequest = q.asked) := by
  subst hm
  obtain ⟨hstore, hjobs, -, -, -, hservice, hwq⟩ := pageInReads_fields stack n o ups q s
  obtain ⟨hwq', hservice', hjobs', hpageIns', hresidents'⟩ :=
    fillFrame_leaves q f (s.mem.apply (upsetWrites s.mem ups)) (pageInReads stack n o ups q s)
  generalize hfilled : fillFrame q f (s.mem.apply (upsetWrites s.mem ups)) (pageInReads stack n o ups q s) = filled at *
  rw [hwq, hs.2, List.nil_append] at hwq'
  rw [hstore] at hpageIns' hresidents'
  have hmem : s.mem.apply filled.wq = (s.mem.apply (upsetWrites s.mem ups)).apply
      (pageWrites (s.mem.apply (upsetWrites s.mem ups)) q.flashAddr f q.bytes) := by rw [hwq', Mem.apply_append]
  have hlee : filled.service.lee = s.ctl.service.lee := by rw [hservice', hservice]
  have hnamed : pageNamed q filled = pageNamed q s.ctl := by rw [pageNamed, pageNamed, hjobs', hjobs]
  have hend : withUpsets ups (endPageIn stack dead n o) s.mem s.ctl = if filled.service.lee ∧ !pageNamed q filled then filled
      else unhalt ((s.mem.apply (upsetWrites s.mem ups)).apply filled.wq) (becomeResident q.flashAddr q.big f q.asked filled) :=
    hfilled ▸ endPageIn_of_read (c := emit (upsetWrites s.mem ups) s.ctl) hq hframe hdead hread
  rw [hlee, hnamed] at hend
  by_cases hkept : s.ctl.service.lee = true ∧ (!pageNamed q s.ctl) = true
  · obtain ⟨hlee, hnamed⟩ := hkept
    rw [if_pos ⟨hlee, hnamed⟩] at hend
    refine ⟨_, rfl, ?_, ?_, fun _ _ => ?_, fun hor => absurd hor (by simp [hlee, (Bool.not_eq_true' _).mp hnamed])⟩
    · rw [State.run_mem, hend, hmem]
    · rw [State.run_store, hend]
      exact hpageIns'
    · rw [State.run_store, hend]
      exact hresidents'
  · rw [if_neg hkept] at hend
    have hsame := unhalt_unwaited ((s.mem.apply (upsetWrites s.mem ups)).apply filled.wq) (becomeResident q.flashAddr q.big f q.asked filled)
    obtain ⟨hwq₁, hpageIns₁, hresidents₁⟩ := becomeResident_fields q.flashAddr q.big f q.asked filled
    refine ⟨_, rfl, ?_, ?_, fun hlee hnamed => absurd ⟨hlee, by simp [hnamed]⟩ hkept, fun _ =>
      ⟨{ flashAddr := q.flashAddr, big := q.big, frame := f, lastRequest := q.asked }, ?_, rfl, rfl, rfl, rfl⟩⟩
    · rw [State.run_mem, hend, Ctl.wq_of_unwaited hsame, hwq₁, hmem]
    · rw [State.run_store, hend]
      exact (congrArg Store.pageIns (Ctl.store_of_unwaited hsame)).trans (hpageIns₁.trans hpageIns')
    · rw [State.run_store, hend]
      exact (congrArg Store.residents (Ctl.store_of_unwaited hsame)).trans (hresidents₁.trans (hresidents' ▸ rfl))
end

end Sys2Proof.Machine
end

section
/-! PROOF of O48. Page-ins, and the patrol, refresh, erasure and retirement of the weight flash (11 R352, R355 to R363). -/

namespace Sys2Proof.Machine

/-! ### The patrol (R357, R362) -/

/-- The pieces of an installed unit, and its parity piece. -/
def patrolPieces (unit : Nat) : List Nat := (List.range 16).map (fun i => flashBase + 0x10000 * unit + 4096 * i) ++ [parityPiece unit]

/-- Corrected words of a piece. -/
def correctedIn (m : Mem) (a : Nat) : Nat := (m.listedWords a (a + 4096)).countP fun w => (m.readWord w).found = .corrected

/-- The block of a piece with more than 4 corrected words becomes a candidate. -/
def noteCandidate (m : Mem) (c : Ctl) (a : Nat) : Ctl :=
  if 4 < correctedIn m a then
    c.withStore fun s => { s with refreshDue := (s.refreshDue ++ [c.blockOf (blockKey a)]).eraseDups }
  else c

/-- The pieces have been read. -/
def scanPieces (unit suspends : Nat) (m : Mem) (c : Ctl) : Ctl :=
  ((patrolPieces unit).flatMap fun a => m.listedWords a (a + 4096)).foldl (fun c w => noteFlash m w c)
    (readPieces (patrolPieces unit) (noteSuspends (unit % 2) suspends c))

theorem noteCandidate_scans (m : Mem) (c : Ctl) (a : Nat) : c.Scans (noteCandidate m c a) :=
  ((Ctl.Scans.refl c).withStore ⟨rfl, rfl⟩ rfl fun _ hk => List.mem_eraseDups.mpr (List.mem_append_left _ hk)).ite (.refl c)

theorem noteCandidate_due {m : Mem} {a : Nat} (h : 4 < correctedIn m a) (c : Ctl) :
    c.blockOf (blockKey a) ∈ (noteCandidate m c a).store.refreshDue := by
  rw [noteCandidate, if_pos h]
  exact List.mem_eraseDups.mpr (List.mem_append_right _ (List.mem_singleton_self _))

theorem scanPieces_scans (unit suspends : Nat) (m : Mem) (c : Ctl) : c.Scans (scanPieces unit suspends m c) :=
  (((Ctl.Scans.refl c).noteSuspends ..).readPieces _).foldl (fun _ _ hc => hc.noteFlash m _) _

section
variable {unit n : Nat} {m : Mem} {c : Ctl}

theorem patrolFlash_of_waits (hwaits : readsWait (unit % 2) m c = true) : patrolFlash unit n m c = c :=
  if_pos (.inr (.inr (.inr hwaits)))

theorem patrolFlash_of_reads (haccepting : c.accepting = true) (hend : flashBase + 0x10000 * unit < flashEnd)
    (hinstalled : c.installed (flashBase + 0x10000 * unit) = true) (hreads : readsWait (unit % 2) m c = false) :
    patrolFlash unit n m c = (patrolPieces unit).foldl (noteCandidate m) (scanPieces unit n m c) :=
  if_neg (by simp [haccepting, hinstalled, hreads, hend])

theorem noteCandidates_scans (l : List Nat) (c : Ctl) : c.Scans (l.foldl (noteCandidate m) c) :=
  (Ctl.Scans.refl c).foldl (fun d a hd => hd.trans (noteCandidate_scans m d a)) l
end

section
variable {s : State} (hs : s.ready) {unit n : Nat} {ups : List Upset} {m : Mem} (hm : m = s.mem.apply (upsetWrites s.mem ups))
include hs hm

theorem completes_flashPatrol_of_waits (hwaits : readsWait (unit % 2) m s.ctl = true) :
    completes (.flashPatrol unit ups n) s fun t => t.mem = m ∧ t.ctl.store.refreshDue = s.ctl.store.refreshDue := by
  subst hm
  have hend : withUpsets ups (patrolFlash unit n) s.mem s.ctl = emit (upsetWrites s.mem ups) s.ctl :=
    patrolFlash_of_waits ((readsWait_emit ..).trans hwaits)
  refine ⟨_, rfl, ?_, ?_⟩
  · rw [State.run_mem, hend, emit_wq, hs.2, List.nil_append]
  · rw [State.run_store, hend]
    rfl

theorem completes_flashPatrol (haccepting : s.ctl.accepting = true) (hbelow : flashBase + 0x10000 * unit < flashEnd)
    (hinstalled : s.ctl.installed (flashBase + 0x10000 * unit) = true) (hreads : readsWait (unit % 2) m s.ctl = false)
    {a : Nat} (ha : a ∈ patrolPieces unit) :
    completes (.flashPatrol unit ups n) s fun t => t.mem = m ∧ (∀ k ∈ s.ctl.store.refreshDue, k ∈ t.ctl.store.refreshDue) ∧
      (4 < correctedIn m a → s.ctl.blockOf (blockKey a) ∈ t.ctl.store.refreshDue) := by
  subst hm
  generalize hc : emit (upsetWrites s.mem ups) s.ctl = c
  generalize hm : s.mem.apply (upsetWrites s.mem ups) = m at *
  have hwq : c.wq = upsetWrites s.mem ups := by rw [← hc, emit_wq, hs.2, List.nil_append]
  have hend : withUpsets ups (patrolFlash unit n) s.mem s.ctl = (patrolPieces unit).foldl (noteCandidate m) (scanPieces unit n m c) := by
    rw [withUpsets, hm, hc]
    subst hc
    exact patrolFlash_of_reads haccepting hbelow hinstalled ((readsWait_emit ..).trans hreads)
  have hscanned := scanPieces_scans unit n m c
  have hall := hscanned.trans (noteCandidates_scans (m := m) (patrolPieces unit) _)
  refine ⟨_, rfl, ?_, fun k hk => ?_, fun hmany => ?_⟩
  · rw [State.run_mem, hend, hall.wq, hwq, hm]
  · rw [State.run_store, hend]
    exact hall.due k (hc ▸ hk)
  · have hblock : s.ctl.blockOf (blockKey a) = c.blockOf (blockKey a) := hc ▸ rfl
    rw [State.run_store, hend, hblock]
    refine foldl_reaches (R := Ctl.Scans) (Q := fun d => c.blockOf (blockKey a) ∈ d.store.refreshDue) Ctl.Scans.refl Ctl.Scans.trans
      (noteCandidate_scans m) (fun h => h.due _) ha fun d hd => ?_
    rw [← (hscanned.trans hd).blockOf]
    exact noteCandidate_due hmany d
end

/-! ### The refresh of a block (R357, R362) -/

/-- Block `key` is no candidate any more. -/
def dropDue (key : Nat) (c : Ctl) : Ctl := c.withStore fun s => { s with refreshDue := s.refreshDue.filter (· ≠ key) }

/-- The words of place `p` have been read, and those that were not clean are written in the new block. -/
def readPlace (p stack suspends : Nat) (m : Mem) (c : Ctl) : Ctl :=
  emit ((placeWords m p).flatMap fun w =>
    let r := (m.flashRead w).1
    if (m.readWord w).found = .clean ∨ (flashEnd ≤ 32 * w ∧ r.found = .uncorrectable) then [] else wholeWord w r.data r.tag)
    ((placeWords m p).foldl (fun c w => noteFlash m w c) (noteSuspends stack suspends c))

/-- Place `p` has block `new`, and its old block `key` is to be erased. -/
def movePlace (key p new : Nat) (c : Ctl) : Ctl :=
  (dropDue key c).withStore fun s =>
    { s with blockMap := SMap.put p s.blockMap p new,
             toErase := s.toErase ++ [key] ++ (if c.store.removed.any fun r => (bundleBlocks r.1 r.2).contains p then [new] else []),
             blockReads := SMap.put 0 s.blockReads new 0 }

/-- A candidate behind the page-ins, whose place is held and whose channel has a spare, moves. -/
theorem refreshBlock_of_spare {key suspends p new : Nat} {m : Mem} {c : Ctl} (haccepting : c.accepting = true)
    (hdue : key ∈ c.store.refreshDue) (hreads : readsWait (key / 4096 / 17) m c = false) (hplace : placeOf c key = some p)
    (hheld : p ∈ heldPlaces c) (hspare : sparePool c (key / 4096) = some new) :
    refreshBlock key suspends m c =
      count .flsRefresh (key / 4096 / 17) 1 (movePlace key p new (readPlace p (key / 4096 / 17) suspends m c)) := by
  have hgoes : ¬((!c.accepting) = true ∨ (!c.store.refreshDue.contains key) = true ∨ readsWait (key / 4096 / 17) m c = true) := by
    simp [haccepting, hdue, hreads]
  have hkept : ¬(!(heldPlaces c).contains p) = true := by simp [hheld]
  refine (if_neg hgoes).trans ?_
  rw [hplace]
  refine (if_neg hkept).trans ?_
  rw [hspare]
  rfl

theorem movePlace_fields (key p new : Nat) (c : Ctl) : (movePlace key p new c).settle.store.blockMap = SMap.put p c.store.blockMap p new ∧
    (movePlace key p new c).settle.store.blockReads = SMap.put 0 c.store.blockReads new 0 ∧
    (movePlace key p new c).settle.store.refreshDue = c.store.refreshDue.filter (· ≠ key) ∧
    key ∈ (movePlace key p new c).settle.store.toErase :=
  ⟨rfl, rfl, rfl, List.mem_append_left _ (List.mem_append_right _ (List.mem_singleton_self _))⟩

theorem completes_flashBlockRefresh {s : State} {ch b n p new : Nat} (haccepting : s.ctl.accepting = true)
    (hdue : ch * 4096 + b ∈ s.ctl.store.refreshDue) (hreads : readsWait ((ch * 4096 + b) / 4096 / 17) s.mem s.ctl = false)
    (hplace : placeOf s.ctl (ch * 4096 + b) = some p) (hheld : p ∈ heldPlaces s.ctl)
    (hspare : sparePool s.ctl ((ch * 4096 + b) / 4096) = some new) :
    completes (.flashBlockRefresh ch b n) s fun t => t.ctl.blockOf p = new ∧ SMap.get 0 t.ctl.store.blockReads new = 0 ∧
      ch * 4096 + b ∉ t.ctl.store.refreshDue ∧ ch * 4096 + b ∈ t.ctl.store.toErase := by
  have hend := refreshBlock_of_spare (suspends := n) haccepting hdue hreads hplace hheld hspare
  generalize readPlace p _ n s.mem s.ctl = d at hend
  have hstore : (s.run (refreshBlock (ch * 4096 + b) n)).ctl.store = (movePlace (ch * 4096 + b) p new d).settle.store := by
    rw [State.run_store, hend, Ctl.settle, Ctl.settle, count_store, count_wq]
  obtain ⟨hmap, hreads', hdue', herase⟩ := movePlace_fields (ch * 4096 + b) p new d
  refine ⟨_, rfl, ?_, ?_, ?_, hstore ▸ herase⟩
  · rw [Ctl.blockOf, hstore, hmap, SMap.get_put, if_pos rfl]
  · rw [hstore, hreads', SMap.get_put, if_pos rfl]
  · rw [hstore, hdue']
    simp

/-! ### Erasure and retirement (R361, R363) -/

/-- The store once `key` is retired, but for the spare that serves its place. -/
theorem retireBlock_store (key : Nat) (c : Ctl) : ∃ used map, (retireBlock key c).store =
    { c.store with blocksRetired := addAt c.store.blocksRetired (key / 4096) 1, badBlocks := c.store.badBlocks ++ [key],
                   toErase := c.store.toErase.filter (· ≠ key), refreshDue := c.store.refreshDue.filter (· ≠ key),
                   sparesUsed := used, blockMap := map } := by
  unfold retireBlock
  extract_lets ch stack spare served retired left counted
  have hcounted : counted.store = retired.store := (serviceEvent_store ..).trans (count_store ..)
  refine ⟨_, _, (foldl_keeps Ctl.store (fun d t => ?_) _ _).trans hcounted⟩
  split
  · exact wearEvent_store ..
  · rfl

theorem retireBlock_wq (key : Nat) (c : Ctl) : (retireBlock key c).wq = c.wq :=
  ((Ctl.Installs.refl c).retireBlock key).parts.2.2.2

/-- Block `key` is erased, or retired where it fails. -/
def finishErase (key : Nat) (ok : Bool) (c : Ctl) : Ctl :=
  if ok then
    c.withStore fun s =>
      { s with toErase := s.toErase.filter (· ≠ key), wear := addAt s.wear key 1, blockReads := SMap.put 0 s.blockReads key 0 }
  else retireBlock key c

/-- The removed ranges whose blocks, as `c` maps them, are all erased in `d`. -/
def clearedRanges (c d : Ctl) : List (Nat × Nat) :=
  d.store.removed.filter fun r => ((bundleBlocks r.1 r.2).map c.blockOf).all fun k => !d.store.toErase.contains k

/-- What is left of the ranges that are clear goes. -/
def clearRanges (m : Mem) (done : List (Nat × Nat)) (c : Ctl) : Ctl :=
  (emit (done.flatMap fun r => m.clearFlash r.1 (alignUp r.2 0x200000)) c).withStore fun s =>
    { s with removed := s.removed.filter fun r => !done.contains r,
             residents := s.residents.filter fun r => !done.any fun q => q.1 ≤ r.flashAddr && r.flashAddr < q.1 + alignUp q.2 0x200000 }

/-- A stack whose mean wear is high is reported (R504). -/
def reportWear (stack : Nat) (c : Ctl) : Ctl :=
  if 2400 ≤ readParam c (0x0B84 + stack) then wearEvent (0x700 + stack) 6 stack (flashSpareLeft c stack) c else c

theorem reportWear_fields (stack : Nat) (c : Ctl) : (reportWear stack c).store = c.store ∧ (reportWear stack c).wq = c.wq := by
  unfold reportWear
  split
  · exact ⟨wearEvent_store .., wearEvent_wq ..⟩
  · exact ⟨rfl, rfl⟩

section
variable {key : Nat} {c : Ctl}

theorem eraseBlock_of_due (ok : Bool) (m : Mem) (haccepting : c.accepting = true) (hdue : key ∈ c.store.toErase)
    (hidle : c.store.pageIns.any (fun q => q.frame.isSome && q.uses (key / 4096 / 17)) = false)
    (hunnamed : c.store.removed.any (fun r => ((bundleBlocks r.1 r.2).map c.blockOf).contains key && rangeNamed c r) = false) :
    eraseBlock key ok m c = reportWear (key / 4096 / 17) (clearRanges m (clearedRanges c (finishErase key ok c)) (finishErase key ok c)) := by
  refine if_neg ?_
  rintro (hoff | hclean | hreading | hnamed)
  · simp [haccepting] at hoff
  · simp [hdue] at hclean
  · exact absurd (hidle.symm.trans hreading) (by simp)
  · exact absurd (hunnamed.symm.trans hnamed) (by simp)

/-- What the end of a block leaves in the store, whether it is erased or fails. -/
theorem finishErase_leaves (ok : Bool) : (finishErase key ok c).wq = c.wq ∧ (finishErase key ok c).store.removed = c.store.removed ∧
    (finishErase key ok c).store.toErase = c.store.toErase.filter (· ≠ key) := by
  cases ok with
  | true => exact ⟨rfl, rfl, rfl⟩
  | false =>
    obtain ⟨used, map, hstore⟩ := retireBlock_store key c
    have hretired : finishErase key false c = retireBlock key c := rfl
    rw [hretired, hstore]
    exact ⟨retireBlock_wq .., rfl, rfl⟩
end

/-- The end of a block, as a state shows it after clearing ranges and reporting wear. -/
theorem clearRanges_fields (m : Mem) (done : List (Nat × Nat)) (c : Ctl) : (clearRanges m done c).store.toErase = c.store.toErase ∧
    (clearRanges m done c).store.wear = c.store.wear ∧ (clearRanges m done c).store.blockReads = c.store.blockReads ∧
    (clearRanges m done c).store.blocksRetired = c.store.blocksRetired := ⟨rfl, rfl, rfl, rfl⟩

theorem completes_flashBlockErase {s : State} (hs : s.ready) {ch b : Nat} (ok : Bool) {key : Nat} (hkey : ch * 4096 + b = key)
    (haccepting : s.ctl.accepting = true) (hdue : key ∈ s.ctl.store.toErase)
    (hidle : s.ctl.store.pageIns.any (fun q => q.frame.isSome && q.uses (key / 4096 / 17)) = false)
    (hunnamed : s.ctl.store.removed.any (fun r => ((bundleBlocks r.1 r.2).map s.ctl.blockOf).contains key && rangeNamed s.ctl r) = false) :
    completes (.flashBlockErase ch b ok) s fun t => (s.ctl.store.removed = [] → sameMem s t) ∧ key ∉ t.ctl.store.toErase ∧
      (ok = true → SMap.get 0 t.ctl.store.wear key = SMap.get 0 s.ctl.store.wear key + 1 ∧ SMap.get 0 t.ctl.store.blockReads key = 0) ∧
      (ok = false → SMap.get 0 t.ctl.store.blocksRetired (key / 4096) = SMap.get 0 s.ctl.store.blocksRetired (key / 4096) + 1) := by
  subst hkey
  have hend := eraseBlock_of_due ok s.mem haccepting hdue hidle hunnamed
  obtain ⟨hwq, hremoved, htoErase⟩ := finishErase_leaves (key := ch * 4096 + b) (c := s.ctl) ok
  have hexec : exec (.flashBlockErase ch b ok) s = .next (s.run (eraseBlock (ch * 4096 + b) ok)) := rfl
  generalize ch * 4096 + b = key at *
  obtain ⟨hstore, hwaits⟩ := reportWear_fields (key / 4096 / 17)
    (clearRanges s.mem (clearedRanges s.ctl (finishErase key ok s.ctl)) (finishErase key ok s.ctl))
  rw [← hend] at hstore hwaits
  obtain ⟨hto, hwear, hreads, hretired⟩ : (s.run (eraseBlock key ok)).ctl.store.toErase = (finishErase key ok s.ctl).store.toErase ∧
      (s.run (eraseBlock key ok)).ctl.store.wear = (finishErase key ok s.ctl).store.wear ∧
      (s.run (eraseBlock key ok)).ctl.store.blockReads = (finishErase key ok s.ctl).store.blockReads ∧
      (s.run (eraseBlock key ok)).ctl.store.blocksRetired = (finishErase key ok s.ctl).store.blocksRetired := by
    rw [State.run_store, Ctl.settle, hstore]
    exact clearRanges_fields s.mem (clearedRanges s.ctl (finishErase key ok s.ctl)) (finishErase key ok s.ctl)
  refine ⟨_, hexec, fun hnone => sameMem_of_run (hwaits.trans ?_), ?_, fun hok => ⟨?_, ?_⟩, fun hok => ?_⟩
  · have hclear : clearedRanges s.ctl (finishErase key ok s.ctl) = [] := by rw [clearedRanges, hremoved, hnone, List.filter_nil]
    rw [hclear]
    exact (emit_wq ..).trans (by rw [hwq, hs.2, List.flatMap_nil, List.append_nil])
  · rw [hto, htoErase]
    simp
  · rw [hwear, finishErase, if_pos hok]
    exact (addAt_get s.ctl.store.wear key 1 key).trans (if_pos rfl)
  · rw [hreads, finishErase, if_pos hok]
    exact (SMap.get_put 0 s.ctl.store.blockReads key 0 key).trans (if_pos rfl)
  · obtain ⟨used, map, hstore⟩ := retireBlock_store key s.ctl
    rw [hretired, finishErase, if_neg (by simp [hok]), hstore]
    exact (addAt_get s.ctl.store.blocksRetired (key / 4096) 1 (key / 4096)).trans (if_pos rfl)

/-- Settles O48: a page-in takes a frame that is free or made free, fills it, or fails with the streams that wait for it; reads of the
flash only note candidates, a candidate's place moves to a spare block, and the end of a block's erasure frees or retires it. -/
theorem pageInsAndFlashUpkeep : Obligations.PageInsAndFlashUpkeep := by
  unfold Obligations.PageInsAndFlashUpkeep
  intro s hs
  refine ⟨fun stack a f c' hon hnext hframe => completes_pageInStart hs hon hnext hframe,
    fun stack hnone => exec_eq_self hs rfl (startPageIn_of_none s.mem hnone),
    fun stack ups dead n o q f hq hframe => ⟨fun hlost => ⟨completes_pageInFails hq rfl hlost, completes_pageInFails_alone hs hq rfl hlost⟩,
      fun hdead hread => completes_pageInComplete hs hq rfl hframe hdead hread⟩,
    fun unit ups n haccepting hbelow hinstalled => ⟨completes_flashPatrol_of_waits hs rfl,
      fun hreads a ha => completes_flashPatrol hs rfl haccepting hbelow hinstalled hreads ha⟩,
    fun ch b n p q haccepting hdue hreads hplace hheld hspare =>
      completes_flashBlockRefresh haccepting hdue hreads hplace hheld hspare,
    fun ch b ok haccepting hdue hidle hunnamed => completes_flashBlockErase hs ok rfl haccepting hdue hidle hunnamed⟩

end Sys2Proof.Machine
end
